-- ==== Sys2Proof/Word.lean ====
section
/-! DEFINITION. The words of the PV1640: bytes, instruction words and the plainest arithmetic on them. -/

namespace Sys2Proof

abbrev Byte := BitVec 8
abbrev Word := BitVec 32

/-- The low `w` bits of a number. -/
def lowBits (w n : Nat) : Nat := n % 2 ^ w

/-- Bits `lo + w - 1 : lo` of a number. -/
def bitsAt (n lo w : Nat) : Nat := n / 2 ^ lo % 2 ^ w

/-- `old` with bits `lo + w - 1 : lo` replaced by the low `w` bits of `v`. -/
def setBits (old lo w v : Nat) : Nat :=
  old - bitsAt old lo w * 2 ^ lo + v % 2 ^ w * 2 ^ lo

/-- A number read as a `w`-bit two's complement value. -/
def signedOf (w n : Nat) : Int :=
  if n % 2 ^ w < 2 ^ (w - 1) then (n % 2 ^ w : Nat) else (n % 2 ^ w : Nat) - (2 ^ w : Nat)

/-- An integer as a `w`-bit two's complement code. -/
def codeOf (w : Nat) (x : Int) : Nat := (x % (2 ^ w : Nat)).toNat

/-- Ceiling of a quotient. -/
def ceilDiv (a b : Nat) : Nat := (a + b - 1) / b

end Sys2Proof
end

