-- ==== Sys2Proof/Syntax.lean ====
section
/-! DEFINITION. The commands of the PV1640: one constructor per row of spec/opcode_table.json, with the operands
that the command's rule names (what the device's surroundings supply: an instance, a value, bytes). -/

namespace Sys2Proof

/-- A monitored clock input (Table 17.2): SYSCLK_25, REFCLK_g or PCIE_REFCLK. -/
inductive ClockIn
  | sys
  | group (g : Nat)
  | pcie
  deriving DecidableEq, Repr

/-- By whose authority an object access is made (R416): the Bivouac for the device, or the host for its tent. -/
inductive Auth
  | biv
  | host (t : Nat)
  deriving DecidableEq, Repr

/-- A lock window (R361): a tent's, or a Bivouac core's. -/
inductive Win
  | tent (t : Nat)
  | biv (j : Nat)
  deriving DecidableEq, Repr

/-- The address of one word of an object: class, instance, word offset (R7). -/
structure ObjAddr where
  cls : BitVec 8
  inst : BitVec 24
  off : BitVec 16
  deriving DecidableEq, Repr

/-- What a channel that freezes has met (R345, Table 13.6): the cause, the failing request's port and address, and the
syndromes of the beats. -/
structure FreezeInfo where
  cause : Nat
  port : Nat
  addr : Nat
  syndrome : BitVec 128
  deriving DecidableEq, Repr

/-- The command a subchannel issues (R340). -/
inductive DdrCommand
  | refresh (rank : Nat)
  | access (i : Nat)
  deriving DecidableEq, Repr

/-- What a DRAM access meets as it completes (R344). -/
inductive BeatError
  | good
  | corrected
  | uncorrectable
  | writeCrc
  deriving DecidableEq, Repr

/-- What the boot ROM found (R326, R448): whether the flash answers, the duration, and the failing columns that the fuses
name and the memory test finds, each by its memory and 64 KiB block, in order. -/
structure BootResult where
  flash : Bool
  ms : BitVec 16
  columns : List (Nat × Nat)
  deriving DecidableEq, Repr

/-- What Survey found (R450, R335, R67, R68): the populated channels, their density, ranks and highest common speed
(coded as in Table 13.5), whether every hub is supported and every channel trained, the eyes of each channel (read,
write); by lane its loss and cable length; by group its module (identifier, power class) if one is seated; by port the
partner's abilities; the PCIe link's width and speed; the duration. -/
structure SurveyResult where
  channels : BitVec 4
  density : BitVec 2
  ranksM1 : BitVec 1
  speed : BitVec 2
  trained : Bool
  eyes : List (BitVec 16 × BitVec 16)
  lanes : List (BitVec 16 × BitVec 16)
  modules : List (Option (BitVec 8 × BitVec 4))
  partners : List (BitVec 32)
  pcieWidth : BitVec 5
  pcieSpeed : BitVec 3
  ms : BitVec 16
  deriving DecidableEq, Repr

/-- Where a Shesin command message lies (R404, R406): in a receive slot, or in the mailbox's request buffer. -/
inductive Msg
  | slot (x : Nat)
  | mailbox
  deriving DecidableEq, Repr

/-- What a pluggable module answers on its two-wire bus (R427). -/
inductive ModuleAnswer
  | absent
  | nack
  | data (l : List Byte)
  deriving DecidableEq, Repr

/-- Format A (Table 7.5): three registers and reserved bits. -/
structure FmtA where
  rd : BitVec 5
  ra : BitVec 5
  rb : BitVec 5
  rsv : BitVec 4
  deriving DecidableEq, Repr

/-- Format B: two registers and a 16-bit immediate. -/
structure FmtB where
  rd : BitVec 5
  ra : BitVec 5
  imm : BitVec 16
  deriving DecidableEq, Repr

/-- Format C: a condition and a signed 21-bit word offset. -/
structure FmtC where
  cond : BitVec 5
  simm : BitVec 21
  deriving DecidableEq, Repr

/-- Format D: a register mask and a 10-bit field. -/
structure FmtD where
  mask : BitVec 16
  low : BitVec 10
  deriving DecidableEq, Repr

/-- Format E: three registers, an endpoint and a flag. -/
structure FmtE where
  rd : BitVec 5
  ra : BitVec 5
  rb : BitVec 5
  ep : BitVec 4
  e : BitVec 1
  rsv : BitVec 2
  deriving DecidableEq, Repr

/-- Format M: a register, a base register, an address mode and a 14-bit field. -/
structure FmtM where
  rt : BitVec 5
  ra : BitVec 5
  am : BitVec 2
  low : BitVec 14
  deriving DecidableEq, Repr

/-- The commands: one constructor per row of the table. -/
inductive Instr
  | resetNLow
  | resetNRelease
  | suppliesLost
  | sensorSample (inst : Nat) (raw : BitVec 16)
  | thermTrip (sensor : Nat)
  | pfail
  | holdLift
  | clockEdgeTimeout (ck : ClockIn)
  | clockFrequencyWindow (ck : ClockIn) (ppb : Int)
  | clockRestored (ck : ClockIn)
  | bootComplete (r : BootResult)
  | holdupMeasureDone (senseMv : Nat) (dtUs : Option Nat)
  | surveyComplete (r : SurveyResult)
  | configRestore
  | tickBoundary
  | stalenessExpiry (slot : Nat)
  | gateEntryStart (p : Nat)
  | periodChange
  | linkHoldExpiry (p : Nat)
  | streamReset (n : Nat)
  | waitCycleDeclare (cluster : Nat) (group : Option (Nat × Nat))
  | lockHeldLong (n : Nat)
  | tentFrozen (t : Nat)
  | freezeTimeout (t : Nat)
  | strikeSettle (t : Nat)
  | repitchApply
  | shadowBlockCheck (n : Nat)
  | shadowRecheck (n : Nat)
  | agerScan (n : Nat)
  | bgTestStart (m : Nat)
  | bgTestEnd (m : Nat) (failing : Bool) (spare : Bool)
  | counterCheckpoint
  | storeWriteDone (area : Nat)
  | ppsInEdge (t : BitVec 64)
  | ppsOutEdge
  | ppsOutFall
  | portLinkUp (p : Nat) (fec : BitVec 2) (speed : BitVec 3)
  | portLinkDown (p : Nat)
  | rxFrameStart (p : Nat) (sof : BitVec 64)
  | rxBufferGrow (p : Nat) (got : List Byte)
  | rxFrameEnd (p : Nat) (got : List Byte) (pcsError : Bool) (fcsGood : Bool)
  | pauseExpiry (p : Nat) (cls : Nat)
  | xoffRepeat (p : Nat)
  | bivouacRx (direct : Bool)
  | intakeEntry (p : Nat)
  | intakeDramStageReturn (p : Nat)
  | headgateCheck
  | dispatchSelect (cluster : Nat)
  | redispatchSelect (cluster : Nat)
  | itemStart (h : Nat)
  | threadSwitch (core : Nat)
  | cycleCapReached (h : Nat)
  | divertGraceExpiry (h : Nat)
  | coreWatchdog (core : Nat)
  | coreMemoryError (core : Nat) (runnel : Bool)
  | clusterRetire (cluster : Nat)
  | threadTimerExpiry (h : Nat)
  | taskTimerExpiry (h : Nat)
  | requestReply (h : Nat) (ep : Nat)
  | directMessageDeliver (h : Nat) (ep : Nat)
  | itemHandover (h : Nat)
  | logStoreEntry (h : Nat)
  | releaseStart
  | diversionRelease
  | egressStart (p : Nat)
  | transmitComplete (p : Nat)
  | redundEliminate (p : Nat) (cls : Nat)
  | basinApply
  | snapshotFrame
  | tableSearch (i : Nat)
  | tableNext (i : Nat)
  | tableInsert (i : Nat)
  | tableDelete (i : Nat)
  | flushByPort (i : Nat)
  | flushStep (n : Nat)
  | learn (i : Nat)
  | tableEnable (au : Auth) (prefixClass : Bool) (n : Nat) (on : Bool)
  | clearingDone (prefixClass : Bool) (n : Nat)
  | lockGrant (sem : Bool) (n : Nat)
  | windowAcquire (w : Win)
  | windowRelease (w : Win)
  | windowP (w : Win)
  | windowV (w : Win)
  | reqCancel (w : Win)
  | doorbellRing (au : Auth) (src : Nat)
  | routerDeliver
  | hostComplete (au : Auth) (src : Nat)
  | vectorUnmask (v : Nat)
  | hostDoorbell (t : Nat) (ring : Nat) (whole : Bool) (v : BitVec 64)
  | txRingServe (entry : BitVec 128)
  | txDmaComplete (ring : Nat) (data : Option (List Byte))
  | txOutcomeWriteback (ring : Nat)
  | rxRingDeliver (t : Nat) (cls : Nat) (entry : BitVec 128)
  | windowAccess (t : Nat) (off : Nat) (w : Option Word)
  | apertureAccess (t : Nat) (off : Nat) (len : Nat) (w : Option (List Byte))
  | pcieReset
  | hostReset (au : Auth) (t : Nat)
  | pitch (au : Auth) (t : Nat)
  | freeze (au : Auth) (t : Nat)
  | unfreeze (au : Auth) (t : Nat)
  | save (au : Auth) (t : Nat)
  | saveDone (t : Nat)
  | restore (au : Auth) (t : Nat)
  | restoreDone (t : Nat) (image : List Byte)
  | strike (au : Auth) (t : Nat)
  | repitch (au : Auth)
  | epochSwap (au : Auth)
  | gateListSwap (au : Auth) (p : Nat)
  | arm (au : Auth)
  | timeStep (au : Auth) (v : BitVec 64)
  | slew (au : Auth) (v : BitVec 32)
  | applyTick (au : Auth) (v : BitVec 32)
  | ppsOutNextWrite (au : Auth) (v : BitVec 64)
  | txTsLatch (au : Auth) (p : Nat)
  | txTsTagRead (au : Auth) (p : Nat)
  | lowWordLatch (au : Auth) (a : ObjAddr)
  | counterReadClear (au : Auth) (a : ObjAddr)
  | hwReset (au : Auth) (q : Nat)
  | flagSet (au : Auth) (q : Nat) (flags : BitVec 16)
  | lwReset (au : Auth) (pool : Nat)
  | force (au : Auth) (slot : Nat)
  | unforce (au : Auth) (slot : Nat)
  | cfgIndexWrite (au : Auth) (slot : Nat) (v : BitVec 16)
  | channelThaw (au : Auth) (ch : Nat) (retryFails : Option FreezeInfo)
  | channelFreeze (ch : Nat) (f : FreezeInfo)
  | subchannelCommand (ch : Nat) (sub : Nat) (c : DdrCommand)
  | dramComplete (ch : Nat) (i : Nat) (e : BeatError)
  | dramRefresh (ch : Nat) (rank : Nat)
  | dqsRetrain (ch : Nat) (rank : Nat)
  | scrubRead (ch : Nat) (corrected : Bool)
  | mgmtTimeout
  | crossingResync (x : Nat)
  | deviceResetStart
  | drainSettle
  | firmwareHandover
  | fwReady (au : Auth)
  | fwReadyTimeout
  | dormantEntry
  | wake (src : Nat)
  | bivouacInterrupt (j : Nat)
  | bivouacWatchdog (j : Nat)
  | kick (au : Auth) (j : Nat)
  | txRecordGo (x : Nat) (w : Word)
  | mailboxGo (w : Word) (request : List Byte)
  | keyClear (au : Auth) (k : Nat)
  | debugHalt (au : Auth) (h : Nat)
  | debugResume (au : Auth) (h : Nat)
  | debugStep (au : Auth) (h : Nat)
  | debugReset (au : Auth) (h : Nat)
  | regDataAccess (au : Auth) (h : Nat) (w : Option Word)
  | registerWrite (au : Auth) (a : ObjAddr) (w : Word)
  | echo (m : Msg)
  | identify (m : Msg)
  | objRead (m : Msg)
  | objWrite (m : Msg)
  | objModify (m : Msg)
  | modeSet (m : Msg)
  | thaw (m : Msg)
  | resetCmd (m : Msg)
  | loadImem (m : Msg)
  | readImem (m : Msg)
  | storeSave (m : Msg)
  | storeRead (m : Msg)
  | restoreFactory (m : Msg)
  | setKey (m : Msg)
  | modRead (m : Msg) (module : ModuleAnswer)
  | modWrite (m : Msg) (module : ModuleAnswer)
  | fwWrite (m : Msg)
  | fwActivate (m : Msg)
  | add (h : Nat) (f : FmtA)
  | sub (h : Nat) (f : FmtA)
  | adds (h : Nat) (f : FmtA)
  | subs (h : Nat) (f : FmtA)
  | neg (h : Nat) (f : FmtA)
  | andI (h : Nat) (f : FmtA)
  | orI (h : Nat) (f : FmtA)
  | xorI (h : Nat) (f : FmtA)
  | andn (h : Nat) (f : FmtA)
  | shl (h : Nat) (f : FmtA)
  | shr (h : Nat) (f : FmtA)
  | sar (h : Nat) (f : FmtA)
  | rol (h : Nat) (f : FmtA)
  | ror (h : Nat) (f : FmtA)
  | mul (h : Nat) (f : FmtA)
  | mulh (h : Nat) (f : FmtA)
  | mulhu (h : Nat) (f : FmtA)
  | divI (h : Nat) (f : FmtA)
  | divu (h : Nat) (f : FmtA)
  | rem (h : Nat) (f : FmtA)
  | remu (h : Nat) (f : FmtA)
  | min (h : Nat) (f : FmtA)
  | max (h : Nat) (f : FmtA)
  | minu (h : Nat) (f : FmtA)
  | maxu (h : Nat) (f : FmtA)
  | clz (h : Nat) (f : FmtA)
  | popc (h : Nat) (f : FmtA)
  | bswap (h : Nat) (f : FmtA)
  | addi (h : Nat) (f : FmtB)
  | subi (h : Nat) (f : FmtB)
  | andi (h : Nat) (f : FmtB)
  | ori (h : Nat) (f : FmtB)
  | xori (h : Nat) (f : FmtB)
  | lui (h : Nat) (f : FmtB)
  | shi (h : Nat) (f : FmtB)
  | bfx (h : Nat) (f : FmtB)
  | bcc (h : Nat) (f : FmtC)
  | jr (h : Nat) (f : FmtB)
  | call (h : Nat) (f : FmtD)
  | callr (h : Nat) (f : FmtD)
  | ret (h : Nat) (f : FmtD)
  | ldb (h : Nat) (f : FmtM)
  | ldbu (h : Nat) (f : FmtM)
  | ldh (h : Nat) (f : FmtM)
  | ldhu (h : Nat) (f : FmtM)
  | ldw (h : Nat) (f : FmtM)
  | stb (h : Nat) (f : FmtM)
  | sth (h : Nat) (f : FmtM)
  | stw (h : Nat) (f : FmtM)
  | sstw (h : Nat) (f : FmtM)
  | ssadd (h : Nat) (f : FmtM)
  | atomFadd (h : Nat) (f : FmtA)
  | atomSwap (h : Nat) (f : FmtA)
  | atomCas (h : Nat) (f : FmtA)
  | batomFadd (h : Nat) (f : FmtA)
  | batomSwap (h : Nat) (f : FmtA)
  | batomCas (h : Nat) (f : FmtA)
  | chr (h : Nat) (f : FmtE)
  | chw (h : Nat) (f : FmtE)
  | waitI (h : Nat) (f : FmtB)
  | frd (h : Nat) (f : FmtE)
  | brd (h : Nat) (f : FmtE)
  | drd (h : Nat) (f : FmtE)
  | treq (h : Nat) (f : FmtE)
  | lkacq (h : Nat) (f : FmtE)
  | lkrel (h : Nat) (f : FmtE)
  | lkrelc (h : Nat) (f : FmtE)
  | semp (h : Nat) (f : FmtE)
  | semv (h : Nat) (f : FmtE)
  | semvc (h : Nat) (f : FmtE)
  | stg (h : Nat) (f : FmtB)
  | tfset (h : Nat) (f : FmtB)
  | tfclr (h : Nat) (f : FmtB)
  | tarm (h : Nat) (f : FmtE)
  | qarm (h : Nat) (f : FmtE)
  | nop (h : Nat) (f : FmtE)
  | commitI (h : Nat) (f : FmtE)
  | divert (h : Nat) (f : FmtE)
  | tret (h : Nat) (f : FmtE)
  | breakI (h : Nat) (f : FmtE)
  | mff (h : Nat) (f : FmtE)
  | mtf (h : Nat) (f : FmtE)
  | rdt (h : Nat) (f : FmtE)
  | rdth (h : Nat) (f : FmtE)
  | rdtick (h : Nat) (f : FmtE)
  | ord (h : Nat) (f : FmtE)
  | owr (h : Nat) (f : FmtE)
  | lstat (h : Nat) (f : FmtE)
  | claim (h : Nat) (f : FmtE)
  | cplt (h : Nat) (f : FmtE)
  | rbind (h : Nat) (f : FmtE)
  | rfree (h : Nat) (f : FmtE)
  | rsave (h : Nat) (f : FmtE)
  | rrestore (h : Nat) (f : FmtE)
  | rmfc (h : Nat) (f : FmtE)
  | rmtc (h : Nat) (f : FmtE)
  | rfence (h : Nat) (f : FmtE)
  | radd (h : Nat) (f : FmtE)
  | rsub (h : Nat) (f : FmtE)
  | rneg (h : Nat) (f : FmtE)
  | rabs (h : Nat) (f : FmtE)
  | rmin (h : Nat) (f : FmtE)
  | rmax (h : Nat) (f : FmtE)
  | rmulf (h : Nat) (f : FmtE)
  | rdiv (h : Nat) (f : FmtE)
  | rshl (h : Nat) (f : FmtE)
  | rshr (h : Nat) (f : FmtE)
  | rsar (h : Nat) (f : FmtE)
  | rand (h : Nat) (f : FmtE)
  | rlaneRor (h : Nat) (f : FmtE)
  | rxor (h : Nat) (f : FmtE)
  | rsel (h : Nat) (f : FmtE)
  | rsmov (h : Nat) (f : FmtE)
  | ceq (h : Nat) (f : FmtE)
  | cne (h : Nat) (f : FmtE)
  | clt (h : Nat) (f : FmtE)
  | cle (h : Nat) (f : FmtE)
  | cgt (h : Nat) (f : FmtE)
  | cge (h : Nat) (f : FmtE)
  | pand (h : Nat) (f : FmtE)
  | por (h : Nat) (f : FmtE)
  | pxor (h : Nat) (f : FmtE)
  | pnot (h : Nat) (f : FmtE)
  | rmul (h : Nat) (f : FmtE)
  | rmac (h : Nat) (f : FmtE)
  | rmsu (h : Nat) (f : FmtE)
  | rmulus (h : Nat) (f : FmtE)
  | rmacus (h : Nat) (f : FmtE)
  | racc (h : Nat) (f : FmtE)
  | raclr (h : Nat) (f : FmtE)
  | raadd (h : Nat) (f : FmtE)
  | rasub (h : Nat) (f : FmtE)
  | ramov (h : Nat) (f : FmtE)
  | rashl (h : Nat) (f : FmtE)
  | rashr (h : Nat) (f : FmtE)
  | rasar (h : Nat) (f : FmtE)
  | raset (h : Nat) (f : FmtE)
  | rnrw (h : Nat) (f : FmtE)
  | rbcast (h : Nat) (f : FmtE)
  | rins (h : Nat) (f : FmtE)
  | rext (h : Nat) (f : FmtE)
  | rains (h : Nat) (f : FmtE)
  | raext (h : Nat) (f : FmtE)
  | rsum (h : Nat) (f : FmtE)
  | rpcnt (h : Nat) (f : FmtE)
  | rld (h : Nat) (minor : BitVec 4) (f : FmtE)
  | rst (h : Nat) (minor : BitVec 4) (f : FmtE)
  | suppliesReturn
  | scopeResetStart (scope : BitVec 8)
  | timeBaseWrap
  | memoryUncorrectable (m : Nat) (addr : Nat) (j : Nat)
  deriving DecidableEq, Repr

end Sys2Proof
end

