-- ==== Sys2Proof/Config.lean ====
section
/-! DEFINITION. The free values of the model: what the spec leaves open, as constants with no body.
Nothing can be proved about a value of one; a statement that mentions one holds for every value of it. -/

namespace Sys2Proof

/-- The value of a counter after an increment past its width where the spec states neither saturation nor
wrapping, from the counter's width and the count that does not fit (assumption log 9). -/
opaque Config.counterOver : Nat → Nat → Nat

/-- A fresh value that the spec does not fix, applied to the model's counter `free` (assumption logs 7, 8, 17):
which free buffer, descriptor slot or record is taken, the contents of a captured error, the data of a failed read. -/
opaque Config.freeNat : Nat → Nat

/-- The single-bit error that a memory corrects in an idle cycle, if any: its memory and offset, and of a core's local
memory whether it lies in the instruction memory (R164, R274, R321; assumption log 39). -/
opaque Config.bitError : Nat → Option (Nat × Nat × Bool)

/-- The GMAC tag of R410 (a key, an initialisation vector and a message; AES-256-GMAC by its standard; log 10). -/
opaque Config.gmac : List Byte → List Byte → List Byte → List Byte

/-- AES key unwrapping of R422 (key-encryption key, wrapped bytes); `none` where the wrap does not verify (log 10). -/
opaque Config.keyUnwrap : List Byte → List Byte → Option (List Byte)

/-- Firmware images (R449): the public key embedded in an image, the SHA-384 of bytes, the fused hash of the key, and whether
the ECDSA P-384 signature over an image verifies under a key (log 10). -/
opaque Config.imageKey : List Byte → List Byte
opaque Config.sha384 : List Byte → List Byte
opaque Config.fusedKeyHash : List Byte
opaque Config.signatureGood : List Byte → List Byte → Bool

/-- The bytes of Bivouac memory that an image loads, by their addresses, and the version that it states; the spec gives no
image format (log 155). -/
opaque Config.firmware : List Byte → List (Nat × Byte)
opaque Config.fwVersionOf : List Byte → Nat

/-- The rank, bank and row coordinates of a DRAM address (log 13). -/
opaque Config.mappingOf : Nat → Nat

/-- The head of a stored configuration set, with N and the states of the tents, whose byte layout the spec does not
give (log 31). -/
opaque Config.configHead : Nat → List Nat → List Byte

/-- The bytes of a stored calibration set, and of the stored keys (log 31). -/
opaque Config.calibBytes : List (Nat × Nat) → List Byte
opaque Config.keyBytes : List (Nat × List Byte) → List Byte

/-- The latency of RAINS, which Table 8.13 does not give (log 14). -/
opaque Config.rainsLatency : Nat

/-- The bytes of the factory area (log 6). -/
opaque Config.factoryArea : List Byte

end Sys2Proof
end

