-- ==== Sys2Proof/Machine/Field.lean ====
section
/-! DEFINITION. What a field map says of one field of an object: place, access code, reset value and stated range
(Table 0.4 and the field maps of every chapter). -/

namespace Sys2Proof.Machine

/-- The access codes of Table 0.4. -/
inductive Access | rw | ro | rc | w1c | wo
  deriving DecidableEq, Repr

/-- One field: lowest bit, width, access, reset value, least and greatest value (none: all of the width), and the
number of low bits that must be 0. Bits that belong to no field are RS. -/
structure Fld where
  lo : Nat
  width : Nat
  acc : Access
  reset : Nat
  least : Nat
  greatest : Option Nat
  align : Nat
  deriving DecidableEq, Repr

/-- Whether a value lies in the field's stated range. -/
def Fld.inRange (f : Fld) (v : Nat) : Bool :=
  decide (f.least ≤ v) && (match f.greatest with | none => true | some g => decide (v ≤ g)) &&
    decide (v % 2 ^ f.align = 0)

/-- The word of the object that holds the field's lowest bit. -/
def Fld.word (f : Fld) : Nat := f.lo / 32

end Sys2Proof.Machine
end

