-- ==== Sys2Proof/Machine/FieldsA.lean ====
section
/-! DEFINITION. The field maps of the object classes of chapters 2 to 9, one constant per field:
lowest bit, width, access code, reset value, stated range (least, greatest) and the number of low bits that must be 0
(Table 0.4 and the tables named below). Reset values that depend on the instance are in Machine/Layout.lean. -/

namespace Sys2Proof.Machine

/-! Table 2.3 (TICK[0] fields), spec/02_sluice_tick.md. -/
namespace FTick

def time : Fld := Fld.mk 0 64 .ro 0 0 none 0
def era : Fld := Fld.mk 64 32 .rw 0 0 none 0
def rate : Fld := Fld.mk 96 40 .rw 2863311531 2861879875 (some 2864743187) 0
def step : Fld := Fld.mk 160 64 .wo 0 0 none 0
def slew : Fld := Fld.mk 224 32 .wo 0 0 none 0
def slewRemain : Fld := Fld.mk 256 32 .ro 0 0 none 0
def slewPpm : Fld := Fld.mk 288 9 .rw 100 1 (some 500) 0
def syncState : Fld := Fld.mk 318 2 .rw 0 0 none 0
def ppsInTime : Fld := Fld.mk 320 64 .ro 0 0 none 0
def ppsInCount : Fld := Fld.mk 384 32 .ro 0 0 none 0
def ppsOutNext : Fld := Fld.mk 416 64 .rw 0 0 none 0
def ppsOutPeriod : Fld := Fld.mk 480 32 .rw 1000000000 1000 (some 4000000000) 0
def ppsOutWidth : Fld := Fld.mk 512 32 .rw 100000000 0 none 0
def ppsOutEn : Fld := Fld.mk 544 1 .rw 0 0 none 0
def ppsInEn : Fld := Fld.mk 545 1 .rw 0 0 none 0
def period : Fld := Fld.mk 576 32 .ro 50000 0 none 0
def periodNext : Fld := Fld.mk 608 32 .rw 50000 4000 (some 1000000) 0
def applyTick : Fld := Fld.mk 640 32 .rw 0 0 none 0
def pending : Fld := Fld.mk 672 1 .ro 0 0 none 0
def tickNumber : Fld := Fld.mk 704 32 .ro 0 0 none 0
def anchor : Fld := Fld.mk 736 64 .rw 0 0 none 0
def anchorTick : Fld := Fld.mk 800 32 .rw 0 0 none 0
def arm : Fld := Fld.mk 832 1 .wo 0 0 none 0
def boundary : Fld := Fld.mk 864 64 .ro 0 0 none 0
def staleHome : Fld := Fld.mk 928 32 .rc 0 0 none 0
def lateCommits : Fld := Fld.mk 960 32 .rc 0 0 none 0
def diversions : Fld := Fld.mk 992 32 .rc 0 0 none 0
def futureHome : Fld := Fld.mk 1024 32 .rc 0 0 none 0
def all : List Fld :=
  [time, era, rate, step, slew, slewRemain, slewPpm, syncState, ppsInTime, ppsInCount, ppsOutNext, ppsOutPeriod] ++
  [ppsOutWidth, ppsOutEn, ppsInEn, period, periodNext, applyTick, pending, tickNumber, anchor, anchorTick, arm, boundary] ++
  [staleHome, lateCommits, diversions, futureHome]

end FTick

/-! Table 2.4 (TICK class instance fields), spec/02_sluice_tick.md. -/
namespace FClass

def cycleShare : Fld := Fld.mk 0 17 .rw 65536 0 (some 65536) 0
def frameShare : Fld := Fld.mk 32 17 .rw 65536 0 (some 65536) 0
def cycleCharge : Fld := Fld.mk 64 16 .rw 96 1 (some 65535) 0
def cycleCap : Fld := Fld.mk 96 16 .rw 4096 64 (some 65535) 0
def divertGrace : Fld := Fld.mk 112 16 .rw 512 0 none 0
def cycleAllow : Fld := Fld.mk 128 32 .ro 0 0 none 0
def frameAllow : Fld := Fld.mk 160 32 .ro 0 0 none 0
def cyclesCharged : Fld := Fld.mk 192 32 .ro 0 0 none 0
def framesCharged : Fld := Fld.mk 224 32 .ro 0 0 none 0
def debt : Fld := Fld.mk 256 32 .ro 0 0 none 0
def lateCommits : Fld := Fld.mk 288 32 .rc 0 0 none 0
def maxLateness : Fld := Fld.mk 320 32 .rc 0 0 none 0
def diversions : Fld := Fld.mk 352 32 .rc 0 0 none 0
def tentCycles : Fld := Fld.mk 384 32 .ro 0 0 none 0
def tentFrames : Fld := Fld.mk 416 32 .ro 0 0 none 0
def all : List Fld :=
  [cycleShare, frameShare, cycleCharge, cycleCap, divertGrace, cycleAllow, frameAllow, cyclesCharged, framesCharged, debt, lateCommits, maxLateness] ++
  [diversions, tentCycles, tentFrames]

end FClass

/-! Table 3.5 (PORT fields), spec/03_ports.md. -/
namespace FPort

def mode : Fld := Fld.mk 0 3 .rw 0 0 none 0
def adminUp : Fld := Fld.mk 3 1 .rw 0 0 none 0
def anEn : Fld := Fld.mk 4 1 .rw 1 0 none 0
def fec : Fld := Fld.mk 5 2 .rw 3 0 none 0
def fcMode : Fld := Fld.mk 7 1 .rw 0 0 none 0
def fcRxEn : Fld := Fld.mk 8 1 .rw 0 0 none 0
def fcTxEn : Fld := Fld.mk 9 1 .rw 0 0 none 0
def operState : Fld := Fld.mk 16 3 .ro 0 0 none 0
def operFec : Fld := Fld.mk 19 2 .ro 0 0 none 0
def operSpeed : Fld := Fld.mk 21 3 .ro 0 0 none 0
def pfcEnable : Fld := Fld.mk 24 8 .rw 0 0 none 0
def maxFrame : Fld := Fld.mk 32 14 .rw 16383 64 (some 16383) 0
def holdLimit : Fld := Fld.mk 64 16 .rw 4 0 none 0
def pauseQuanta : Fld := Fld.mk 80 16 .rw 65535 0 none 0
def excOffset : Fld := Fld.mk 96 20 .rw 0 0 none 0
def rxDelay : Fld := Fld.mk 128 32 .rw 0 0 none 0
def txDelay : Fld := Fld.mk 160 32 .rw 0 0 none 0
def xoffKib : Fld := Fld.mk 192 16 .rw 4096 0 none 0
def xonKib : Fld := Fld.mk 208 16 .rw 8192 0 none 0
def laneLoss : Fld := Fld.mk 224 16 .ro 0 0 none 0
def cableLen : Fld := Fld.mk 240 16 .ro 65535 0 none 0
def modId : Fld := Fld.mk 256 8 .ro 0 0 none 0
def modPowerClass : Fld := Fld.mk 264 4 .ro 0 0 none 0
def modPresent : Fld := Fld.mk 268 1 .ro 0 0 none 0
def modPowerMax : Fld := Fld.mk 272 4 .rw 8 0 none 0
def lpAbility : Fld := Fld.mk 288 32 .ro 0 0 none 0
def rxFrames : Fld := Fld.mk 320 64 .rc 0 0 none 0
def rxBytes : Fld := Fld.mk 384 64 .rc 0 0 none 0
def txFrames : Fld := Fld.mk 448 64 .rc 0 0 none 0
def txBytes : Fld := Fld.mk 512 64 .rc 0 0 none 0
def rxPcsErr : Fld := Fld.mk 576 32 .rc 0 0 none 0
def rxRunt : Fld := Fld.mk 608 32 .rc 0 0 none 0
def rxOversize : Fld := Fld.mk 640 32 .rc 0 0 none 0
def rxFcsErr : Fld := Fld.mk 672 32 .rc 0 0 none 0
def rxPause : Fld := Fld.mk 704 32 .rc 0 0 none 0
def txPause : Fld := Fld.mk 736 32 .rc 0 0 none 0
def linkDowns : Fld := Fld.mk 768 32 .rc 0 0 none 0
def linkCut : Fld := Fld.mk 800 32 .rc 0 0 none 0
def linkHeld : Fld := Fld.mk 832 32 .rc 0 0 none 0
def tsOverflow : Fld := Fld.mk 864 32 .rc 0 0 none 0
def txTs : Fld := Fld.mk 896 64 .ro 0 0 none 0
def txTsTag : Fld := Fld.mk 960 16 .ro 0 0 none 0
def txTsValid : Fld := Fld.mk 976 1 .ro 0 0 none 0
def all : List Fld :=
  [mode, adminUp, anEn, fec, fcMode, fcRxEn, fcTxEn, operState, operFec, operSpeed, pfcEnable, maxFrame] ++
  [holdLimit, pauseQuanta, excOffset, rxDelay, txDelay, xoffKib, xonKib, laneLoss, cableLen, modId, modPowerClass, modPresent] ++
  [modPowerMax, lpAbility, rxFrames, rxBytes, txFrames, txBytes, rxPcsErr, rxRunt, rxOversize, rxFcsErr, rxPause, txPause] ++
  [linkDowns, linkCut, linkHeld, tsOverflow, txTs, txTsTag, txTsValid]

end FPort

/-! Table 3.6 (EGRESS fields), spec/03_ports.md. -/
namespace FEgress

def cycleMult : Fld := Fld.mk 0 4 .rw 1 1 (some 16) 0
def swap : Fld := Fld.mk 4 1 .wo 0 0 none 0
def swapPending : Fld := Fld.mk 5 1 .ro 0 0 none 0
def adminLen : Fld := Fld.mk 8 9 .rw 1 1 (some 256) 0
def operLen : Fld := Fld.mk 17 9 .ro 1 0 none 0
def gateState : Fld := Fld.mk 32 8 .ro 255 0 none 0
def fcPaused : Fld := Fld.mk 40 8 .ro 0 0 none 0
def overruns : Fld := Fld.mk 64 32 .rc 0 0 none 0
def queuedFrames : Fld := Fld.mk 96 32 .ro 0 0 none 0
def all : List Fld :=
  [cycleMult, swap, swapPending, adminLen, operLen, gateState, fcPaused, overruns, queuedFrames]

end FEgress

/-! Table 3.8 (REDUND fields), spec/03_ports.md. -/
namespace FRedund

def function : Fld := Fld.mk 0 3 .rw 0 0 (some 4) 0
def strip : Fld := Fld.mk 3 1 .rw 0 0 none 0
def passUntagged : Fld := Fld.mk 4 1 .rw 0 0 none 0
def historyLen : Fld := Fld.mk 8 7 .rw 32 2 (some 64) 0
def resetTicks : Fld := Fld.mk 16 16 .rw 20 1 (some 65535) 0
def portA : Fld := Fld.mk 32 7 .rw 0 0 (some 64) 0
def portB : Fld := Fld.mk 40 7 .rw 1 0 (some 64) 0
def nextSeq : Fld := Fld.mk 48 16 .rw 0 0 none 0
def recovSeq : Fld := Fld.mk 64 16 .ro 0 0 none 0
def passed : Fld := Fld.mk 96 32 .rc 0 0 none 0
def discarded : Fld := Fld.mk 128 32 .rc 0 0 none 0
def rogue : Fld := Fld.mk 160 32 .rc 0 0 none 0
def outOfOrder : Fld := Fld.mk 192 32 .rc 0 0 none 0
def resets : Fld := Fld.mk 224 32 .rc 0 0 none 0
def tagless : Fld := Fld.mk 256 32 .rc 0 0 none 0
def tooLong : Fld := Fld.mk 288 32 .rc 0 0 none 0
def heldTwin : Fld := Fld.mk 320 32 .rc 0 0 none 0
def all : List Fld :=
  [function, strip, passUntagged, historyLen, resetTicks, portA, portB, nextSeq, recovSeq, passed, discarded, rogue] ++
  [outOfOrder, resets, tagless, tooLong, heldTwin]

end FRedund

/-! Table 4.9 (INTAKE[0] fields), spec/04_intake_classification.md. -/
namespace FIntake

def activeEpoch : Fld := Fld.mk 0 1 .ro 0 0 none 0
def swap : Fld := Fld.mk 1 1 .wo 0 0 none 0
def live : Fld := Fld.mk 2 2 .ro 1 0 none 0
def recircOffset : Fld := Fld.mk 32 20 .rw 0 0 none 0
def inFlight0 : Fld := Fld.mk 64 32 .ro 0 0 none 0
def inFlight1 : Fld := Fld.mk 96 32 .ro 0 0 none 0
def swaps : Fld := Fld.mk 128 32 .rc 0 0 none 0
def epochRemap : Fld := Fld.mk 160 32 .rc 0 0 none 0
def all : List Fld :=
  [activeEpoch, swap, live, recircOffset, inFlight0, inFlight1, swaps, epochRemap]

end FIntake

/-! Table 4.10 (Header node fields), spec/04_intake_classification.md. -/
namespace FNode

def htype : Fld := Fld.mk 0 8 .rw 0 0 none 0
def fixedLen : Fld := Fld.mk 8 8 .rw 0 0 none 0
def lenOff : Fld := Fld.mk 16 8 .rw 0 0 none 0
def lenWidth : Fld := Fld.mk 24 4 .rw 0 0 (some 8) 0
def lenBitpos : Fld := Fld.mk 28 3 .rw 0 0 none 0
def lenShift : Fld := Fld.mk 32 2 .rw 0 0 none 0
def selOff : Fld := Fld.mk 40 8 .rw 0 0 none 0
def selShift : Fld := Fld.mk 48 5 .rw 0 0 none 0
def selMask : Fld := Fld.mk 64 16 .rw 0 0 none 0
def defaultNext : Fld := Fld.mk 80 7 .rw 64 0 (some 64) 0
def transValue (k : Nat) : Fld := Fld.mk (96 + 32 * k) 16 .rw 0 0 none 0
def transNext (k : Nat) : Fld := Fld.mk (112 + 32 * k) 7 .rw 64 0 (some 64) 0
def transValid (k : Nat) : Fld := Fld.mk (127 + 32 * k) 1 .rw 0 0 none 0
def all : List Fld :=
  [htype, fixedLen, lenOff, lenWidth, lenBitpos, lenShift, selOff, selShift, selMask, defaultNext] ++
  (List.range 8).map transValue ++
  (List.range 8).map transNext ++
  (List.range 8).map transValid

end FNode

/-! Table 4.11 (Port profile fields), spec/04_intake_classification.md. -/
namespace FProfile

def firstNode : Fld := Fld.mk 0 6 .rw 0 0 none 0
def firstStage : Fld := Fld.mk 8 3 .rw 0 0 none 0
def initMeta : Fld := Fld.mk 64 64 .rw 0 0 none 0
def all : List Fld :=
  [firstNode, firstStage, initMeta]

end FProfile

/-! Table 4.12 (Port counter fields), spec/04_intake_classification.md. -/
namespace FInCnt

def framesIn : Fld := Fld.mk 0 64 .rc 0 0 none 0
def inputFull : Fld := Fld.mk 64 32 .rc 0 0 none 0
def dropped : Fld := Fld.mk 96 32 .rc 0 0 none 0
def unclassified : Fld := Fld.mk 128 32 .rc 0 0 none 0
def editOver : Fld := Fld.mk 160 32 .rc 0 0 none 0
def editSkipped : Fld := Fld.mk 192 32 .rc 0 0 none 0
def crossTent : Fld := Fld.mk 224 32 .rc 0 0 none 0
def passLimit : Fld := Fld.mk 256 32 .rc 0 0 none 0
def parseIncomplete : Fld := Fld.mk 288 32 .rc 0 0 none 0
def all : List Fld :=
  [framesIn, inputFull, dropped, unclassified, editOver, editSkipped, crossTent, passLimit, parseIncomplete]

end FInCnt

/-! Table 4.14 (Indirection entry fields), spec/04_intake_classification.md. -/
namespace FIndir

def queueOffset : Fld := Fld.mk 0 20 .rw 0 0 none 0
def all : List Fld :=
  [queueOffset]

end FIndir

/-! Table 4.15 (STAGE fields), spec/04_intake_classification.md. -/
namespace FStage

def stageType : Fld := Fld.mk 0 2 .rw 0 0 none 0
def family : Fld := Fld.mk 2 1 .rw 0 0 none 0
def indexBits : Fld := Fld.mk 3 5 .rw 1 1 (some 20) 0
def tableId : Fld := Fld.mk 16 16 .rw 0 0 none 0
def keyMask : Fld := Fld.mk 288 128 .rw 340282366920938463463374607431768211455 0 none 0
def missResult : Fld := Fld.mk 416 64 .rw 0 0 none 0
def lookups : Fld := Fld.mk 480 64 .rc 0 0 none 0
def hits : Fld := Fld.mk 544 64 .rc 0 0 none 0
def all : List Fld :=
  [stageType, family, indexBits, tableId, keyMask, missResult, lookups, hits]

end FStage

/-! Table 5.7 (HEADGATE device and tent fields), spec/05_headgate_queues.md. -/
namespace FHead

def admitted : Fld := Fld.mk 0 64 .rc 0 0 none 0
def refused : Fld := Fld.mk 64 64 .rc 0 0 none 0
def descUsed : Fld := Fld.mk 128 20 .ro 0 0 none 0
def admitOpen : Fld := Fld.mk 160 1 .ro 0 0 none 0
def descShare : Fld := Fld.mk 192 20 .ro 524288 0 none 0
def groupFallback : Fld := Fld.mk 224 32 .rc 0 0 none 0
def refClosed : Fld := Fld.mk 256 32 .rc 0 0 none 0
def refQueueDisabled : Fld := Fld.mk 288 32 .rc 0 0 none 0
def refOverShare : Fld := Fld.mk 320 32 .rc 0 0 none 0
def refQueueFull : Fld := Fld.mk 352 32 .rc 0 0 none 0
def refFurrowFull : Fld := Fld.mk 384 32 .rc 0 0 none 0
def refClassFrames : Fld := Fld.mk 416 32 .rc 0 0 none 0
def refClassCycles : Fld := Fld.mk 448 32 .rc 0 0 none 0
def refTentFrames : Fld := Fld.mk 480 32 .rc 0 0 none 0
def refTentCycles : Fld := Fld.mk 512 32 .rc 0 0 none 0
def refDescShare : Fld := Fld.mk 544 32 .rc 0 0 none 0
def refBufferQuota : Fld := Fld.mk 576 32 .rc 0 0 none 0
def all : List Fld :=
  [admitted, refused, descUsed, admitOpen, descShare, groupFallback, refClosed, refQueueDisabled, refOverShare, refQueueFull, refFurrowFull, refClassFrames] ++
  [refClassCycles, refTentFrames, refTentCycles, refDescShare, refBufferQuota]

end FHead

/-! Table 5.8 (HEADGATE load fields), spec/05_headgate_queues.md. -/
namespace FLoad

def issueNow : Fld := Fld.mk 0 32 .ro 0 0 none 0
def issueLast : Fld := Fld.mk 32 32 .ro 0 0 none 0
def heldLast : Fld := Fld.mk 64 32 .ro 0 0 none 0
def itemsLast : Fld := Fld.mk 96 32 .ro 0 0 none 0
def all : List Fld :=
  [issueNow, issueLast, heldLast, itemsLast]

end FLoad

/-! Table 5.9 (QUEUE fields), spec/05_headgate_queues.md. -/
namespace FQueue

def depth : Fld := Fld.mk 0 20 .ro 0 0 none 0
def weirLevel : Fld := Fld.mk 20 20 .rw 1024 1 (some 524288) 0
def highWater : Fld := Fld.mk 40 20 .ro 0 0 none 0
def hwReset : Fld := Fld.mk 60 1 .wo 0 0 none 0
def overShare : Fld := Fld.mk 61 1 .ro 0 0 none 0
def enable : Fld := Fld.mk 62 1 .rw 0 0 none 0
def ready : Fld := Fld.mk 63 1 .ro 0 0 none 0
def head : Fld := Fld.mk 64 19 .ro 0 0 none 0
def tail : Fld := Fld.mk 83 19 .ro 0 0 none 0
def flags : Fld := Fld.mk 102 16 .w1c 0 0 none 0
def mask : Fld := Fld.mk 118 16 .rw 1 1 none 0
def autoClear : Fld := Fld.mk 134 16 .rw 0 0 none 0
def cluster : Fld := Fld.mk 150 4 .rw 0 0 none 0
def group : Fld := Fld.mk 154 3 .rw 0 0 none 0
def priority : Fld := Fld.mk 157 3 .rw 0 0 none 0
def concurrencyM1 : Fld := Fld.mk 160 6 .rw 7 0 none 0
def inService : Fld := Fld.mk 166 7 .ro 0 0 none 0
def homeFurrow : Fld := Fld.mk 173 16 .rw 0 0 none 0
def headRecord : Fld := Fld.mk 189 1 .ro 0 0 none 0
def tailRecord : Fld := Fld.mk 190 1 .ro 0 0 none 0
def flagSet : Fld := Fld.mk 192 16 .wo 0 0 none 0
def all : List Fld :=
  [depth, weirLevel, highWater, hwReset, overShare, enable, ready, head, tail, flags, mask, autoClear] ++
  [cluster, group, priority, concurrencyM1, inService, homeFurrow, headRecord, tailRecord, flagSet]

end FQueue

/-! Table 5.10 (FURROW fields), spec/05_headgate_queues.md. -/
namespace FFurrow

def weirLevel : Fld := Fld.mk 0 13 .rw 4096 1 (some 4096) 0
def outstanding : Fld := Fld.mk 16 13 .ro 0 0 none 0
def maxOutstanding : Fld := Fld.mk 32 13 .rc 0 0 none 0
def nextSeq : Fld := Fld.mk 64 32 .rw 0 0 none 0
def excOffset : Fld := Fld.mk 96 20 .rw 0 0 none 0
def admitted : Fld := Fld.mk 128 64 .rc 0 0 none 0
def refused : Fld := Fld.mk 192 32 .rc 0 0 none 0
def overShareEvents : Fld := Fld.mk 224 32 .rc 0 0 none 0
def waitBin (b : Nat) : Fld := Fld.mk (256 + 32 * b) 32 .rc 0 0 none 0
def all : List Fld :=
  [weirLevel, outstanding, maxOutstanding, nextSeq, excOffset, admitted, refused, overShareEvents] ++
  (List.range 16).map waitBin

end FFurrow

/-! Table 6.6 (CLUSTER fields), spec/06_tisathe_threads.md. -/
namespace FCluster

def retired : Fld := Fld.mk 0 1 .ro 0 0 none 0
def liveThreads : Fld := Fld.mk 32 64 .ro 18446744073709551615 0 none 0
def waitCycles : Fld := Fld.mk 96 32 .rc 0 0 none 0
def snapTick : Fld := Fld.mk 128 32 .ro 0 0 none 0
def snapValid : Fld := Fld.mk 160 1 .w1c 0 0 none 0
def snapWhole : Fld := Fld.mk 161 1 .ro 0 0 none 0
def snapGroup : Fld := Fld.mk 162 3 .ro 0 0 none 0
def snapTent : Fld := Fld.mk 165 6 .ro 0 0 none 0
def groupMask (g : Nat) : Fld := Fld.mk (256 + 64 * g) 64 .rw 18446744073709551615 0 none 0
def all : List Fld :=
  [retired, liveThreads, waitCycles, snapTick, snapValid, snapWhole, snapGroup, snapTent] ++
  (List.range 8).map groupMask

end FCluster

/-! Table 6.7 (CORE fields), spec/06_tisathe_threads.md. -/
namespace FCore

def state : Fld := Fld.mk 0 2 .ro 0 0 none 0
def retireCause : Fld := Fld.mk 2 3 .ro 0 0 none 0
def trapVector : Fld := Fld.mk 16 16 .rw 0 0 none 2
def watchdog : Fld := Fld.mk 32 32 .rw 1048576 4096 none 0
def switches : Fld := Fld.mk 64 32 .rc 0 0 none 0
def imemCorrected : Fld := Fld.mk 96 32 .rc 0 0 none 0
def dmemCorrected : Fld := Fld.mk 128 32 .rc 0 0 none 0
def all : List Fld :=
  [state, retireCause, trapVector, watchdog, switches, imemCorrected, dmemCorrected]

end FCore

/-! Table 6.8 (THREAD fields), spec/06_tisathe_threads.md. -/
namespace FThread

def state : Fld := Fld.mk 0 3 .ro 0 0 none 0
def blockReason : Fld := Fld.mk 3 3 .ro 0 0 none 0
def inTrap : Fld := Fld.mk 6 1 .ro 0 0 none 0
def trapCause : Fld := Fld.mk 8 8 .ro 0 0 none 0
def trapPc : Fld := Fld.mk 16 16 .ro 0 0 none 0
def trapInsn : Fld := Fld.mk 32 32 .ro 0 0 none 0
def trapAddr : Fld := Fld.mk 64 32 .ro 0 0 none 0
def itemQueue : Fld := Fld.mk 96 20 .ro 0 0 none 0
def itemHeld : Fld := Fld.mk 116 1 .ro 0 0 none 0
def stackLo : Fld := Fld.mk 128 17 .rw 0 0 none 0
def stackHi : Fld := Fld.mk 160 17 .rw 122879 0 none 0
def chanPeer (k : Nat) : Fld := Fld.mk (192 + 16 * k) 10 .rw 0 0 none 0
def chanPeerEp (k : Nat) : Fld := Fld.mk (202 + 16 * k) 3 .rw 0 0 none 0
def chanDelivery (k : Nat) : Fld := Fld.mk (205 + 16 * k) 1 .rw 0 0 none 0
def chanValid (k : Nat) : Fld := Fld.mk (207 + 16 * k) 1 .rw 0 0 none 0
def snapEpMask : Fld := Fld.mk 320 16 .ro 0 0 none 0
def snapReason : Fld := Fld.mk 336 3 .ro 0 0 none 0
def tickMissed : Fld := Fld.mk 352 32 .rc 0 0 none 0
def traps : Fld := Fld.mk 384 32 .rc 0 0 none 0
def doubleTraps : Fld := Fld.mk 416 32 .rc 0 0 none 0
def chanStranded : Fld := Fld.mk 448 32 .rc 0 0 none 0
def all : List Fld :=
  [state, blockReason, inTrap, trapCause, trapPc, trapInsn, trapAddr, itemQueue, itemHeld, stackLo, stackHi] ++
  (List.range 8).map chanPeer ++
  (List.range 8).map chanPeerEp ++
  (List.range 8).map chanDelivery ++
  (List.range 8).map chanValid ++
  [snapEpMask, snapReason, tickMissed, traps, doubleTraps, chanStranded]

end FThread

/-! Table 6.10 (DEBUG thread fields), spec/06_tisathe_threads.md. -/
namespace FDebug

def halt : Fld := Fld.mk 0 1 .wo 0 0 none 0
def resume : Fld := Fld.mk 1 1 .wo 0 0 none 0
def step : Fld := Fld.mk 2 1 .wo 0 0 none 0
def reset : Fld := Fld.mk 3 1 .wo 0 0 none 0
def breakHalt : Fld := Fld.mk 4 1 .rw 0 0 none 0
def halted : Fld := Fld.mk 5 1 .ro 0 0 none 0
def regSel : Fld := Fld.mk 8 8 .rw 0 0 (some 33) 0
def regData : Fld := Fld.mk 32 32 .rw 0 0 none 0
def all : List Fld :=
  [halt, resume, step, reset, breakHalt, halted, regSel, regData]

end FDebug

/-! Table 6.11 (DEBUG breakpoint fields, word k = 0–3), spec/06_tisathe_threads.md. -/
namespace FBreak

def bpAddr (k : Nat) : Fld := Fld.mk (0 + 32 * k) 16 .rw 0 0 none 2
def bpThreads (k : Nat) : Fld := Fld.mk (16 + 32 * k) 8 .rw 0 0 none 0
def bpEn (k : Nat) : Fld := Fld.mk (24 + 32 * k) 1 .rw 0 0 none 0
def all : List Fld :=
  (List.range 4).map bpAddr ++
  (List.range 4).map bpThreads ++
  (List.range 4).map bpEn

end FBreak

/-! Table 8.17 (RUNNEL fields), spec/08_runnel.md. -/
namespace FRunnel

def bound : Fld := Fld.mk 0 1 .ro 0 0 none 0
def owner : Fld := Fld.mk 1 10 .ro 0 0 none 0
def binds : Fld := Fld.mk 32 32 .rc 0 0 none 0
def bindWaits : Fld := Fld.mk 64 32 .rc 0 0 none 0
def squashed : Fld := Fld.mk 96 32 .rc 0 0 none 0
def all : List Fld :=
  [bound, owner, binds, bindWaits, squashed]

end FRunnel

/-! Table 9.5 (OUTFALL device and tent fields), spec/09_outfall.md. -/
namespace FOut

def lastCore : Fld := Fld.mk 0 8 .ro 0 0 none 0
def lastWasCluster : Fld := Fld.mk 8 1 .ro 0 0 none 0
def lastRerun : Fld := Fld.mk 16 16 .ro 0 0 none 0
def coresRetired : Fld := Fld.mk 32 8 .ro 0 0 none 0
def clustersRetired : Fld := Fld.mk 40 5 .ro 0 0 none 0
def released : Fld := Fld.mk 64 64 .rc 0 0 none 0
def reruns : Fld := Fld.mk 128 32 .rc 0 0 none 0
def entryRejected : Fld := Fld.mk 160 32 .rc 0 0 none 0
def storeWaits : Fld := Fld.mk 192 32 .rc 0 0 none 0
def excWaits : Fld := Fld.mk 224 32 .rc 0 0 none 0
def logUsed : Fld := Fld.mk 256 32 .ro 0 0 none 0
def logShare : Fld := Fld.mk 288 32 .ro 262144 0 none 0
def excUsed : Fld := Fld.mk 320 32 .ro 0 0 none 0
def excShare : Fld := Fld.mk 352 32 .ro 65536 0 none 0
def divertProgram : Fld := Fld.mk 384 32 .rc 0 0 none 0
def ctrBase : Fld := Fld.mk 416 64 .rw 0 0 none 3
def ctrCount : Fld := Fld.mk 480 24 .rw 0 0 none 0
def all : List Fld :=
  [lastCore, lastWasCluster, lastRerun, coresRetired, clustersRetired, released, reruns, entryRejected, storeWaits, excWaits, logUsed, logShare] ++
  [excUsed, excShare, divertProgram, ctrBase, ctrCount]

end FOut

/-! Table 9.6 (OUTFALL furrow fields), spec/09_outfall.md. -/
namespace FOutFur

def relSeq : Fld := Fld.mk 0 32 .ro 0 0 none 0
def waiting : Fld := Fld.mk 32 12 .ro 0 0 none 0
def maxWaiting : Fld := Fld.mk 64 12 .rc 0 0 none 0
def released : Fld := Fld.mk 96 64 .rc 0 0 none 0
def diverted : Fld := Fld.mk 160 32 .rc 0 0 none 0
def all : List Fld :=
  [relSeq, waiting, maxWaiting, released, diverted]

end FOutFur

end Sys2Proof.Machine
end

