-- ==== Sys2Proof/Machine/FieldsB.lean ====
section
/-! DEFINITION. The field maps of the object classes of chapters 10 to 18, one constant per field:
lowest bit, width, access code, reset value, stated range (least, greatest) and the number of low bits that must be 0
(Table 0.4 and the tables named below). Reset values that depend on the instance are in Machine/Layout.lean. -/

namespace Sys2Proof.Machine

/-! Table 10.11 (TABLE fields), spec/10_tables.md. -/
namespace FTable

def enable : Fld := Fld.mk 0 1 .rw 0 0 none 0
def clearing : Fld := Fld.mk 1 1 .ro 0 0 none 0
def kind : Fld := Fld.mk 2 3 .rw 0 0 (some 4) 0
def portEn : Fld := Fld.mk 5 1 .rw 0 0 none 0
def portLsb : Fld := Fld.mk 6 6 .rw 0 0 (some 57) 0
def tent : Fld := Fld.mk 12 6 .rw 0 0 none 0
def sizeLog2 : Fld := Fld.mk 18 5 .rw 2 0 none 0
def seed0 : Fld := Fld.mk 32 32 .rw 4294967295 0 none 0
def seed1 : Fld := Fld.mk 64 32 .rw 517762881 0 none 0
def base : Fld := Fld.mk 96 64 .rw 0 0 none 0
def shadowEn : Fld := Fld.mk 160 1 .rw 0 0 none 0
def shadowRate : Fld := Fld.mk 161 15 .rw 16 1 (some 32767) 0
def shadowBase : Fld := Fld.mk 192 64 .rw 0 0 none 2
def entries : Fld := Fld.mk 256 32 .ro 0 0 none 0
def moves : Fld := Fld.mk 288 32 .ro 0 0 none 0
def insertFails : Fld := Fld.mk 320 32 .rc 0 0 none 0
def corrected : Fld := Fld.mk 352 32 .rc 0 0 none 0
def uncorrectable : Fld := Fld.mk 384 32 .rc 0 0 none 0
def lastEccLine : Fld := Fld.mk 416 32 .ro 0 0 none 0
def mismatches : Fld := Fld.mk 448 32 .rc 0 0 none 0
def lastMismatch : Fld := Fld.mk 480 32 .ro 0 0 none 0
def shadowPasses : Fld := Fld.mk 512 32 .rc 0 0 none 0
def cmdBlock : Fld := Fld.mk 544 256 .rw 0 0 none 0
def cmdReply : Fld := Fld.mk 800 32 .ro 0 0 none 0
def cmdIssue : Fld := Fld.mk 832 1 .wo 0 0 none 0
def cmdBusy : Fld := Fld.mk 833 1 .ro 0 0 none 0
def cmdData : Fld := Fld.mk 864 64 .ro 0 0 none 0
def all : List Fld :=
  [enable, clearing, kind, portEn, portLsb, tent, sizeLog2, seed0, seed1, base, shadowEn, shadowRate] ++
  [shadowBase, entries, moves, insertFails, corrected, uncorrectable, lastEccLine, mismatches, lastMismatch, shadowPasses, cmdBlock, cmdReply] ++
  [cmdIssue, cmdBusy, cmdData]

end FTable

/-! Table 10.12 (LEARN[0] fields), spec/10_tables.md. -/
namespace FLearn

def window : Fld := Fld.mk 0 16 .rw 2 0 none 0
def ageEn : Fld := Fld.mk 16 1 .rw 0 0 none 0
def ageUnits : Fld := Fld.mk 32 23 .rw 375000 1 (some 8388607) 0
def ageRate : Fld := Fld.mk 64 16 .rw 1024 1 (some 65535) 0
def new : Fld := Fld.mk 96 32 .rc 0 0 none 0
def refreshed : Fld := Fld.mk 128 32 .rc 0 0 none 0
def moved : Fld := Fld.mk 160 32 .rc 0 0 none 0
def contested : Fld := Fld.mk 192 32 .rc 0 0 none 0
def limited : Fld := Fld.mk 224 32 .rc 0 0 none 0
def staticKept : Fld := Fld.mk 256 32 .rc 0 0 none 0
def aged : Fld := Fld.mk 288 32 .rc 0 0 none 0
def lastContestKey : Fld := Fld.mk 320 64 .ro 0 0 none 0
def lastContestHeld : Fld := Fld.mk 384 7 .ro 0 0 none 0
def lastContestFrom : Fld := Fld.mk 392 7 .ro 0 0 none 0
def lastContestTick : Fld := Fld.mk 416 32 .ro 0 0 none 0
def all : List Fld :=
  [window, ageEn, ageUnits, ageRate, new, refreshed, moved, contested, limited, staticKept, aged, lastContestKey] ++
  [lastContestHeld, lastContestFrom, lastContestTick]

end FLearn

/-! Table 10.13 (LEARN port fields, instance 1 + p), spec/10_tables.md. -/
namespace FLearnPort

def limit : Fld := Fld.mk 0 21 .rw 1048576 0 (some 1048576) 0
def excess : Fld := Fld.mk 21 1 .rw 0 0 none 0
def count : Fld := Fld.mk 32 21 .rw 0 0 none 0
def contested : Fld := Fld.mk 64 32 .rc 0 0 none 0
def limited : Fld := Fld.mk 96 32 .rc 0 0 none 0
def all : List Fld :=
  [limit, excess, count, contested, limited]

end FLearnPort

/-! Table 10.14 (PREFIX fields), spec/10_tables.md. -/
namespace FPrefix

def enable : Fld := Fld.mk 0 1 .rw 0 0 none 0
def clearing : Fld := Fld.mk 1 1 .ro 0 0 none 0
def family : Fld := Fld.mk 2 1 .rw 0 0 none 0
def tent : Fld := Fld.mk 3 6 .rw 0 0 none 0
def sizeLog2 : Fld := Fld.mk 9 5 .rw 2 2 (some 21) 0
def seed0 : Fld := Fld.mk 32 32 .rw 4294967295 0 none 0
def seed1 : Fld := Fld.mk 64 32 .rw 517762881 0 none 0
def filterBase : Fld := Fld.mk 96 21 .rw 0 0 none 0
def base : Fld := Fld.mk 128 21 .rw 0 0 none 2
def countBase : Fld := Fld.mk 160 64 .rw 0 0 none 5
def prefixes : Fld := Fld.mk 224 32 .ro 0 0 none 0
def lengthFull : Fld := Fld.mk 256 32 .rc 0 0 none 0
def insertFails : Fld := Fld.mk 288 32 .rc 0 0 none 0
def all : List Fld :=
  [enable, clearing, family, tent, sizeLog2, seed0, seed1, filterBase, base, countBase, prefixes, lengthFull] ++
  [insertFails]

end FPrefix

/-! Table 11.1 (Basin slot), spec/11_basin.md. -/
namespace FSlot

def value : Fld := Fld.mk 0 10 .ro 0 0 none 0
def quality : Fld := Fld.mk 10 6 .ro 48 0 none 0
def tick : Fld := Fld.mk 16 32 .ro 0 0 none 0
def subTick : Fld := Fld.mk 48 16 .ro 0 0 none 0
def filter : Fld := Fld.mk 64 32 .ro 0 0 none 0
def ref : Fld := Fld.mk 96 10 .ro 0 0 none 0
def valid : Fld := Fld.mk 106 1 .ro 0 0 none 0
def forced : Fld := Fld.mk 107 1 .ro 0 0 none 0
def hi : Fld := Fld.mk 108 1 .ro 0 0 none 0
def lo : Fld := Fld.mk 109 1 .ro 0 0 none 0
def stale : Fld := Fld.mk 110 1 .ro 0 0 none 0
def pending : Fld := Fld.mk 111 1 .ro 0 0 none 0
def cfgIndex : Fld := Fld.mk 112 16 .rw 0 0 none 0
def all : List Fld :=
  [value, quality, tick, subTick, filter, ref, valid, forced, hi, lo, stale, pending] ++
  [cfgIndex]

end FSlot

/-! Table 11.9 (BASIN[0] fields), spec/11_basin.md. -/
namespace FBasin

def queueDepth : Fld := Fld.mk 0 32 .ro 0 0 none 0
def queueHigh : Fld := Fld.mk 32 32 .rc 0 0 none 0
def spilled : Fld := Fld.mk 64 32 .ro 0 0 none 0
def cutLag : Fld := Fld.mk 96 32 .ro 0 0 none 0
def applied : Fld := Fld.mk 128 64 .rc 0 0 none 0
def superseded : Fld := Fld.mk 192 32 .rc 0 0 none 0
def forcedIgnored : Fld := Fld.mk 224 32 .rc 0 0 none 0
def batomRefused : Fld := Fld.mk 256 32 .rc 0 0 none 0
def cfgBad : Fld := Fld.mk 288 32 .rc 0 0 none 0
def snapFrames : Fld := Fld.mk 320 32 .rc 0 0 none 0
def snapOverrun : Fld := Fld.mk 352 32 .rc 0 0 none 0
def gridExtended : Fld := Fld.mk 384 32 .rc 0 0 none 0
def spillBase : Fld := Fld.mk 416 64 .rw 0 0 none 6
def spillMib : Fld := Fld.mk 480 16 .rw 0 0 none 0
def all : List Fld :=
  [queueDepth, queueHigh, spilled, cutLag, applied, superseded, forcedIgnored, batomRefused, cfgBad, snapFrames, snapOverrun, gridExtended] ++
  [spillBase, spillMib]

end FBasin

/-! Table 11.10 (BASIN tent fields), spec/11_basin.md. -/
namespace FBasinTent

def cfgBase : Fld := Fld.mk 0 64 .rw 0 0 none 5
def cfgCount : Fld := Fld.mk 64 17 .rw 0 0 (some 65536) 0
def mapBase : Fld := Fld.mk 128 64 .rw 0 0 none 4
def mapCount : Fld := Fld.mk 192 16 .rw 0 0 none 0
def all : List Fld :=
  [cfgBase, cfgCount, mapBase, mapCount]

end FBasinTent

/-! Table 11.11 (BASIN ring fields), spec/11_basin.md. -/
namespace FRing

def base : Fld := Fld.mk 0 64 .rw 0 0 none 4
def lenLog2 : Fld := Fld.mk 64 5 .rw 4 4 (some 24) 0
def enable : Fld := Fld.mk 69 1 .rw 0 0 none 0
def writeIndex : Fld := Fld.mk 96 32 .ro 0 0 none 0
def all : List Fld :=
  [base, lenLog2, enable, writeIndex]

end FRing

/-! Table 11.12 (BASIN list fields), spec/11_basin.md. -/
namespace FList

def enable : Fld := Fld.mk 0 1 .rw 0 0 none 0
def period : Fld := Fld.mk 16 16 .rw 1 1 (some 65535) 0
def phase : Fld := Fld.mk 32 16 .rw 0 0 none 0
def groupMask : Fld := Fld.mk 48 16 .rw 65535 0 none 0
def firstSlot : Fld := Fld.mk 64 20 .rw 0 0 none 0
def span : Fld := Fld.mk 96 17 .rw 1 1 (some 65536) 0
def port : Fld := Fld.mk 128 7 .rw 0 0 none 0
def cls : Fld := Fld.mk 136 3 .rw 0 0 none 0
def furrow : Fld := Fld.mk 144 16 .rw 0 0 none 0
def segRecords : Fld := Fld.mk 160 11 .rw 180 1 (some 2040) 0
def templateLen : Fld := Fld.mk 176 5 .rw 14 0 none 0
def template : Fld := Fld.mk 192 176 .rw 0 0 none 0
def emitted : Fld := Fld.mk 368 32 .rc 0 0 none 0
def overrun : Fld := Fld.mk 400 32 .rc 0 0 none 0
def lastTick : Fld := Fld.mk 432 32 .ro 0 0 none 0
def all : List Fld :=
  [enable, period, phase, groupMask, firstSlot, span, port, cls, furrow, segRecords, templateLen, template] ++
  [emitted, overrun, lastTick]

end FList

/-! Table 11.13 (BASIN slot fields above bit 127), spec/11_basin.md. -/
namespace FForce

def forceValue : Fld := Fld.mk 128 10 .rw 0 0 none 0
def forceQuality : Fld := Fld.mk 138 6 .rw 0 0 (some 47) 0
def force : Fld := Fld.mk 144 1 .wo 0 0 none 0
def unforce : Fld := Fld.mk 145 1 .wo 0 0 none 0
def all : List Fld :=
  [forceValue, forceQuality, force, unforce]

end FForce

/-! Table 12.8 (POOL pool fields), spec/12_buffers_onchip_memory.md. -/
namespace FPool

def poolNum : Fld := Fld.mk 0 3 .ro 0 0 none 0
def sizeLog2 : Fld := Fld.mk 3 5 .ro 0 0 none 0
def refcounted : Fld := Fld.mk 8 1 .ro 0 0 none 0
def lwReset : Fld := Fld.mk 9 1 .wo 0 0 none 0
def onchipCount : Fld := Fld.mk 32 32 .rw 0 0 none 0
def dramCount : Fld := Fld.mk 64 32 .rw 0 0 none 0
def freeOnchip : Fld := Fld.mk 96 32 .ro 0 0 none 0
def freeDram : Fld := Fld.mk 128 32 .ro 0 0 none 0
def lowWater : Fld := Fld.mk 160 32 .ro 0 0 none 0
def allocFails : Fld := Fld.mk 192 32 .rc 0 0 none 0
def notOwner : Fld := Fld.mk 224 32 .rc 0 0 none 0
def doubleFree : Fld := Fld.mk 256 32 .rc 0 0 none 0
def handoffRefused : Fld := Fld.mk 288 32 .rc 0 0 none 0
def refSaturated : Fld := Fld.mk 320 32 .rc 0 0 none 0
def poisoned : Fld := Fld.mk 352 32 .rc 0 0 none 0
def all : List Fld :=
  [poolNum, sizeLog2, refcounted, lwReset, onchipCount, dramCount, freeOnchip, freeDram, lowWater, allocFails, notOwner, doubleFree] ++
  [handoffRefused, refSaturated, poisoned]

end FPool

/-! Table 12.9 (POOL device fields), spec/12_buffers_onchip_memory.md. -/
namespace FPoolDev

def overflowEn : Fld := Fld.mk 0 1 .rw 0 0 none 0
def overflowBase : Fld := Fld.mk 32 64 .rw 0 0 none 16
def overflowLimitMib : Fld := Fld.mk 96 32 .rw 1024 0 (some 65536) 0
def freeOnchipKib : Fld := Fld.mk 128 32 .ro 40704 0 none 0
def rxQuotaKib : Fld := Fld.mk 160 32 .rw 4096 0 none 0
def bivQuotaKib : Fld := Fld.mk 192 32 .rw 1024 0 none 0
def rxUsedKib : Fld := Fld.mk 224 32 .ro 0 0 none 0
def bivUsedKib : Fld := Fld.mk 256 32 .ro 0 0 none 0
def rxNoBuffer : Fld := Fld.mk 288 32 .rc 0 0 none 0
def editNoBuffer : Fld := Fld.mk 320 32 .rc 0 0 none 0
def capacityKib : Fld := Fld.mk 352 32 .ro 40704 0 none 0
def all : List Fld :=
  [overflowEn, overflowBase, overflowLimitMib, freeOnchipKib, rxQuotaKib, bivQuotaKib, rxUsedKib, bivUsedKib, rxNoBuffer, editNoBuffer, capacityKib]

end FPoolDev

/-! Table 12.10 (POOL tent fields), spec/12_buffers_onchip_memory.md. -/
namespace FPoolTent

def hostShare : Fld := Fld.mk 0 17 .rw 0 0 (some 65536) 0
def quotaKib : Fld := Fld.mk 32 32 .ro 0 0 none 0
def frameQuotaKib : Fld := Fld.mk 64 32 .ro 0 0 none 0
def hostQuotaKib : Fld := Fld.mk 96 32 .ro 0 0 none 0
def frameUsedKib : Fld := Fld.mk 128 32 .ro 0 0 none 0
def hostUsedKib : Fld := Fld.mk 160 32 .ro 0 0 none 0
def hostRefused : Fld := Fld.mk 192 32 .rc 0 0 none 0
def forcedOver : Fld := Fld.mk 224 32 .rc 0 0 none 0
def all : List Fld :=
  [hostShare, quotaKib, frameQuotaKib, hostQuotaKib, frameUsedKib, hostUsedKib, hostRefused, forcedOver]

end FPoolTent

/-! Table 12.11 (MEMREGION memory fields), spec/12_buffers_onchip_memory.md. -/
namespace FMem

def corrected : Fld := Fld.mk 0 32 .rc 0 0 none 0
def uncorrectable : Fld := Fld.mk 32 32 .rc 0 0 none 0
def lastErrAddr : Fld := Fld.mk 64 64 .ro 0 0 none 0
def spares : Fld := Fld.mk 128 16 .ro 0 0 none 0
def sparesUsed : Fld := Fld.mk 144 16 .ro 0 0 none 0
def bgEn : Fld := Fld.mk 160 1 .rw 1 0 none 0
def bgInterval : Fld := Fld.mk 168 16 .rw 1 1 (some 65535) 0
def bgRegion : Fld := Fld.mk 192 32 .ro 0 0 none 0
def bgPasses : Fld := Fld.mk 224 32 .rc 0 0 none 0
def bgFaults : Fld := Fld.mk 256 32 .rc 0 0 none 0
def bgShadowHeld : Fld := Fld.mk 288 1 .ro 0 0 none 0
def all : List Fld :=
  [corrected, uncorrectable, lastErrAddr, spares, sparesUsed, bgEn, bgInterval, bgRegion, bgPasses, bgFaults, bgShadowHeld]

end FMem

/-! Table 12.12 (MEMREGION region fields), spec/12_buffers_onchip_memory.md. -/
namespace FRegion

def en : Fld := Fld.mk 0 1 .rw 0 0 none 0
def r : Fld := Fld.mk 1 1 .rw 0 0 none 0
def w : Fld := Fld.mk 2 1 .rw 0 0 none 0
def space : Fld := Fld.mk 3 1 .rw 0 0 none 0
def base : Fld := Fld.mk 32 64 .rw 0 0 none 6
def top : Fld := Fld.mk 96 64 .rw 0 0 none 6
def all : List Fld :=
  [en, r, w, space, base, top]

end FRegion

/-! Table 13.5 (DRAM[0] fields), spec/13_dram.md. -/
namespace FDram

def channels : Fld := Fld.mk 0 4 .ro 0 0 none 0
def speedMax : Fld := Fld.mk 8 2 .rw 2 0 (some 2) 0
def speed : Fld := Fld.mk 10 2 .ro 0 0 none 0
def density : Fld := Fld.mk 12 2 .ro 0 0 none 0
def ranksM1 : Fld := Fld.mk 14 1 .ro 0 0 none 0
def capacityMib : Fld := Fld.mk 32 32 .ro 0 0 none 0
def drainTicks : Fld := Fld.mk 64 8 .rw 4 1 (some 255) 0
def freezeLost : Fld := Fld.mk 96 32 .ro 0 0 none 0
def scrubHours : Fld := Fld.mk 128 8 .rw 24 0 (some 168) 0
def tableRateWaits : Fld := Fld.mk 160 32 .rc 0 0 none 0
def outOfPop : Fld := Fld.mk 192 32 .rc 0 0 none 0
def all : List Fld :=
  [channels, speedMax, speed, density, ranksM1, capacityMib, drainTicks, freezeLost, scrubHours, tableRateWaits, outOfPop]

end FDram

/-! Table 13.6 (DRAM channel fields), spec/13_dram.md. -/
namespace FChan

def present : Fld := Fld.mk 0 1 .ro 0 0 none 0
def frozen : Fld := Fld.mk 1 1 .ro 0 0 none 0
def thaw : Fld := Fld.mk 2 1 .wo 0 0 none 0
def repair : Fld := Fld.mk 3 1 .rw 0 0 none 0
def frzCause : Fld := Fld.mk 4 3 .ro 0 0 none 0
def frzPort : Fld := Fld.mk 8 4 .ro 0 0 none 0
def frzSubch : Fld := Fld.mk 12 1 .ro 0 0 none 0
def frzRank : Fld := Fld.mk 13 1 .ro 0 0 none 0
def frzBg : Fld := Fld.mk 14 3 .ro 0 0 none 0
def frzBa : Fld := Fld.mk 17 2 .ro 0 0 none 0
def frzCol : Fld := Fld.mk 19 10 .ro 0 0 none 0
def frzRow : Fld := Fld.mk 32 18 .ro 0 0 none 0
def frzAddr : Fld := Fld.mk 64 64 .ro 0 0 none 0
def frzTime : Fld := Fld.mk 128 64 .ro 0 0 none 0
def frzSyndrome : Fld := Fld.mk 192 128 .ro 0 0 none 0
def captureData : Fld := Fld.mk 320 512 .ro 0 0 none 0
def repairData : Fld := Fld.mk 832 512 .rw 0 0 none 0
def corrected : Fld := Fld.mk 1344 32 .rc 0 0 none 0
def uncorrectable : Fld := Fld.mk 1376 32 .rc 0 0 none 0
def freezes : Fld := Fld.mk 1408 32 .rc 0 0 none 0
def caParity : Fld := Fld.mk 1440 32 .rc 0 0 none 0
def wcrcRetries : Fld := Fld.mk 1472 32 .rc 0 0 none 0
def scrubPasses : Fld := Fld.mk 1504 32 .rc 0 0 none 0
def readEyePs : Fld := Fld.mk 1536 16 .ro 0 0 none 0
def writeEyePs : Fld := Fld.mk 1552 16 .ro 0 0 none 0
def all : List Fld :=
  [present, frozen, thaw, repair, frzCause, frzPort, frzSubch, frzRank, frzBg, frzBa, frzCol, frzRow] ++
  [frzAddr, frzTime, frzSyndrome, captureData, repairData, corrected, uncorrectable, freezes, caParity, wcrcRetries, scrubPasses, readEyePs] ++
  [writeEyePs]

end FChan

/-! Table 13.8 (DRAM requester port fields), spec/13_dram.md. -/
namespace FReqPort

def targetNs : Fld := Fld.mk 0 32 .rw 0 100 (some 1000000) 0
def requests : Fld := Fld.mk 32 32 .rc 0 0 none 0
def overdue : Fld := Fld.mk 64 32 .rc 0 0 none 0
def maxAgeNs : Fld := Fld.mk 96 32 .rc 0 0 none 0
def all : List Fld :=
  [targetNs, requests, overdue, maxAgeNs]

end FReqPort

/-! Table 14.5 (LOCK lock fields), spec/14_locks_interrupts.md. -/
namespace FLock

def held : Fld := Fld.mk 0 1 .ro 0 0 none 0
def abandoned : Fld := Fld.mk 1 1 .w1c 0 0 none 0
def holderKind : Fld := Fld.mk 2 3 .ro 0 0 none 0
def boost : Fld := Fld.mk 5 3 .ro 0 0 none 0
def holder : Fld := Fld.mk 32 32 .ro 0 0 none 0
def holderSeq : Fld := Fld.mk 64 32 .ro 0 0 none 0
def waiters : Fld := Fld.mk 96 16 .ro 0 0 none 0
def heldSince : Fld := Fld.mk 128 32 .ro 0 0 none 0
def acquires : Fld := Fld.mk 160 32 .rc 0 0 none 0
def contended : Fld := Fld.mk 192 32 .rc 0 0 none 0
def abandonments : Fld := Fld.mk 224 32 .rc 0 0 none 0
def all : List Fld :=
  [held, abandoned, holderKind, boost, holder, holderSeq, waiters, heldSince, acquires, contended, abandonments]

end FLock

/-! Table 14.6 (LOCK semaphore fields), spec/14_locks_interrupts.md. -/
namespace FSem

def count : Fld := Fld.mk 0 16 .ro 1 0 none 0
def maxF : Fld := Fld.mk 16 16 .rw 1 1 (some 65535) 0
def abandoned : Fld := Fld.mk 32 1 .w1c 0 0 none 0
def held : Fld := Fld.mk 48 16 .ro 0 0 none 0
def waiters : Fld := Fld.mk 64 16 .ro 0 0 none 0
def acquires : Fld := Fld.mk 96 32 .rc 0 0 none 0
def contended : Fld := Fld.mk 128 32 .rc 0 0 none 0
def abandonments : Fld := Fld.mk 160 32 .rc 0 0 none 0
def overflows : Fld := Fld.mk 192 32 .rc 0 0 none 0
def all : List Fld :=
  [count, maxF, abandoned, held, waiters, acquires, contended, abandonments, overflows]

end FSem

/-! Table 14.7 (LOCK tent fields), spec/14_locks_interrupts.md. -/
namespace FLockTent

def holdTicks : Fld := Fld.mk 0 16 .rw 0 0 none 0
def notHeld : Fld := Fld.mk 32 32 .rc 0 0 none 0
def regrants : Fld := Fld.mk 64 32 .rc 0 0 none 0
def longHolds : Fld := Fld.mk 96 32 .rc 0 0 none 0
def lastLongLock : Fld := Fld.mk 128 14 .ro 0 0 none 0
def all : List Fld :=
  [holdTicks, notHeld, regrants, longHolds, lastLongLock]

end FLockTent

/-! Table 14.8 (Lock window), spec/14_locks_interrupts.md. -/
namespace FWindow

def reqOp : Fld := Fld.mk 512 3 .rw 0 0 (some 3) 0
def reqPrio : Fld := Fld.mk 515 3 .rw 0 0 none 0
def reqTask : Fld := Fld.mk 518 1 .rw 0 0 none 0
def reqIssue : Fld := Fld.mk 519 1 .wo 0 0 none 0
def reqCancel : Fld := Fld.mk 520 1 .wo 0 0 none 0
def reqBusy : Fld := Fld.mk 521 1 .ro 0 0 none 0
def reqTent : Fld := Fld.mk 522 6 .rw 0 0 none 0
def reqNum : Fld := Fld.mk 528 14 .rw 0 0 none 0
def reqQueue : Fld := Fld.mk 544 20 .rw 0 0 none 0
def reqStatus : Fld := Fld.mk 576 16 .ro 0 0 none 0
def all : List Fld :=
  [reqOp, reqPrio, reqTask, reqIssue, reqCancel, reqBusy, reqTent, reqNum, reqQueue, reqStatus]

end FWindow

/-! Table 14.9 (IRQ source fields), spec/14_locks_interrupts.md. -/
namespace FIrq

def enable : Fld := Fld.mk 0 1 .rw 0 0 none 0
def sense : Fld := Fld.mk 1 1 .ro 0 0 none 0
def pending : Fld := Fld.mk 2 1 .ro 0 0 none 0
def inService : Fld := Fld.mk 3 1 .ro 0 0 none 0
def level : Fld := Fld.mk 4 1 .ro 0 0 none 0
def ring : Fld := Fld.mk 5 1 .wo 0 0 none 0
def complete : Fld := Fld.mk 6 1 .wo 0 0 none 0
def targetKind : Fld := Fld.mk 8 2 .rw 0 0 (some 2) 0
def targetTent : Fld := Fld.mk 10 6 .rw 0 0 none 0
def target : Fld := Fld.mk 32 20 .rw 0 0 none 0
def rings : Fld := Fld.mk 64 16 .ro 0 0 none 0
def lastRings : Fld := Fld.mk 80 16 .ro 0 0 none 0
def deliveries : Fld := Fld.mk 96 32 .rc 0 0 none 0
def badComplete : Fld := Fld.mk 128 32 .rc 0 0 none 0
def all : List Fld :=
  [enable, sense, pending, inService, level, ring, complete, targetKind, targetTent, target, rings, lastRings] ++
  [deliveries, badComplete]

end FIrq

/-! Table 14.10 (IRQ Bivouac core and device fields), spec/14_locks_interrupts.md. -/
namespace FIrqDev

def claimed : Fld := Fld.mk 0 12 .ro 0 0 none 0
def holds : Fld := Fld.mk 12 1 .ro 0 0 none 0
def request : Fld := Fld.mk 13 1 .ro 0 0 none 0
def claims : Fld := Fld.mk 32 32 .rc 0 0 none 0
def repitchCleared : Fld := Fld.mk 64 32 .rc 0 0 none 0
def all : List Fld :=
  [claimed, holds, request, claims, repitchCleared]

end FIrqDev

/-! Table 15.11 (TENT tent fields), spec/15_tents_host.md. -/
namespace FTent

def state : Fld := Fld.mk 0 2 .ro 0 0 none 0
def pitch : Fld := Fld.mk 2 1 .wo 0 0 none 0
def strike : Fld := Fld.mk 3 1 .wo 0 0 none 0
def freeze : Fld := Fld.mk 4 1 .wo 0 0 none 0
def unfreeze : Fld := Fld.mk 5 1 .wo 0 0 none 0
def save : Fld := Fld.mk 6 1 .wo 0 0 none 0
def restore : Fld := Fld.mk 7 1 .wo 0 0 none 0
def hostReset : Fld := Fld.mk 8 1 .wo 0 0 none 0
def opBusy : Fld := Fld.mk 9 1 .ro 0 0 none 0
def saved : Fld := Fld.mk 10 1 .ro 0 0 none 0
def opStatus : Fld := Fld.mk 16 16 .ro 0 0 none 0
def pasid : Fld := Fld.mk 32 20 .rw 0 0 none 0
def pasidEn : Fld := Fld.mk 52 1 .rw 0 0 none 0
def atsEn : Fld := Fld.mk 53 1 .rw 0 0 none 0
def generation : Fld := Fld.mk 64 16 .ro 0 0 none 0
def freezeTicks : Fld := Fld.mk 80 16 .rw 8 1 (some 65535) 0
def blockers : Fld := Fld.mk 96 6 .ro 0 0 none 0
def imageAddr : Fld := Fld.mk 128 64 .rw 0 0 none 12
def imageLimit : Fld := Fld.mk 192 32 .rw 0 0 none 0
def imageBytes : Fld := Fld.mk 224 32 .ro 0 0 none 0
def apertureBase : Fld := Fld.mk 256 64 .rw 0 0 none 12
def genStale : Fld := Fld.mk 320 32 .rc 0 0 none 0
def dmaDenied : Fld := Fld.mk 352 32 .rc 0 0 none 0
def freezeFails : Fld := Fld.mk 384 32 .rc 0 0 none 0
def txNotAccepted : Fld := Fld.mk 416 32 .rc 0 0 none 0
def handedOff : Fld := Fld.mk 448 32 .rc 0 0 none 0
def all : List Fld :=
  [state, pitch, strike, freeze, unfreeze, save, restore, hostReset, opBusy, saved, opStatus, pasid] ++
  [pasidEn, atsEn, generation, freezeTicks, blockers, imageAddr, imageLimit, imageBytes, apertureBase, genStale, dmaDenied, freezeFails] ++
  [txNotAccepted, handedOff]

end FTent

/-! Table 15.12 (TENT device fields), spec/15_tents_host.md. -/
namespace FTents

def n : Fld := Fld.mk 0 7 .ro 1 0 none 0
def nNext : Fld := Fld.mk 8 7 .rw 1 0 none 0
def repitch : Fld := Fld.mk 15 1 .wo 0 0 none 0
def repitchPending : Fld := Fld.mk 16 1 .ro 0 0 none 0
def repitchTick : Fld := Fld.mk 32 32 .ro 0 0 none 0
def repitches : Fld := Fld.mk 64 32 .rc 0 0 none 0
def repitchAbandoned : Fld := Fld.mk 96 32 .rc 0 0 none 0
def all : List Fld :=
  [n, nNext, repitch, repitchPending, repitchTick, repitches, repitchAbandoned]

end FTents

/-! Table 15.13 (TENT ring fields), spec/15_tents_host.md. -/
namespace FHostRing

def kind : Fld := Fld.mk 0 2 .rw 0 0 none 0
def enable : Fld := Fld.mk 2 1 .rw 0 0 none 0
def pool : Fld := Fld.mk 3 3 .rw 0 0 none 0
def lenLog2 : Fld := Fld.mk 8 5 .rw 4 4 (some 16) 0
def cls : Fld := Fld.mk 13 3 .rw 0 0 none 0
def base : Fld := Fld.mk 32 64 .rw 0 0 none 4
def creditQueue : Fld := Fld.mk 96 20 .rw 0 0 none 0
def creditEn : Fld := Fld.mk 116 1 .rw 0 0 none 0
def head : Fld := Fld.mk 128 32 .ro 0 0 none 0
def tail : Fld := Fld.mk 160 32 .ro 0 0 none 0
def doorbellStatus : Fld := Fld.mk 192 16 .ro 0 0 none 0
def doorbellErrors : Fld := Fld.mk 224 32 .rc 0 0 none 0
def entries : Fld := Fld.mk 256 32 .rc 0 0 none 0
def all : List Fld :=
  [kind, enable, pool, lenLog2, cls, base, creditQueue, creditEn, head, tail, doorbellStatus, doorbellErrors] ++
  [entries]

end FHostRing

/-! Table 16.3 (MB_CTRL), spec/16_command_frames.md. -/
namespace FMbox

def go : Fld := Fld.mk 0 1 .wo 0 0 none 0
def busy : Fld := Fld.mk 1 1 .ro 0 0 none 0
def done : Fld := Fld.mk 2 1 .w1c 0 0 none 0
def ready : Fld := Fld.mk 3 1 .ro 0 0 none 0
def mbSource : Fld := Fld.mk 16 12 .rw 0 0 none 0
def mbSourceEn : Fld := Fld.mk 28 1 .rw 0 0 none 0
def all : List Fld :=
  [go, busy, done, ready, mbSource, mbSourceEn]

end FMbox

/-! Table 16.7 (DEVICE[0] fields), spec/16_command_frames.md. -/
namespace FDevice

def part : Fld := Fld.mk 0 16 .ro 5696 0 none 0
def revision : Fld := Fld.mk 16 4 .ro 0 0 none 0
def fwVersion : Fld := Fld.mk 32 32 .ro 0 0 none 0
def serial : Fld := Fld.mk 64 64 .ro 0 0 none 0
def cmdMac : Fld := Fld.mk 128 48 .rw 0 0 none 0
def cmdEthertype : Fld := Fld.mk 176 16 .rw 34998 0 none 0
def cmdUdpPort : Fld := Fld.mk 192 16 .rw 0 0 none 0
def cmdClass : Fld := Fld.mk 208 3 .rw 7 0 none 0
def bivKeyValid : Fld := Fld.mk 211 1 .ro 0 0 none 0
def cmdPorts : Fld := Fld.mk 224 65 .rw 18446744073709551616 0 none 0
def reservedWrites : Fld := Fld.mk 320 32 .rc 0 0 none 0
def cmdPerformed : Fld := Fld.mk 352 32 .rc 0 0 none 0
def cmdDropped : Fld := Fld.mk 384 32 .rc 0 0 none 0
def malformed : Fld := Fld.mk 416 32 .rc 0 0 none 0
def authFails : Fld := Fld.mk 448 32 .rc 0 0 none 0
def replays : Fld := Fld.mk 480 32 .rc 0 0 none 0
def all : List Fld :=
  [part, revision, fwVersion, serial, cmdMac, cmdEthertype, cmdUdpPort, cmdClass, bivKeyValid, cmdPorts, reservedWrites, cmdPerformed] ++
  [cmdDropped, malformed, authFails, replays]

end FDevice

/-! Table 16.8 (DEVICE Bivouac core fields), spec/16_command_frames.md. -/
namespace FBiv

def ie : Fld := Fld.mk 0 1 .rw 0 0 none 0
def ivec : Fld := Fld.mk 16 16 .rw 0 0 none 2
def tvec : Fld := Fld.mk 32 16 .rw 0 0 none 2
def ipc : Fld := Fld.mk 48 16 .ro 0 0 none 0
def dramBase : Fld := Fld.mk 64 64 .rw 0 0 none 16
def wdogUs : Fld := Fld.mk 128 32 .rw 100000 1000 (some 10000000) 0
def kick : Fld := Fld.mk 160 1 .wo 0 0 none 0
def resets : Fld := Fld.mk 192 32 .rc 0 0 none 0
def trapCause : Fld := Fld.mk 224 8 .ro 0 0 none 0
def inTrap : Fld := Fld.mk 232 1 .ro 0 0 none 0
def trapPc : Fld := Fld.mk 256 16 .ro 0 0 none 0
def trapInsn : Fld := Fld.mk 288 32 .ro 0 0 none 0
def trapAddr : Fld := Fld.mk 320 32 .ro 0 0 none 0
def stackLo : Fld := Fld.mk 352 32 .rw 0 0 none 0
def stackHi : Fld := Fld.mk 384 32 .rw 7340031 0 none 0
def all : List Fld :=
  [ie, ivec, tvec, ipc, dramBase, wdogUs, kick, resets, trapCause, inTrap, trapPc, trapInsn] ++
  [trapAddr, stackLo, stackHi]

end FBiv

/-! Table 16.9 (DEVICE key fields), spec/16_command_frames.md. -/
namespace FKey

def valid : Fld := Fld.mk 0 1 .ro 0 0 none 0
def clear : Fld := Fld.mk 1 1 .wo 0 0 none 0
def sender (k : Nat) : Fld := Fld.mk (32 + 32 * k) 32 .rw 0 0 none 0
def senderEn : Fld := Fld.mk 160 4 .rw 0 0 none 0
def seen : Fld := Fld.mk 164 4 .ro 0 0 none 0
def highSeq (k : Nat) : Fld := Fld.mk (192 + 32 * k) 32 .ro 0 0 none 0
def uses : Fld := Fld.mk 320 32 .rc 0 0 none 0
def all : List Fld :=
  [valid, clear] ++
  (List.range 4).map sender ++
  [senderEn, seen] ++
  (List.range 4).map highSeq ++
  [uses]

end FKey

/-! Table 17.6 (CLOCK[0] fields), spec/17_clocks_reset_crossings.md. -/
namespace FClock

def sysLost : Fld := Fld.mk 0 1 .ro 0 0 none 0
def pcieLost : Fld := Fld.mk 1 1 .ro 0 0 none 0
def sysHoldover : Fld := Fld.mk 2 1 .ro 0 0 none 0
def refLost : Fld := Fld.mk 16 16 .ro 0 0 none 0
def refMonitorEn : Fld := Fld.mk 32 16 .rw 65535 0 none 0
def resetCause : Fld := Fld.mk 64 1 .ro 0 0 none 0
def resetLost : Fld := Fld.mk 96 32 .ro 0 0 none 0
def mgmtTimeouts : Fld := Fld.mk 128 32 .rc 0 0 none 0
def sysOffsetPpb : Fld := Fld.mk 160 32 .ro 0 0 none 0
def pcieOffsetPpb : Fld := Fld.mk 192 32 .ro 0 0 none 0
def all : List Fld :=
  [sysLost, pcieLost, sysHoldover, refLost, refMonitorEn, resetCause, resetLost, mgmtTimeouts, sysOffsetPpb, pcieOffsetPpb]

end FClock

/-! Table 17.7 (CLOCK crossing fields), spec/17_clocks_reset_crossings.md. -/
namespace FCross

def ready : Fld := Fld.mk 0 1 .ro 1 0 none 0
def downstream : Fld := Fld.mk 1 1 .ro 0 0 none 0
def resyncs : Fld := Fld.mk 32 32 .rc 0 0 none 0
def lostUpstream : Fld := Fld.mk 64 32 .rc 0 0 none 0
def resent : Fld := Fld.mk 96 32 .rc 0 0 none 0
def stallCycles : Fld := Fld.mk 128 32 .rc 0 0 none 0
def all : List Fld :=
  [ready, downstream, resyncs, lostUpstream, resent, stallCycles]

end FCross

/-! Table 18.9 (SENSOR supply monitor fields), spec/18_modes_power.md. -/
namespace FSupply

def mv : Fld := Fld.mk 0 16 .ro 0 0 none 0
def offsetMv : Fld := Fld.mk 16 16 .rw 0 0 none 0
def lowMv : Fld := Fld.mk 32 16 .rw 0 0 none 0
def highMv : Fld := Fld.mk 48 16 .rw 0 0 none 0
def out : Fld := Fld.mk 64 1 .ro 0 0 none 0
def minMv : Fld := Fld.mk 96 16 .rc 65535 0 none 0
def maxMv : Fld := Fld.mk 112 16 .rc 0 0 none 0
def excursions : Fld := Fld.mk 128 32 .rc 0 0 none 0
def all : List Fld :=
  [mv, offsetMv, lowMv, highMv, out, minMv, maxMv, excursions]

end FSupply

/-! Table 18.10 (SENSOR temperature fields), spec/18_modes_power.md. -/
namespace FTemp

def temp : Fld := Fld.mk 0 16 .ro 0 0 none 0
def offset : Fld := Fld.mk 16 16 .rw 0 0 none 0
def warn : Fld := Fld.mk 32 16 .rw 2000 0 none 0
def crit : Fld := Fld.mk 48 16 .rw 2400 0 none 0
def hot : Fld := Fld.mk 64 1 .ro 0 0 none 0
def warm : Fld := Fld.mk 65 1 .ro 0 0 none 0
def maxF : Fld := Fld.mk 96 16 .rc 32768 0 none 0
def excursions : Fld := Fld.mk 128 32 .rc 0 0 none 0
def all : List Fld :=
  [temp, offset, warn, crit, hot, warm, maxF, excursions]

end FTemp

/-! Table 18.11 (SENSOR host link fields), spec/18_modes_power.md. -/
namespace FHostLink

def pcieWidth : Fld := Fld.mk 0 5 .ro 0 0 none 0
def pcieSpeed : Fld := Fld.mk 5 3 .ro 0 0 none 0
def all : List Fld :=
  [pcieWidth, pcieSpeed]

end FHostLink

/-! Table 18.12 (POWER fields), spec/18_modes_power.md. -/
namespace FPower

def mode : Fld := Fld.mk 0 4 .ro 1 0 none 0
def baseMode : Fld := Fld.mk 4 4 .ro 1 0 none 0
def modeTarget : Fld := Fld.mk 8 4 .ro 0 0 none 0
def surveyOk : Fld := Fld.mk 12 1 .ro 0 0 none 0
def surveyFail : Fld := Fld.mk 13 3 .ro 0 0 none 0
def bootStatus : Fld := Fld.mk 16 2 .ro 0 0 none 0
def bootSlot : Fld := Fld.mk 18 1 .ro 0 0 none 0
def calibSource : Fld := Fld.mk 19 1 .ro 0 0 none 0
def autoRestore : Fld := Fld.mk 20 1 .rw 1 0 none 0
def holdupMeasured : Fld := Fld.mk 21 1 .ro 0 0 none 0
def ckptRestore : Fld := Fld.mk 22 1 .rw 1 0 none 0
def fwReady : Fld := Fld.mk 23 1 .wo 0 0 none 0
def bootMs : Fld := Fld.mk 32 16 .ro 0 0 none 0
def surveyMs : Fld := Fld.mk 48 16 .ro 0 0 none 0
def wakeEn : Fld := Fld.mk 64 5 .rw 0 0 none 0
def wakeCause : Fld := Fld.mk 69 5 .ro 0 0 none 0
def wakeTick : Fld := Fld.mk 96 32 .rw 0 0 none 0
def pfailFilterUs : Fld := Fld.mk 128 16 .rw 20 1 (some 10000) 0
def holdReleaseMs : Fld := Fld.mk 144 16 .rw 100 1 (some 60000) 0
def bankMv : Fld := Fld.mk 160 16 .ro 0 0 none 0
def senseRatio : Fld := Fld.mk 176 16 .rw 10000 0 none 0
def bankMinMv : Fld := Fld.mk 192 16 .rw 0 0 none 0
def measLoMv : Fld := Fld.mk 208 16 .rw 2000 0 none 0
def measHiMv : Fld := Fld.mk 224 16 .rw 4000 0 none 0
def chargeMa : Fld := Fld.mk 240 16 .rw 0 0 none 0
def bankCapUf : Fld := Fld.mk 256 32 .rw 0 0 none 0
def holdLoadMw : Fld := Fld.mk 288 32 .rw 0 0 none 0
def energyMj : Fld := Fld.mk 320 32 .ro 0 0 none 0
def ckptMs : Fld := Fld.mk 352 16 .rw 1000 0 none 0
def ckptDone : Fld := Fld.mk 384 32 .rc 0 0 none 0
def ckptDeferred : Fld := Fld.mk 416 32 .rc 0 0 none 0
def holds : Fld := Fld.mk 448 32 .rc 0 0 none 0
def modeChanges : Fld := Fld.mk 480 32 .rc 0 0 none 0
def configRejected : Fld := Fld.mk 512 32 .rc 0 0 none 0
def fwRollbacks : Fld := Fld.mk 544 32 .rc 0 0 none 0
def all : List Fld :=
  [mode, baseMode, modeTarget, surveyOk, surveyFail, bootStatus, bootSlot, calibSource, autoRestore, holdupMeasured, ckptRestore, fwReady] ++
  [bootMs, surveyMs, wakeEn, wakeCause, wakeTick, pfailFilterUs, holdReleaseMs, bankMv, senseRatio, bankMinMv, measLoMv, measHiMv] ++
  [chargeMa, bankCapUf, holdLoadMw, energyMj, ckptMs, ckptDone, ckptDeferred, holds, modeChanges, configRejected, fwRollbacks]

end FPower

/-! Table 18.13 (STORE area and checkpoint fields), spec/18_modes_power.md. -/
namespace FStore

def valid : Fld := Fld.mk 0 2 .ro 0 0 none 0
def current : Fld := Fld.mk 2 1 .ro 0 0 none 0
def empty : Fld := Fld.mk 3 1 .ro 0 0 none 0
def writing : Fld := Fld.mk 4 1 .ro 0 0 none 0
def seq : Fld := Fld.mk 32 32 .ro 0 0 none 0
def bytes : Fld := Fld.mk 64 32 .ro 0 0 none 0
def lastStatus : Fld := Fld.mk 96 16 .ro 0 0 none 0
def writes : Fld := Fld.mk 128 32 .rc 0 0 none 0
def deferred : Fld := Fld.mk 160 32 .rc 0 0 none 0
def needMj : Fld := Fld.mk 192 32 .ro 0 0 none 0
def all : List Fld :=
  [valid, current, empty, writing, seq, bytes, lastStatus, writes, deferred, needMj]

end FStore

/-! Table 18.14 (STORE flash fields), spec/18_modes_power.md. -/
namespace FFlash

def flashMbit : Fld := Fld.mk 0 16 .ro 0 0 none 0
def busy : Fld := Fld.mk 16 1 .ro 0 0 none 0
def progUs : Fld := Fld.mk 32 16 .rw 120 1 (some 10000) 0
def all : List Fld :=
  [flashMbit, busy, progUs]

end FFlash

end Sys2Proof.Machine
end

