-- ==== Sys2Proof/Machine/Layout.lean ====
section
/-! DEFINITION. The object classes: their numbers (Table 0.3), their instances, the fields of each instance and the
reset values that depend on the instance. -/

namespace Sys2Proof.Machine

def clsDevice : Nat := 1
def clsTick : Nat := 2
def clsPort : Nat := 3
def clsIntake : Nat := 4
def clsStage : Nat := 5
def clsHeadgate : Nat := 6
def clsQueue : Nat := 7
def clsFurrow : Nat := 8
def clsCluster : Nat := 9
def clsCore : Nat := 10
def clsThread : Nat := 11
def clsRunnel : Nat := 12
def clsOutfall : Nat := 13
def clsTable : Nat := 14
def clsLearn : Nat := 15
def clsPrefix : Nat := 16
def clsBasin : Nat := 17
def clsPool : Nat := 18
def clsMemregion : Nat := 19
def clsDram : Nat := 20
def clsLock : Nat := 21
def clsIrq : Nat := 22
def clsTent : Nat := 23
def clsEgress : Nat := 24
def clsRedund : Nat := 25
def clsClock : Nat := 26
def clsSensor : Nat := 27
def clsPower : Nat := 28
def clsStore : Nat := 29
def clsDebug : Nat := 30

/-! Fields whose place depends on a number that the field maps leave to a rule. -/

/-- Gate list entries (Table 3.7, R86): administrative entry n at word 0x100 + n, operating entry n at 0x200 + n. -/
def gateGates (oper : Bool) (n : Nat) : Fld :=
  Fld.mk (32 * ((if oper then 0x200 else 0x100) + n)) 8 (if oper then .ro else .rw) 0xFF 0 none 0
def gateDuration (oper : Bool) (n : Nat) : Fld :=
  Fld.mk (32 * ((if oper then 0x200 else 0x100) + n) + 8) 24 (if oper then .ro else .rw) 0xFFFFFF 1 none 0

/-- Segment descriptors (Table 4.13) at bit `b`. -/
def segSrc (b : Nat) : Fld := Fld.mk b 2 .rw 0 0 none 0
def segOccur (b : Nat) : Fld := Fld.mk (b + 4) 4 .rw 0 0 none 0
def segHtype (b : Nat) : Fld := Fld.mk (b + 8) 8 .rw 0 0 none 0
def segOffset (b : Nat) : Fld := Fld.mk (b + 16) 8 .rw 0 0 none 0
def segLength (b : Nat) : Fld := Fld.mk (b + 24) 5 .rw 0 0 (some 16) 0
def segFields (b : Nat) : List Fld := [segSrc b, segOccur b, segHtype b, segOffset b, segLength b]

/-- SEG_k of a stage lies at bit 32 + 32k, of a hash profile at 32k. -/
def stageSegBit (k : Nat) : Nat := 32 + 32 * k
def hashSegBit (k : Nat) : Nat := 32 * k
/-- The seed of a hash profile (Table 4.13). -/
def hashSeed : Fld := Fld.mk 256 32 .rw 0xFFFFFFFF 0 none 0
/-- ACTION_j of an action set (Table 4.8). -/
def actionWord (j : Nat) : Fld := Fld.mk (64 * j) 64 .rw 0 0 none 0
/-- CORE.ENTRY_p (R172). -/
def coreEntry (p : Nat) : Fld := Fld.mk (32 * (0x100 + p)) 16 .rw 0 0 none 2
/-- POOL[0x100].RX_FLOOR of port p (R332). -/
def rxFloor (p : Nat) : Fld := Fld.mk (32 * (0x10 + p)) 3 .rw 0 0 none 0
/-- The offset of REFCLK_g (R440). -/
def refOffset (g : Nat) : Fld := Fld.mk (32 * (0x10 + g)) 32 .ro 0 0 none 0
/-- History entry j of a DRAM channel (R350). -/
def dramHistory (j : Nat) : Fld := Fld.mk (32 * (0x100 + 2 * j)) 64 .ro 0 0 none 0
/-- A word of a Runnel context image (R233), `k` from 0. -/
def runnelImage (k : Nat) : Fld := Fld.mk (32 * (0x100 + k)) 32 .ro 0 0 none 0

/-- How many of the fields that a word may hold stand at word `off` of an instance beyond its field map. -/
def extraFields (cls inst off : Nat) : List Fld :=
  if cls = clsEgress then
    if 0x100 ≤ off ∧ off < 0x200 then [gateGates false (off - 0x100), gateDuration false (off - 0x100)]
    else if 0x200 ≤ off ∧ off < 0x300 then [gateGates true (off - 0x200), gateDuration true (off - 0x200)]
    else []
  else if cls = clsCore then if 0x100 ≤ off ∧ off < 0x200 then [coreEntry (off - 0x100)] else []
  else if cls = clsPool ∧ inst = 0x100 then if 0x10 ≤ off ∧ off < 0x54 then [rxFloor (off - 0x10)] else []
  else if cls = clsClock ∧ inst = 0 then if 0x10 ≤ off ∧ off < 0x20 then [refOffset (off - 0x10)] else []
  else if cls = clsDram ∧ 1 ≤ inst ∧ inst ≤ 8 then
    if 0x100 ≤ off ∧ off < 0x120 then [dramHistory ((off - 0x100) / 2)] else []
  else if cls = clsRunnel then if 0x100 ≤ off ∧ off < 0x360 then [runnelImage (off - 0x100)] else []
  else []

/-- Whether instance `inst` of a class exists at N = 2^nLog tents (R7, R9, R53, R85, R112, R138, R171, R232, R255,
R285, R304, R329, R349, R371, R396, R424, R440, R461). -/
def instExists (nLog cls inst : Nat) : Bool :=
  let n := 2 ^ nLog
  match cls with
  | 1 => inst ≤ 4 || (0x100 ≤ inst && inst < 0x140 && inst - 0x100 < n) || inst == 0x1FF
  | 2 => inst == 0 || inst - 1 < 8 * n
  | 3 => inst ≤ 64
  | 4 =>
    inst == 0 || (0x100 ≤ inst && inst < 0x180) ||
      (0x200 ≤ inst && inst < 0x300 && (inst - 0x200) % 128 ≤ 67) || (0x300 ≤ inst && inst ≤ 0x343) ||
      (0x400 ≤ inst && inst < 0x420) || (0x1000 ≤ inst && inst < 0x3000) ||
      (0x40000 ≤ inst && inst < 0x40000 + 4096 * n)
  | 5 => inst < 16
  | 6 => inst ≤ n || (0x10000 ≤ inst && inst < 0x10400) || (0x20000 ≤ inst && inst < 0x20080)
  | 7 => inst < 1048576
  | 8 => inst < 65536
  | 9 => inst < 16
  | 10 => inst < 128
  | 11 => inst < 1024
  | 12 => inst < 256
  | 13 => inst ≤ n || (0x10000 ≤ inst && inst < 0x20000)
  | 14 => inst < 4096
  | 15 => inst ≤ 68
  | 16 => inst < 256
  | 17 =>
    inst ≤ n || (0x1000 ≤ inst && inst < 0x1000 + 16 * n) || (0x10000 ≤ inst && inst < 0x11000) ||
      (0x100000 ≤ inst && inst < 0x200000)
  | 18 => inst < 8 || inst == 0x100 || (0x200 ≤ inst && inst < 0x200 + n)
  | 19 =>
    inst ≤ 4 || (0x100 ≤ inst && inst < 0x180) || (0x200 ≤ inst && inst < 0x210) ||
      (0x10000 ≤ inst && inst < 0x10000 + 8 * (1028 + n))
  | 20 => inst ≤ 8 || (0x100 ≤ inst && inst < 0x108)
  | 21 =>
    inst < 16384 || (0x4000 ≤ inst && inst < 0x5000) || (0x10000 ≤ inst && inst < 0x10000 + n) ||
      (0x20000 ≤ inst && inst < 0x20004)
  | 22 => inst < 4096 || (0x10000 ≤ inst && inst < 0x10004) || inst == 0x20000
  | 23 => inst < n || inst == 0x100 || (0x1000 ≤ inst && inst < 0x2000)
  | 24 => inst ≤ 64
  | 25 => inst < 4096
  | 26 => inst == 0 || (0x100 ≤ inst && inst ≤ 0x125)
  | 27 => inst < 12 || (0x20 ≤ inst && inst < 0x38) || inst == 0x100
  | 28 => inst == 0
  | 29 => inst < 5 || inst == 0x100
  | 30 => inst < 1024 || (0x400 ≤ inst && inst < 0x480)
  | _ => false

/-- The field map of an instance. -/
def fieldsOfInst (cls inst : Nat) : List Fld :=
  match cls with
  | 1 => if inst = 0 then FDevice.all else if inst ≤ 4 then FBiv.all else FKey.all
  | 2 => if inst = 0 then FTick.all else FClass.all
  | 3 => FPort.all
  | 4 =>
    if inst = 0 then FIntake.all else if inst < 0x200 then FNode.all else if inst < 0x300 then FProfile.all
    else if inst < 0x400 then FInCnt.all
    else if inst < 0x1000 then (List.range 8).flatMap (fun k => segFields (hashSegBit k)) ++ [hashSeed]
    else if inst < 0x40000 then (List.range 4).map actionWord else FIndir.all
  | 5 => FStage.all ++ (List.range 8).flatMap (fun k => segFields (stageSegBit k))
  | 6 => if inst < 0x10000 then FHead.all else FLoad.all
  | 7 => FQueue.all
  | 8 => FFurrow.all
  | 9 => FCluster.all
  | 10 => FCore.all
  | 11 => FThread.all
  | 12 => FRunnel.all
  | 13 =>
    if inst = 0 then FOut.all.filter (fun f => decide (f.lo < 416))
    else if inst < 0x10000 then FOut.all.filter (fun f => decide (64 ≤ f.lo)) else FOutFur.all
  | 14 => FTable.all
  | 15 => if inst = 0 then FLearn.all else FLearnPort.all
  | 16 => FPrefix.all
  | 17 =>
    if inst = 0 then FBasin.all else if inst < 0x1000 then FBasinTent.all else if inst < 0x10000 then FRing.all
    else if inst < 0x100000 then FList.all else FSlot.all ++ FForce.all
  | 18 => if inst < 8 then FPool.all else if inst = 0x100 then FPoolDev.all else FPoolTent.all
  | 19 =>
    if inst < 0x10000 then
      (if 1 ≤ inst ∧ inst ≤ 3 then FMem.all else FMem.all.filter (fun f => decide (f ≠ FMem.bgEn)))
    else FRegion.all
  | 20 => if inst = 0 then FDram.all else if inst ≤ 8 then FChan.all else FReqPort.all
  | 21 =>
    if inst < 0x4000 then FLock.all else if inst < 0x10000 then FSem.all
    else if inst < 0x20000 then FLockTent.all ++ FWindow.all.filter (fun f => decide (f ≠ FWindow.reqTent))
    else FWindow.all
  | 22 => if inst < 4096 then FIrq.all else FIrqDev.all
  | 23 => if inst < 64 then FTent.all else if inst = 0x100 then FTents.all else FHostRing.all
  | 24 => FEgress.all
  | 25 => FRedund.all
  | 26 => if inst = 0 then FClock.all else FCross.all
  | 27 => if inst < 12 then FSupply.all else if inst < 0x100 then FTemp.all else FHostLink.all
  | 28 => FPower.all
  | 29 => if inst = 0x100 then FFlash.all else FStore.all
  | 30 => if inst < 1024 then FDebug.all else FBreak.all
  | _ => []

/-- The last word offset of an instance's fields (R9). -/
def lastWord (cls inst : Nat) : Nat :=
  if cls = clsEgress then 0x2FF
  else if cls = clsCore then 0x1FF
  else if cls = clsPool ∧ inst = 0x100 then 0x53
  else if cls = clsClock ∧ inst = 0 then 0x1F
  else if cls = clsDram ∧ 1 ≤ inst ∧ inst ≤ 8 then 0x11F
  else if cls = clsRunnel then 0x35F
  else if cls = clsOutfall ∧ inst < 0x10000 then 15
  else (fieldsOfInst cls inst).foldl (fun m f => max m ((f.lo + f.width - 1) / 32)) 0

/-- The fields that have a bit in word `off` of an instance. -/
def fieldsOfWord (cls inst off : Nat) : List Fld :=
  ((fieldsOfInst cls inst) ++ extraFields cls inst off).filter
    (fun f => decide (f.lo < 32 * off + 32 ∧ 32 * off < f.lo + f.width))

/-! Reset values that depend on the instance. -/

/-- LOW_MV and HIGH_MV of the twelve monitors (Table 19.1). -/
def railLimits : List (Nat × Nat) :=
  [(713, 787), (808, 892), (713, 787), (713, 787), (1140, 1260), (713, 787), (1140, 1260), (1045, 1155),
   (1710, 1890), (1710, 1890), (3135, 3465), (1710, 1890)]

/-- Default counts of the pools (Table 12.1). -/
def poolOnchip : List Nat := [32768, 16384, 8192, 4096, 2048, 1024, 512, 124]
def poolDram : List Nat := [1048576, 524288, 262144, 131072, 65536, 32768, 8192, 2048]
def poolSizeLog : List Nat := [7, 8, 9, 10, 11, 12, 14, 16]

/-- Reset of TARGET_NS (Table 13.3). -/
def targetNsReset : List Nat := [400, 200, 2000, 5000, 500, 2000, 1000, 0]

/-- The level sources of Table 14.2. -/
def isLevelSource (s : Nat) : Bool :=
  s ≤ 3 || s == 36 || (128 ≤ s && s ≤ 192)

/-- Sizes of the on-chip memories in KiB (Table 12.6), for SPARES. -/
def memKib (m : Nat) : Nat :=
  if m = 0 then 65536 else if m = 1 then 24576 else if m = 2 then 32768 else if m = 3 then 16384
  else if m = 4 then 8192 else if m < 0x200 then 192 else 1024

/-- Reset of a region register field (R325). -/
def regionReset (k : Nat) (f : Fld) : Nat :=
  let master := k / 8
  let r := k % 8
  if master < 1024 then
    if r = 0 then
      (if f = FRegion.en ∨ f = FRegion.r ∨ f = FRegion.w then 1 else if f = FRegion.top then 0x10100000 else 0)
    else 0
  else if master < 1028 then
    if r = 0 then
      (if f = FRegion.en ∨ f = FRegion.r ∨ f = FRegion.w then 1 else if f = FRegion.top then 0x100000000 else 0)
    else if r = 1 then
      (if f = FRegion.en ∨ f = FRegion.r ∨ f = FRegion.w ∨ f = FRegion.space then 1
       else if f = FRegion.top then 0xFFFFFFFFFFFFFFC0 else 0)
    else 0
  else if f = FRegion.space then 1 else 0

/-- The tent whose equal share of `total` numbered objects holds number `i`, at N = 2^nLog tents. -/
def tentOf (nLog total i : Nat) : Nat := i / (total / 2 ^ nLog)

/-- The first object of tent `t`. -/
def tentBase (nLog total t : Nat) : Nat := t * (total / 2 ^ nLog)

/-- The `n` low bits of `x` reversed (R373). -/
def revBits : Nat → Nat → Nat
  | 0, _ => 0
  | n + 1, x => x % 2 * 2 ^ n + revBits n (x / 2)

/-- First queue and tent of a queue in the layout "nested, low" (R373, R374). -/
def queueBase (nLog t : Nat) : Nat := revBits nLog t * (1048576 / 2 ^ nLog)
def queueTent (nLog q : Nat) : Nat := revBits nLog (q / (1048576 / 2 ^ nLog))

/-- First furrow and tent of a furrow in the layout "nested, high" (R373, R374). -/
def furrowBase (nLog t : Nat) : Nat := revBits nLog (2 ^ nLog - 1 - t) * (65536 / 2 ^ nLog)
def furrowTent (nLog f : Nat) : Nat := 2 ^ nLog - 1 - revBits nLog (f / (65536 / 2 ^ nLog))

/-- The tent that a thread serves (R145). -/
def threadTent (nLog n : Nat) : Nat := n % 64 / (64 / 2 ^ nLog)

/-- The value of a field after reset, or after its object takes its reset values. -/
def resetAt (nLog cls inst : Nat) (f : Fld) : Nat :=
  match cls with
  | 2 =>
    if inst = 0 then f.reset
    else if f = FClass.cycleAllow ∨ f = FClass.tentCycles then 9600000
    else if f = FClass.frameAllow ∨ f = FClass.tentFrames then 100000 else f.reset
  | 3 =>
    if f = FPort.mode then (if inst = 64 then 5 else 0)
    else if f = FPort.operState then (if inst % 4 = 0 then 1 else 0) else f.reset
  | 4 => if inst ≥ 0x40000 then (inst - 0x40000) % 4096 else f.reset
  | 6 => if f = FHead.descShare ∧ 0 < inst ∧ inst < 0x10000 then 524288 / 2 ^ nLog else f.reset
  | 7 =>
    if f = FQueue.cluster then inst % 16
    else if f = FQueue.homeFurrow then furrowBase nLog (queueTent nLog inst) else f.reset
  | 13 =>
    if 0 < inst ∧ inst < 0x10000 then
      (if f = FOut.logShare then 262144 / 2 ^ nLog else if f = FOut.excShare then 65536 / 2 ^ nLog else f.reset)
    else f.reset
  | 17 =>
    if 0x10000 ≤ inst ∧ inst < 0x100000 ∧ f = FList.furrow then
      furrowBase nLog (tentOf nLog 4096 (inst - 0x10000))
    else f.reset
  | 18 =>
    if inst < 8 then
      if f = FPool.poolNum then inst
      else if f = FPool.sizeLog2 then poolSizeLog.getD inst 0
      else if f = FPool.refcounted then (if 6 ≤ inst then 1 else 0)
      else if f = FPool.onchipCount ∨ f = FPool.freeOnchip then poolOnchip.getD inst 0
      else if f = FPool.dramCount ∨ f = FPool.freeDram then poolDram.getD inst 0
      else if f = FPool.lowWater then poolOnchip.getD inst 0 + poolDram.getD inst 0
      else f.reset
    else if f = FPoolTent.quotaKib ∨ f = FPoolTent.frameQuotaKib then
      (if inst = 0x100 then f.reset else 35584)
    else f.reset
  | 19 =>
    if 0x10000 ≤ inst then regionReset (inst - 0x10000) f
    else if f = FMem.spares then 2 * ceilDiv (memKib inst) 64 else f.reset
  | 20 => if 0x100 ≤ inst ∧ f = FReqPort.targetNs then targetNsReset.getD (inst - 0x100) 0 else f.reset
  | 22 => if inst < 4096 ∧ f = FIrq.sense then (if isLevelSource inst then 1 else 0) else f.reset
  | 23 => if inst = 0 ∧ f = FTent.state then 1 else f.reset
  | 26 =>
    if 0x100 ≤ inst ∧ f = FCross.downstream then
      (let x := inst - 0x100
       if (0x10 ≤ x ∧ x ≤ 0x1F) ∨ x = 0x21 ∨ x = 0x23 ∨ x = 0x24 then 1 else 0)
    else f.reset
  | 27 =>
    if inst < 12 ∧ f = FSupply.lowMv then (railLimits.getD inst (0, 0)).1
    else if inst < 12 ∧ f = FSupply.highMv then (railLimits.getD inst (0, 0)).2 else f.reset
  | 29 => if inst = 0x100 ∧ f = FFlash.flashMbit then 256 else f.reset
  | _ => f.reset

/-- The key of a field in the store of object fields. -/
def fieldKey (cls inst lo : Nat) : Nat := (cls * 2 ^ 24 + inst) * 2 ^ 16 + lo

end Sys2Proof.Machine
end

