-- ==== Sys2Proof/Machine/Sparse.lean ====
section
/-! DEFINITION. Sparse maps by a numeric key, as sorted lists of pairs, and byte memories in canonical form. -/

namespace Sys2Proof.Machine

/-- A map from numbers, as a list of pairs. -/
abbrev SMap (α : Type) := List (Nat × α)

/-- The entry of key `k`, if there is one. -/
def mapFind {α : Type} (k : Nat) : SMap α → Option α
  | [] => none
  | (j, v) :: r => if j = k then some v else mapFind k r

/-- `m` with the entry of key `k` set to `v`, in rising order of keys. -/
def mapPut {α : Type} (k : Nat) (v : α) : SMap α → SMap α
  | [] => [(k, v)]
  | (j, w) :: r =>
    if k < j then (k, v) :: (j, w) :: r
    else if j = k then (k, v) :: r
    else (j, w) :: mapPut k v r

/-- `m` with no entry of key `k`. -/
def mapDel {α : Type} (k : Nat) (m : SMap α) : SMap α := m.filter (fun e => decide (e.1 ≠ k))

/-- The entry of key `k`, or `d`. -/
def mapGet {α : Type} (d : α) (k : Nat) (m : SMap α) : α := (mapFind k m).getD d

/-- Whether a key has an entry. -/
def mapHas {α : Type} (k : Nat) (m : SMap α) : Bool := (mapFind k m).isSome

/-- What a memory byte that nothing has written reads as (assumption log 4). -/
def unwrittenByte : Byte := 0

/-- A byte memory: the bytes that differ from `unwrittenByte`, by rising address. -/
abbrev Memory := List Host.Cell

/-- The canonical form of a memory: addresses strictly rising and no entry equal to what an unlisted address reads as. -/
def Memory.wf (m : Memory) : Bool :=
  decide (m.Pairwise (fun x y => x.1 < y.1)) && m.all (fun c => decide (c.2 ≠ unwrittenByte))

/-- One byte of a memory. -/
def readByte (m : Memory) (a : Nat) : Byte := (mapFind a m).getD unwrittenByte

/-- Writing one byte of a memory, keeping the canonical form. -/
def writeByte (m : Memory) (a : Nat) (v : Byte) : Memory :=
  if v = unwrittenByte then mapDel a m else mapPut a v m

/-- `n` bytes from address `a`, lowest address first. -/
def readBytes (m : Memory) (a : Nat) : Nat → List Byte
  | 0 => []
  | n + 1 => readByte m a :: readBytes m (a + 1) n

/-- The bytes `l` written from address `a` upwards. -/
def writeBytes (m : Memory) (a : Nat) : List Byte → Memory
  | [] => m
  | v :: r => writeBytes (writeByte m a v) (a + 1) r

/-- The number that a little-endian list of bytes stands for (R4). -/
def leNat : List Byte → Nat
  | [] => 0
  | v :: r => v.toNat + 256 * leNat r

/-- The `n` little-endian bytes of a number (R4). -/
def leBytes : Nat → Nat → List Byte
  | 0, _ => []
  | n + 1, x => BitVec.ofNat 8 x :: leBytes n (x / 256)

/-- The number that a network-order list of bytes stands for (R5). -/
def beNat (l : List Byte) : Nat := leNat l.reverse

/-- The `n` network-order bytes of a number (R5). -/
def beBytes (n x : Nat) : List Byte := (leBytes n x).reverse

/-- `n` bytes at `a`, as a little-endian number. -/
def readLE (m : Memory) (a n : Nat) : Nat := leNat (readBytes m a n)

/-- A number written as `n` little-endian bytes at `a`. -/
def writeLE (m : Memory) (a n x : Nat) : Memory := writeBytes m a (leBytes n x)

/-- `x` put before the first element of a list that does not come before it. -/
def insertBy {α : Type} (le : α → α → Bool) (x : α) : List α → List α
  | [] => [x]
  | y :: r => if le x y then x :: y :: r else y :: insertBy le x r

/-- A list in an order, elements of equal rank in the order they had. -/
def sortBy {α : Type} (le : α → α → Bool) (l : List α) : List α := l.foldr (insertBy le) []

/-- A Bool as a bit. -/
def bit (v : Bool) : Nat := if v then 1 else 0

end Sys2Proof.Machine
end

