-- ==== Sys2Proof/Machine/TypesA.lean ====
section
/-! DEFINITION. The kinds of data the state is made of, first part: time, descriptors, buffers, threads, items,
Outfall, locks. -/

namespace Sys2Proof.Machine

/-- A tick grid (R40, R293): boundary time in 2^-16 ns without its modulus (`Time.fullOf`), the tick number there, the
period in ns. -/
structure Grid where
  anchor : Int
  anchorTick : Nat
  period : Nat
  deriving DecidableEq, Repr

/-- The time base and the tick generator (R31 to R43): the fields of TICK[0] up to BOUNDARY and what they imply. -/
structure Time where
  /-- time base in 2^-32 ns, 80 bits (R34) -/
  tb : Nat
  /-- core cycles since the entry to Boot -/
  cycle : Nat
  era : Nat
  rate : Nat
  /-- slew still to be made, in 2^-32 ns (R35) -/
  slewRem : Int
  slewPpm : Nat
  syncState : Nat
  ppsInTime : Nat
  ppsInCount : Nat
  ppsOutNext : Nat
  ppsOutPeriod : Nat
  ppsOutWidth : Nat
  ppsOutEn : Nat
  ppsInEn : Nat
  /-- while ball PPS_OUT is high, the time at which it falls (R39) -/
  ppsFall : Option Nat
  period : Nat
  periodNext : Nat
  applyTick : Nat
  pendingChange : Nat
  tickNumber : Nat
  anchor : Nat
  anchorTick : Nat
  boundary : Nat
  /-- the next boundary and its tick number (R40, R41) -/
  nextBoundary : Nat
  nextTick : Nat
  /-- a held low word: lowest bit of its field, and the word (R33) -/
  held : Option (Nat × Nat)
  /-- the grids in force, newest first, at most four (R293) -/
  grids : List Grid
  /-- wraps of the time base, so that a wrap leaves the grids where they are (R31) -/
  turns : Nat
  /-- the core cycle of the latest re-arm: its boundaries begin in a later one (R41) -/
  armCycle : Nat
  deriving DecidableEq, Repr

/-- The work descriptor (Table 1.3); `flags` bit k is descriptor bit 113 + k, `ts` is bits 191:128. -/
structure Desc where
  buffer : Nat
  length : Nat
  port : Nat
  furrow : Nat
  seq : Nat
  tent : Nat
  epoch : Nat
  pass : Nat
  cls : Nat
  flags : Nat
  ts : Nat
  metadata : Nat
  deriving DecidableEq, Repr

/-- The requester whose quota bears a buffer (R312). -/
inductive Charge
  | rx
  | bivouac
  | frame (t : Nat)
  | host (t : Nat)
  deriving DecidableEq, Repr

/-- The owner of a buffer of pools 0 to 5 (R312). -/
inductive Owner
  | rx
  | bivouac
  | egress
  | frame (t : Nat)
  | host (t : Nat)
  deriving DecidableEq, Repr

/-- A buffer in use (R311): owner (pools 0 to 5), reference count (pools 6 and 7), charge, poison and frame bytes. -/
structure Buf where
  owner : Owner
  refs : Nat
  charge : Charge
  poison : Bool
  data : List Byte
  deriving DecidableEq, Repr

/-- An element of a queue's chain: a descriptor slot or an exception record (R320). -/
inductive Elem
  | slot (n : Nat)
  | record (n : Nat)
  deriving DecidableEq, Repr

/-- What a descriptor slot or exception record holds, with the program number of its link word. Unused slots
are not listed. -/
structure Held where
  desc : Desc
  program : Nat
  deriving DecidableEq, Repr

/-- The flags word (Table 7.3). -/
structure Flags where
  n : Bool
  z : Bool
  c : Bool
  v : Bool
  dz : Bool
  eom : Bool
  lf : Bool
  deriving DecidableEq, Repr

/-- A commit-log entry (Table 9.1): an STG body of 128 bits, or a channel message committed on endpoint `own`. -/
inductive LogEntry
  | stg (kind : Nat) (body : Nat)
  | chan (own : Nat) (peer : Nat) (ep : Nat) (words : List Word)
  deriving DecidableEq, Repr

/-- An entry of the staged-write buffer (R190, R199). -/
inductive Staged
  | store (addr : Nat) (v : Word)
  | add (addr : Nat) (v : Word)
  | lockRel (n : Nat)
  | semRel (n : Nat)
  deriving DecidableEq, Repr

/-- Where an item comes from: a descriptor slot, an exception record, or no frame (R129, R246). -/
inductive ItemSrc
  | slot (n : Nat)
  | record (n : Nat)
  | event
  deriving DecidableEq, Repr

/-- An item in service (R132, R133, R234). -/
structure Item where
  src : ItemSrc
  queue : Nat
  tent : Nat
  desc : Desc
  program : Nat
  /-- time of the selection -/
  selTime : Nat
  /-- FLAGS at selection, and those that AUTO_CLEAR cleared -/
  flagsSeen : Nat
  cleared : Nat
  cycles : Nat
  cap : Nat
  log : List LogEntry
  staged : List Staged
  /-- already diverted under R51: the handler runs -/
  overrun : Bool
  deriving DecidableEq, Repr

/-- Why a frame item is diverted (R244). -/
inductive DivertBy
  | cap
  | program
  | doubleTrap
  | linkHold
  deriving DecidableEq, Repr

/-- Where the log of an item that requested commit stands (R238). -/
inductive LogPlace
  | thread
  | store
  | stage
  deriving DecidableEq, Repr

/-- An item handed to the Outfall (R238, R244): `id` names it as a lock holder, `writer` is the thread that worked on it,
and `thread` that thread while it still keeps the log. -/
structure OItem where
  id : Nat
  writer : Option Nat
  thread : Option Nat
  cluster : Nat
  item : Item
  divert : Option DivertBy
  place : LogPlace
  reqCycle : Nat
  deriving DecidableEq, Repr

/-- A request of a thread whose reply is outstanding (Table 7.9, R199, R195). -/
inductive ReqKind
  | frd (off : Nat) (n : Nat)
  | brd (slot : Nat)
  | drd (addr : Nat) (n : Nat)
  | treq (op : Nat)
  | lock (n : Nat)
  | sem (n : Nat)
  | batom (minor : Nat) (word : Nat) (b : Word) (cmp : Word)
  deriving DecidableEq, Repr

/-- One outstanding request: its endpoint, a number that orders requests device-wide, and the reply once computed. -/
structure Req where
  ep : Nat
  num : Nat
  kind : ReqKind
  reply : Option (List Word)
  deriving DecidableEq, Repr

/-- What a thread is blocked on (Table 6.9). -/
inductive Block
  | none
  | readEp (ep : Nat)
  | waitMask (mask : Nat)
  | reqFull (ep : Nat)
  | direct (ep : Nat) (peer : Nat) (peerEp : Nat) (words : List Word)
  | rbind (since : Nat)
  | handover (divert : Bool)
  deriving DecidableEq, Repr

/-- The life of a thread with respect to items (R131, R151, R200, R238). -/
inductive Phase
  | free
  | loading
  | running
  | committing
  | retired
  deriving DecidableEq, Repr

/-- A register whose result is on its way: its number on the scoreboard, the core cycle from which it is there, and
whether a Runnel instruction, an accumulation of R227 among them, leaves it; of a word register, what it held before
(R215). -/
structure Pend where
  reg : Nat
  ready : Nat
  runnel : Bool
  accum : Bool
  was : Word
  deriving DecidableEq, Repr

/-- A hardware thread or Bivouac core: registers, program counter, flags, endpoints, item, trap record. -/
structure Hart where
  regs : SMap Word
  pc : Nat
  flags : Flags
  phase : Phase
  halted : Bool
  block : Block
  item : Option Item
  /-- the work-slot buffer of the item held, and the one the next item loads into (R150) -/
  buffer : Nat
  nextBuffer : Nat
  /-- the item loading beside a commit request, with the cycle in which its slot is complete (R133) -/
  loading : Option (Item × Nat)
  inTrap : Bool
  trapCause : Nat
  trapPc : Nat
  trapInsn : Nat
  trapAddr : Nat
  /-- cycles the BUDGET_OVERRUN handler has run (R51) -/
  graceUsed : Nat
  rdt : Option Nat
  timer : Option (Nat × Word)
  taskTimer : Option (Nat × Nat)
  /-- unread messages by endpoint: words still to read of each -/
  inbox : SMap (List (List Word))
  reqs : List Req
  /-- staged words by endpoint -/
  staging : SMap (List Word)
  freeSince : Nat
  ableSince : Nat
  /-- load of the present tick (R137): cycle since which an item is held, cycles held before, items taken -/
  heldSince : Option Nat
  heldNow : Nat
  itemsNow : Nat
  /-- the results still on their way (R208, R226) -/
  score : List Pend
  /-- a Bivouac core's IE, the IE write that waits for a JR, and its current status of ORD and OWR -/
  pendingIe : Option Bool
  status : Nat
  /-- DEBUG.STEP lets one instruction reach core commit (R167) -/
  stepping : Bool
  deriving DecidableEq, Repr

/-- A Runnel context (R212 to R219): sample registers, accumulators, predicates, modes and owner. -/
structure RCtx where
  sregs : SMap (BitVec 320)
  accs : SMap (BitVec 1024)
  preds : SMap (BitVec 32)
  rmode : Nat
  wsat : Bool
  satLanes : Nat
  dzLanes : Nat
  owner : Option Nat
  deriving DecidableEq, Repr

/-- The registers of a region of a master (Table 12.13): enabled, space, kinds granted, base and top. -/
structure RegionRegs where
  en : Nat
  space : Nat
  r : Nat
  w : Nat
  base : Nat
  top : Nat
  deriving DecidableEq, Repr

/-- A data-plane core: its issuing thread, its Runnel contexts, the core cycle from which its watchdog counts (that of its
latest core commit, or of its latest cycle without a thread able to issue, R164), and the cycles that its instructions
and switches have taken (R50, assumption log 12). -/
structure CoreSt where
  issuing : Option Nat
  ctx0 : RCtx
  ctx1 : RCtx
  lastCommit : Nat
  spent : Nat
  deriving DecidableEq, Repr

/-- Who holds or asks for a lock (Table 14.1). -/
inductive Holder
  | thread (n : Nat)
  | item (id : Nat) (furrow : Nat) (seq : Nat) (queue : Nat) (event : Bool)
  | task (q : Nat)
  | host (t : Nat)
  | biv (j : Nat)
  deriving DecidableEq, Repr

/-- A request on a wait list: for whom, by which window, priority, order of arrival, and the core cycle in which it
reached the lock unit. -/
structure Waiter where
  who : Holder
  win : Option Win
  prio : Nat
  num : Nat
  cyc : Nat
  deriving DecidableEq, Repr

/-- A lock (R352): holder, wait list in order of arrival, boundaries it has been held across, the core cycle in which it
was freed, and the core cycle of the holder's latest regrant (R354). -/
structure LockSt where
  holder : Option Holder
  waiters : List Waiter
  heldTicks : Nat
  /-- LOCK_HELD_LONG has been raised for this hold (R362) -/
  longRaised : Bool
  freed : Nat
  again : Option Nat
  deriving DecidableEq, Repr

/-- A semaphore (R359): who holds how many counts, the wait list, and the core cycle in which a count was last free for
a grant. -/
structure SemSt where
  holders : List (Holder × Nat)
  waiters : List Waiter
  freed : Nat
  deriving DecidableEq, Repr

/-- What the device puts on its pins and buses (assumption log 11): a frame sent on a port, a frame that ends with an
invalid FCS (its bytes before the FCS), a fragment of a frame cut off, a flow control frame (priority form, priorities
named, quanta), a write to host memory, an MSI-X message, a Completer Abort for a read of a tent's aperture, a write to
a pluggable module's page. -/
inductive Output
  | frame (port : Nat) (data : List Byte)
  | spoilt (port : Nat) (data : List Byte)
  | fragment (port : Nat)
  | flow (port : Nat) (priority : Bool) (mask : Nat) (quanta : Nat)
  | hostWrite (tent : Nat) (pasid : Option Nat) (addr : Nat) (data : List Byte)
  | msix (vector : Nat) (addr : Nat) (data : Nat)
  | completerAbort (tent : Nat)
  | module (group : Nat) (page : Nat) (offset : Nat) (data : List Byte)
  deriving DecidableEq, Repr

/-- The answer to the latest object access, window access or command: status, index and words (assumption log 11). -/
structure Reply where
  status : Nat
  index : Nat
  words : List Word
  deriving DecidableEq, Repr

/-- A draft at the Headgate's input (R114), with the core cycle of its hand-off. -/
structure Draft where
  desc : Desc
  program : Nat
  queue : Nat
  fromHost : Option Nat
  cyc : Nat
  deriving DecidableEq, Repr

/-- The base modes of Table 18.1 (Freeze and Hold are overlays). -/
inductive Mode
  | cold
  | boot
  | survey
  | standby
  | service
  | degraded
  | update
  | drain
  | bench
  | dormant
  deriving DecidableEq, Repr

/-- The code of a base mode (Table 18.1). -/
def Mode.code : Mode → Nat
  | .cold => 0
  | .boot => 1
  | .survey => 2
  | .standby => 3
  | .service => 4
  | .degraded => 5
  | .update => 6
  | .drain => 7
  | .bench => 8
  | .dormant => 11

end Sys2Proof.Machine
end

