-- ==== Sys2Proof/Machine/TypesB.lean ====
section
/-! DEFINITION. The kinds of data the state is made of, second part: frames on their way in and out. -/

namespace Sys2Proof.Machine

/-- A frame under reception (R61, R308): its stamp, its buffer while it has one, the bytes so far (at most
MAX_FRAME + 1), and whether the port went down meanwhile. -/
structure Rx where
  sof : Nat
  buffer : Option Nat
  got : List Byte
  deriving DecidableEq, Repr

/-- A frame handed to Intake (R62, R89, R91): buffer, length with FCS, start-of-frame time and whether an internal
port supplied it, source tent and TX ring of a host frame, the descriptor of the earlier pass. -/
structure InFrame where
  buffer : Nat
  length : Nat
  port : Nat
  ts : Nat
  ring : Option Nat
  tent : Nat
  prior : Option Desc
  deriving DecidableEq, Repr

/-- What SET_PROGRAM chose (Table 4.5). -/
structure Program where
  number : Nat
  roundRobin : Bool
  profile : Nat
  first : Nat
  count : Nat
  deriving DecidableEq, Repr

/-- A pass under classification (R97 to R100): what the actions have set so far, the edits recorded (action word and
ARG), and the stage that runs next. -/
structure Pass where
  frame : InFrame
  epoch : Nat
  pass : Nat
  internal : Bool
  ts : Nat
  stage : Nat
  metadata : Nat
  furrow : Option Nat
  cls : Nat
  program : Option Program
  recirculate : Bool
  command : Bool
  edits : List (Nat × Nat)
  deriving DecidableEq, Repr

/-- A pass that Intake has taken and not yet handed on: classification stands before a DRAM-resident stage, or has ended
and waits for the earlier frames of its port (R90). -/
structure Waiting where
  pass : Pass
  ended : Bool
  deriving DecidableEq, Repr

/-- What has become of the other copy of a generating stream's frame (R84). -/
inductive Twin
  | none
  | waiting
  | sent
  | removed
  deriving DecidableEq, Repr

/-- A frame in an egress class queue. `num` names the frame (its copies share it), `desc` is the descriptor that R83
and R28 go by, `body` the enqueue's option bits (Table 9.2), `stream` the absolute redundancy stream, `seq` a
generated sequence, `judged` that an eliminating stream has passed it and `strip` that it loses its tag. -/
structure EgFrame where
  num : Nat
  buffer : Nat
  length : Nat
  desc : Desc
  program : Nat
  bivouac : Bool
  body : Nat
  stream : Option Nat
  copyB : Bool
  seq : Option Nat
  twin : Twin
  judged : Bool
  strip : Bool
  deriving DecidableEq, Repr

/-- A frame in transmission: its class, the time its transmission began and the time it ends. -/
structure Sending where
  cls : Nat
  frame : EgFrame
  start : Nat
  ends : Nat
  deriving DecidableEq, Repr

/-- The egress side of a port: class queues, the frame in transmission, the gate cycle's start and multiple, ends of
stops by class (R64), boundaries before the port went down (R83), the records of sent two-step frames (R77), and the
time of the latest XOFF while the port holds its partner off (R65). -/
structure EgPort where
  queues : SMap (List EgFrame)
  sending : Option Sending
  cycleStart : Nat
  mult : Nat
  pauses : SMap Nat
  downSince : Nat
  diverting : Bool
  stamps : List (Nat × Nat)
  xoff : Option Nat
  deriving DecidableEq, Repr

/-- The recovery state of an eliminating stream (R81): `quiet` counts boundaries towards RESET_TICKS. -/
structure Recov where
  takeAny : Bool
  hist : BitVec 64
  quiet : Nat
  passed : Bool
  deriving DecidableEq, Repr

/-- Ports and Intake. `waiting` holds, by port and in order of entry, the passes from the first one whose DRAM-resident
stage has not answered (R90); `swapping` says that an accepted SWAP is pending (R110); `rr` the
round-robin counters of furrows (R104); `bivIn` the direct-path frames before their receive slot; `rxSlot` the next
receive slot in turn (R404); `exc` the tents that wait for an exception record, with the cycle up to which EXC_WAITS
has counted them (R245). -/
structure Net where
  rx : SMap Rx
  input : SMap (List InFrame)
  waiting : SMap (List Waiting)
  swapping : Bool
  rr : SMap Nat
  bivIn : List InFrame
  /-- direct-path frames that wait for a crossing BIV_IN that is not ready (R437) -/
  bivWait : List InFrame
  rxSlot : Nat
  egress : SMap EgPort
  recov : SMap Recov
  exc : List Nat
  excCycle : Nat
  /-- the groups whose module runs in its high-power mode (R67) -/
  highPower : List Nat
  deriving DecidableEq, Repr

end Sys2Proof.Machine
end

