-- ==== Sys2Proof/Machine/TypesC.lean ====
section
/-! DEFINITION. The kinds of data the state is made of, third part: external memory and tables. -/

namespace Sys2Proof.Machine

/-- What a DRAM request is for: data already read or written (assumption log 15), the write-back of a corrected line
(R344), a line of the scrub with whether its error was corrected (R343), a thread's DRD with the number of its request, a
host's aperture access. -/
inductive DramUse
  | posted
  | writeBack
  | scrub (corrected : Bool)
  | thread (h : Nat) (num : Nat)
  | aperture (write : Bool)
  deriving DecidableEq, Repr

/-- A DRAM request of a requester port (R338), for one line: its order, the access that it is part of, port, tent, line
address, whether it writes, what it is for, the core cycle of its arrival in its channel queue, whether the read of a
read-modify-write is still to be made (R337), whether its column command has been issued, its write CRC retries (R344), and
the bytes that a write stores or that a read of a thread or host returns. -/
structure DramReq where
  num : Nat
  group : Nat
  port : Nat
  tent : Nat
  addr : Nat
  write : Bool
  use : DramUse
  arrival : Nat
  modify : Bool
  issued : Bool
  tries : Nat
  data : List (Nat × Byte)
  deriving DecidableEq, Repr

/-- The steps in which Survey trains a channel (R342). -/
inductive TrainStep
  | command
  | vrefCa
  | writeLevelling
  | readGate
  | readCentring
  | writeCentring
  deriving DecidableEq, Repr

/-- The memory controller: queues by channel, requests that wait at their port, refreshes due and the bank that the next
same-bank refresh takes by channel, subchannel and rank (4 × channel + 2 × subchannel + rank), the core cycle of the latest
refresh interval's end by rank (2 × channel + rank), the next line to scrub and the core cycle from which the next pass may
start by channel, the core cycles of the latest four kind 2 lookups (R340), the channels that drain their write queue, the
open rows by channel and bank (256 × channel + bank), the writes that wait for a frozen channel, latest first, the speed
limit that this Survey obeys (R349), the core cycles of a rank's latest retraining and until which its commands wait for it
(R342), and the training steps that a channel has been through. -/
structure Drm where
  queues : SMap (List DramReq)
  waiting : List DramReq
  due : SMap Nat
  refBank : SMap Nat
  refreshed : SMap Nat
  scrub : SMap Nat
  scrubFrom : SMap Nat
  recent : List Nat
  draining : List Nat
  rows : SMap Nat
  late : List (Nat × Byte)
  speedLimit : Nat
  retrained : SMap Nat
  rankBusy : SMap Nat
  training : SMap (List TrainStep)
  deriving DecidableEq, Repr

def Drm.reset : Drm := ⟨[], [], [], [], [], [], [], [], [], [], [], 2, [], [], []⟩

/-- A valid line of table memory: 128 data bits, and whether a double-bit error has been met in it (R256, R274). -/
structure Line where
  data : Nat
  bad : Bool
  deriving DecidableEq, Repr

/-- Which way a table request came (R268): a TREQ (thread, request number, block address in local memory), a staged
request (cluster, block address, queue to notify), a command window. -/
inductive ReqFrom
  | thread (h : Nat) (num : Nat) (addr : Nat)
  | staged (cluster : Nat) (addr : Nat) (notify : Option Nat)
  | window (inst : Nat)
  deriving DecidableEq, Repr

/-- A table request: its number, the core cycle in which it arrives (R269), its origin, the tent whose authority it has
(`none`: the Bivouac), its 256-bit block. -/
structure TabReq where
  num : Nat
  cyc : Nat
  origin : ReqFrom
  tent : Option Nat
  block : Nat
  deriving DecidableEq, Repr

/-- A FLUSH_BY_PORT walk (R273): its request, the next bucket or line, the entries removed. -/
structure Walk where
  req : TabReq
  next : Nat
  removed : Nat
  deriving DecidableEq, Repr

/-- A shadow walk (R275): the next block, the boundary count of the last one and blocks read since, and the blocks to
read again with the boundary count of their first read. -/
structure Shadow where
  next : Nat
  tick : Nat
  done : Nat
  again : List (Nat × Nat)
  deriving DecidableEq, Repr

/-- The table engines: table memory, requests in order of arrival, flush walks and shadow walks by TABLE instance, and
for each learn table the ager's next bucket and the boundary count of its last scan (R280). -/
structure Tab where
  lines : SMap Line
  reqs : List TabReq
  walks : SMap Walk
  shadows : SMap Shadow
  ager : SMap (Nat × Nat)
  deriving DecidableEq, Repr

end Sys2Proof.Machine
end

