-- ==== Sys2Proof/Machine/TypesD.lean ====
section
/-! DEFINITION. The kinds of data the state is made of, fourth part: the Basin. -/

namespace Sys2Proof.Machine

/-- An operation on a Basin slot (R294): a write of a code, a quality and its time; a BATOM or BRD of a thread with the
number of its request; a force with its time; an unforce; a write of CFG_INDEX. -/
inductive BasinOp
  | write (value : Nat) (quality : Nat) (time : Nat)
  | batom (h : Nat) (num : Nat) (minor : Nat) (word : Nat) (val : Word) (cmp : Word)
  | brd (h : Nat) (num : Nat)
  | force (value : Nat) (quality : Nat) (time : Nat)
  | unforce
  | cfg (index : Nat)
  deriving DecidableEq, Repr

/-- An entry of the Basin's input queue: the core cycle in which it entered and its rank among the entries of one cycle
(releases 0, thread `h` 1 + h, object writes 2000; R294), its tent, the tent-relative slot, the operation. -/
structure BasinEntry where
  cyc : Nat
  rank : Nat
  tent : Nat
  slot : Nat
  op : BasinOp
  deriving DecidableEq, Repr

/-- What a slot holds (Table 11.1); VALUE, REF and FILTER as codes. -/
structure BSlot where
  value : Nat
  quality : Nat
  tick : Nat
  sub : Nat
  filter : Nat
  ref : Nat
  valid : Bool
  forced : Bool
  hi : Bool
  lo : Bool
  stale : Bool
  pending : Bool
  cfg : Nat
  deriving DecidableEq, Repr

/-- A configuration record without fault (Table 11.3). -/
structure BasinCfg where
  mode : Nat
  alpha : Nat
  deadband : Nat
  hiLimit : Nat
  loLimit : Nat
  hyst : Nat
  hiEn : Bool
  loEn : Bool
  staleTicks : Nat
  histRing : Nat
  group : Nat
  alarmQueue : Nat
  alarmEn : Bool
  deriving DecidableEq, Repr

/-- A snapshot list as it stands at a boundary (R301, Table 11.12). -/
structure SnapList where
  num : Nat
  tent : Nat
  groupMask : Nat
  first : Nat
  span : Nat
  port : Nat
  cls : Nat
  furrow : Nat
  seg : Nat
  template : List Byte
  deriving DecidableEq, Repr

/-- A cut that a boundary starts (R298): tick, boundary time, core cycle, how many entries entered before it beyond
those of the cuts before, the lists due, and log2 N before and after the boundary (R395). -/
structure Cut where
  tick : Nat
  boundary : Nat
  cycle : Nat
  entries : Nat
  due : List SnapList
  before : Fin 7
  after : Fin 7
  deriving DecidableEq, Repr

/-- An emission in progress: its list, tick and boundary time, and the frames still to send, each with the core cycle
in which its last member has been read. -/
structure Emission where
  list : SnapList
  tick : Nat
  boundary : Nat
  frames : List (Nat × List Byte)
  deriving DecidableEq, Repr

/-- The Basin: input queue, operations that wait at its input (R295), pending list and staleness deadlines by absolute
slot, slots whose next write is judged as a first (R300), the emissions of the cut in progress, its boundary's cycle and
log2 N before and after it, the cuts that follow it, the cycle in which the last one ended, and how many entries have
been spilled (R295). -/
structure Bas where
  queue : List BasinEntry
  waiting : List BasinEntry
  pend : List Nat
  deadlines : SMap Nat
  reseed : List Nat
  emissions : List Emission
  cutCycle : Nat
  cutBefore : Fin 7
  cutAfter : Fin 7
  cuts : List Cut
  ends : Nat
  spillNext : Nat
  deriving DecidableEq, Repr

end Sys2Proof.Machine
end

