-- ==== Sys2Proof/Machine/TypesE.lean ====
section
/-! DEFINITION. The kinds of data the state is made of, fifth part: the host interface and tents. -/

namespace Sys2Proof.Machine

/-- Where a TX ring entry stands (R383): its frame is being read, the frame is in Intake or at the Headgate, or its
outcome is known by its reason. -/
inductive TxStage
  | reading
  | inside
  | known (reason : Nat)
  deriving DecidableEq, Repr

/-- A TX ring entry being served: its ring, index and generation (R386), the entry, its buffer. -/
structure TxEnt where
  ring : Nat
  index : Nat
  gen : Nat
  entry : Nat
  buffer : Nat
  stage : TxStage
  deriving DecidableEq, Repr

/-- A freeze or strike in progress (R389, R392): boundaries so far, and what the last one found. -/
structure Freezing where
  strike : Bool
  ticks : Nat
  judged : Bool
  deriving DecidableEq, Repr

/-- A piece of a tent image (R390, Table 15.9), tent-relative throughout. -/
inductive ImagePart
  | field (cls : Nat) (inst : Nat) (lo : Nat) (value : Nat)
  | queued (offset : Nat) (record : Bool) (program : Nat) (desc : Desc) (pool : Nat) (data : List Byte)
  | entry (pfx : Bool) (inst : Nat) (position : Nat) (content : Option (Nat × Nat × Nat))
  | slot (n : Nat) (words : List Nat)
  | counter (n : Nat) (value : Nat)
  | context (thread : Nat) (ctx : RCtx)
  deriving DecidableEq, Repr

/-- A tent image as a restore reads it: N and GENERATION of its header, and its parts. -/
structure TentImage where
  n : Nat
  generation : Nat
  parts : List ImagePart
  deriving DecidableEq, Repr

/-- The host interface: window registers by tent (R376), TX entries being served in order, the next entry to serve by
ring and the ring whose turn comes next; the MSI-X table as the address and data of its vectors, the vectors unmasked,
those pending and the function mask (R376, R380); freezes by tent, the bytes of images being written, and the tents
being restored with the GENERATION of the image read (R386). -/
structure HostIf where
  winAddr : SMap Nat
  winOff : SMap Nat
  winStatus : SMap Nat
  tx : List TxEnt
  txNext : SMap Nat
  txTurn : Nat
  msix : SMap Nat
  unmasked : List Nat
  pba : List Nat
  functionMask : Bool
  freezes : SMap Freezing
  saving : SMap (List Byte)
  restoring : SMap Nat
  /-- MSI-X messages that wait for PCIE_OUT or its clock, oldest first (R432, R437) -/
  held : List Output
  deriving DecidableEq, Repr

end Sys2Proof.Machine

namespace Sys2Proof

/-- The bytes of a record of a tent image, by section, from the numbers in it, where the spec does not give their
widths (assumption log 22). -/
opaque Config.imageRecord : Nat → List Nat → List Byte

/-- The numbers with which a record of such a section starts, read from the bytes at its place, and how many bytes they
take (assumption log 22). -/
opaque Config.imageLead : Nat → List Byte → List Nat × Nat

end Sys2Proof
end

