-- ==== Sys2Proof/Machine/TypesF.lean ====
section
/-! DEFINITION. The kinds of data the state is made of, sixth part: management. -/

namespace Sys2Proof.Machine

/-- The path of a command, which its reply takes (R414): the mailbox; the direct path, with the frame's bytes before
the message and its ingress port; the classified path, with the frame's bytes before the message. -/
inductive ReplyPath
  | mailbox
  | direct (header : List Byte) (port : Nat)
  | classified (header : List Byte)
  deriving DecidableEq, Repr

/-- The requester of a command that is being answered: its path, the 20 bytes of its message header, and the key
under which the reply is tagged. -/
structure Caller where
  path : ReplyPath
  head : List Byte
  key : Option (List Byte)
  deriving DecidableEq, Repr

/-- The mailbox (Table 16.3). -/
structure Mailbox where
  busy : Bool
  done : Bool
  ready : Bool
  source : Nat
  sourceEn : Bool
  deriving DecidableEq, Repr

/-- A firmware handover (R447): the slot of the verified image, whether the cores run it, and since when. -/
structure Handover where
  slot : Nat
  started : Bool
  since : Nat
  deriving DecidableEq, Repr

/-- What a slot of the store holds (R452, R453, R422, R459): N, the tents' states and the records (object word and
value); calibration fields by key; keys; counters of tents. -/
inductive StoreBody
  | nothing
  | config (n : Nat) (states : List Nat) (records : List (ObjAddr × Nat))
  | calib (values : List (Nat × Nat))
  | keys (l : List (Nat × List Byte))
  | counters (l : List (Nat × Nat × Nat))
  deriving DecidableEq, Repr

/-- A valid slot of a store area (R457). -/
structure StoreSlot where
  seq : Nat
  empty : Bool
  body : StoreBody
  deriving DecidableEq, Repr

/-- A store write in progress (R457): its area (4: the checkpoint), what it programs, and whether the header is
programmed. -/
structure StoreJob where
  area : Nat
  empty : Bool
  body : StoreBody
  headed : Bool
  deriving DecidableEq, Repr

/-- How far a Survey has come (R450): the monitors and sensors read since its entry, SURVEY_FAIL bits 1 and 2 once row 1 has
ended, whether the results of rows 2 to 6 are shown, and whether row 7 has run. -/
structure SurveyRun where
  sampled : List Nat
  verdict : Option Nat
  shown : Bool
  bank : Bool
  deriving DecidableEq, Repr

def SurveyRun.start : SurveyRun := ⟨[], none, false, false⟩

/-- What the wait-cycle detector keeps of a set (R170): cluster, binding of a group set, held, and whether it has
declared the set and not armed it again. -/
structure WaitSet where
  cluster : Nat
  group : Option (Nat × Nat)
  held : Nat
  disarmed : Bool
  deriving DecidableEq, Repr

/-- A memory's latest background test (R327): the core cycle and the tick of its boundary, its 4 KiB region, and whether
it is still running. -/
structure BgTest where
  start : Nat
  tick : Nat
  region : Nat
  running : Bool
  deriving DecidableEq, Repr

/-- Management. `kicks` holds for each Bivouac core the time of its latest KICK or restart (R401); `keys` the keys,
`windows` the replay windows by 4 × KEY_ID + slot (R411); `fired` the wake sources that have fired and are not
consumed (R454), `sleep` the caller whose MODE_SET 11 waits for the wake; `draining` the boundaries for which a DEVICE
reset has drained (R435), `scopes` the one-sided resets requested (R437); `fwActive` the active firmware slot of the
boot header, `fwImage` both firmware slots; `slots` the store by 2 × area + slot, `ckptDue` and `holdDue` the
checkpoints that wait (R459, R456), `ckptAt` the time of the latest checkpoint period, `ckptLoaded` whether the
checkpointed counters have been restored since Boot, `bootSet` whether row 8 of Survey has run since its entry;
`bgNext` the next region of each memory's background test; `arrivals` the receive slots and the mailbox in the order in which
their commands came (R407); `unanswered` whether the next management access meets no answer (R433); `survey` how far a
Survey has come. -/
structure Adm where
  kicks : SMap Nat
  keys : SMap (List Byte)
  windows : SMap (BitVec 64)
  mailbox : Mailbox
  fired : Nat
  sleep : Option Caller
  draining : Option Nat
  scopes : List Nat
  fw : Option Handover
  fwActive : Nat
  fwImage : Memory
  slots : SMap StoreSlot
  job : Option StoreJob
  ckptDue : Bool
  holdDue : Bool
  ckptAt : Nat
  ckptLoaded : Bool
  bootSet : Bool
  waits : List WaitSet
  bg : SMap BgTest
  bgNext : SMap Nat
  spares : SMap Nat
  arrivals : List Msg
  unanswered : Bool
  survey : SurveyRun
  deriving DecidableEq, Repr

end Sys2Proof.Machine
end

