-- ==== Sys2Proof/Machine/State.lean ====
section
/-! DEFINITION. The state of the PV1640, the reasons a step can stop, and the state after reset. -/

namespace Sys2Proof.Machine

/-- Why a step would stop with a fault. No command of this model raises one: every effect the spec describes is a
next state. -/
inductive Fault
  /-- raised by no command; declared so that the type is not empty (safe) -/
  | none
  deriving DecidableEq, Repr

/-- Why a command has no meaning. -/
inductive Refusal
  /-- a command whose meaning is not written yet: raised by the dispatch (safe) -/
  | notModelled (mnemonic : String)
  deriving DecidableEq, Repr

/-- A bank of allowances of the previous tick (R46): allowances and what has been charged. -/
structure Bank where
  cycAllow : Nat
  frAllow : Nat
  cyc : Nat
  fr : Nat
  deriving DecidableEq, Repr

/-- Modes, tents and pins (R441 to R459, R373). -/
structure Sys where
  /-- N = 2^nLog tents -/
  nLog : Fin 7
  base : Mode
  prevBase : Mode
  /-- the Hold overlay (R456) -/
  hold : Bool
  pfailLow : Bool
  resetLow : Bool
  thermTrip : Bool
  holdupChg : Bool
  /-- a firmware handover is in progress (R447): Update ends with it -/
  handover : Bool
  /-- the supplies or the system clock hold the device in Cold (R464) -/
  supplyLost : Bool
  /-- row 8 of Survey is writing, under the mode checks of Standby (R453) -/
  row8 : Bool
  /-- when PFAIL_N went high or a brown-out ended, the later of the two (R456) -/
  clearSince : Nat
  deriving DecidableEq, Repr

/-- The byte memories of the device; unlisted bytes read as unwritten (R4). -/
structure Mems where
  imem : Memory
  lmem : Memory
  spad : Memory
  dram : Memory
  bmem : Memory
  deriving DecidableEq, Repr

/-- Threads, Bivouac cores (by master number, R324) and data-plane cores. -/
structure Isa where
  harts : SMap Hart
  cores : SMap CoreSt
  /-- the threads whose tent has changed since their last item (R146) -/
  moved : List Nat
  /-- the regions written, by instance: the core cycle of the latest write and what held before it (R325) -/
  regionWas : SMap (Nat × RegionRegs)
  deriving DecidableEq, Repr

/-- Headgate, queues, buffers and Outfall. -/
structure Work where
  chains : SMap (List Elem)
  /-- ready queues in the order in which they became ready (R130) -/
  ready : List Nat
  /-- tick boundaries so far, and for each queue their number when flag 1 was last cleared (R44, R127) -/
  tickSets : Nat
  tickClears : SMap Nat
  /-- the same for whole ranges of queues that took their reset values, newest first -/
  tickFloors : List (Nat × Nat × Nat)
  /-- bindings whose fallback has been counted: tent, cluster, group (R134) -/
  fallbacks : List (Nat × Nat × Nat)
  slots : SMap Held
  records : SMap Held
  bufs : SMap Buf
  drafts : List Draft
  /-- the core cycle of the latest check of a draft, and how many were made in it (R114) -/
  checkCycle : Nat
  checkCount : Nat
  /-- outcomes of TX-ring frames not yet written back: ring and reason, in order (R383) -/
  outcomes : List (Nat × Nat)
  commits : List OItem
  redispatch : List (Nat × Item)
  /-- queues stopped by a memory error, and the logs and the slots or records whose release is (R321) -/
  stopped : List Nat
  stuck : List Nat
  stuckSrc : List ItemSrc
  classPrev : SMap Bank
  tentCur : SMap Bank
  tentPrev : SMap Bank
  /-- the reserves in force, in KiB, since the last boundary (R313) -/
  rxQuota : Nat
  bivQuota : Nat
  /-- furrows' finally released sequences beyond REL_SEQ (R239) -/
  released : List (Nat × Nat)
  /-- CYCLE_CHARGE in force since the last boundary, by TICK instance (R45) -/
  charges : SMap Nat
  /-- the core cycle of the latest releases, and their furrows (R241) -/
  relCycle : Nat
  relNow : List (Option Nat)
  deriving DecidableEq, Repr

/-- Locks and semaphores. -/
structure Sync where
  locks : SMap LockSt
  sems : SMap SemSt
  /-- how many operations the lock unit performs in each core cycle from the present one on (R356) -/
  turns : SMap Nat
  /-- the first core cycle in which the latest ring or assertion of an interrupt source counts (R364, R369) -/
  irqFrom : Nat
  deriving DecidableEq, Repr

/-- Everything but the time base and the queue of waiting commands. -/
structure Body where
  /-- object fields written since reset -/
  fields : SMap Nat
  /-- latched high words of 64-bit fields (R32) -/
  latches : SMap Nat
  sys : Sys
  mem : Mems
  isa : Isa
  work : Work
  sync : Sync
  net : Net
  drm : Drm
  tab : Tab
  bas : Bas
  host : HostIf
  adm : Adm
  /-- what the device has put out, oldest first, and its latest answer (assumption log 11) -/
  outputs : List Output
  reply : Reply
  /-- the model's own counters: of free values and of orderings (assumption log 17) -/
  free : Nat
  stamp : Nat
  /-- the core cycle, as the units that note when a request reaches them see it -/
  clock : Nat
  deriving DecidableEq, Repr

/-- The device: time base and the rest. -/
structure Dev where
  tm : Time
  b : Body
  deriving DecidableEq, Repr

/-- The machine: the commands that wait, first in first out, and the device. -/
structure State where
  pending : List Instr
  tm : Time
  b : Body
  deriving DecidableEq, Repr

/-- The time base and tick generator at the entry to Boot (R43, Table 2.3): tick 0 has begun at time 0. -/
def Time.reset : Time :=
  { tb := 0, cycle := 0, era := 0, rate := 2863311531, slewRem := 0, slewPpm := 100, syncState := 0,
    ppsInTime := 0, ppsInCount := 0, ppsOutNext := 0, ppsOutPeriod := 1000000000, ppsOutWidth := 100000000,
    ppsOutEn := 0, ppsInEn := 0, ppsFall := none, period := 50000, periodNext := 50000, applyTick := 0,
    pendingChange := 0, tickNumber := 0, anchor := 0, anchorTick := 0, boundary := 0,
    nextBoundary := 50000 * 2 ^ 16, nextTick := 1, held := none, grids := [⟨0, 0, 50000⟩], turns := 0, armCycle := 0 }

def Sys.reset : Sys :=
  { nLog := 0, base := .boot, prevBase := .boot, hold := false, pfailLow := false, resetLow := false,
    thermTrip := false, holdupChg := false, handover := false, supplyLost := false, row8 := false, clearSince := 0 }

def Mems.reset : Mems := { imem := [], lmem := [], spad := [], dram := [], bmem := [] }

def Work.reset : Work :=
  { chains := [], ready := [], tickSets := 0, tickClears := [], tickFloors := [], fallbacks := [], slots := []
    records := [], bufs := [], drafts := [], checkCycle := 0, checkCount := 0, outcomes := []
    commits := [], redispatch := [], stopped := [], stuck := [], stuckSrc := [], classPrev := [], tentCur := []
    tentPrev := [], rxQuota := 4096, bivQuota := 1024, released := [], charges := [], relCycle := 0, relNow := [] }

def Net.reset : Net :=
  { rx := [], input := [], waiting := [], swapping := false, rr := [], bivIn := [], bivWait := [], rxSlot := 0
    egress := [], recov := [], exc := [], excCycle := 0, highPower := [] }

def Adm.reset : Adm :=
  { kicks := [], keys := [], windows := [], mailbox := ⟨false, false, false, 0, false⟩, fired := 0, sleep := none
    draining := none, scopes := [], fw := none, fwActive := 0, fwImage := [], slots := [], job := none, ckptDue := false
    holdDue := false, ckptAt := 0, ckptLoaded := false, bootSet := false, waits := [], bg := [], bgNext := []
    spares := [], arrivals := [], unanswered := false, survey := SurveyRun.start }

def Body.reset : Body :=
  { fields := [], latches := [], sys := Sys.reset, mem := Mems.reset, isa := ⟨[], [], [], []⟩, work := Work.reset,
    sync := ⟨[], [], [], 0⟩, net := Net.reset, drm := Drm.reset,
    tab := ⟨[], [], [], [], []⟩, bas := ⟨[], [], [], [], [], [], 0, 0, 0, [], 0, 0⟩,
    host := ⟨[], [], [], [], [], 0, [], [], [], false, [], [], [], []⟩, adm := Adm.reset
    outputs := [], reply := ⟨0, 0, []⟩, free := 0, stamp := 0, clock := 0 }

/-- The machine right after reset (R43, R436, Table 18.12). -/
def State.reset : State := { pending := [], tm := Time.reset, b := Body.reset }

end Sys2Proof.Machine
end

