-- ==== Sys2Proof/Machine/Ops.lean ====
section
/-! DEFINITION. Named operations over the state: object fields, counters, free values, modes, interrupt sources,
bits of numbers, status codes and the lifting of an effect on the device to an outcome. -/

namespace Sys2Proof.Machine

/-! Status codes (Table 0.5). -/

def stOk : Nat := 0x0000
def stUnknownOpcode : Nat := 0x0101
def stReservedField : Nat := 0x0102
def stBadLength : Nat := 0x0103
def stAuthFail : Nat := 0x0104
def stNotInMode : Nat := 0x0105
def stBusy : Nat := 0x0106
def stNoSuchObject : Nat := 0x0107
def stReadOnly : Nat := 0x0108
def stOutOfRange : Nat := 0x0109
def stDeferredEnergy : Nat := 0x010A
def stWokeBeforeSleep : Nat := 0x010B
def stRefusedShare : Nat := 0x010C
def stGenerationStale : Nat := 0x010D
def stNotOwner : Nat := 0x010E
def stTableFull : Nat := 0x010F
def stAcquiredAbandoned : Nat := 0x0110

/-! Effects on the device as outcomes. -/

/-- An effect on everything but the time base. -/
def onBody (f : Time → Body → Body) (s : State) : Host.Outcome State Fault Refusal :=
  .next { s with b := f s.tm s.b }

/-- An effect on the device. -/
def onDev (f : Dev → Dev) (s : State) : Host.Outcome State Fault Refusal :=
  let d := f ⟨s.tm, s.b⟩
  .next { s with tm := d.tm, b := d.b }

/-- `f` where `c` holds, nothing otherwise: an event whose condition does not hold does not come about
(assumption log 2). -/
def when {α : Type} (c : Bool) (f : α → α) (x : α) : α := if c then f x else x

/-! Object fields. -/

/-- The number of tents. -/
def Body.tents (b : Body) : Nat := 2 ^ b.sys.nLog.val

/-- The value that a field of an object holds. -/
def Body.fget (b : Body) (cls inst : Nat) (f : Fld) : Nat :=
  mapGet (resetAt b.sys.nLog.val cls inst f) (fieldKey cls inst f.lo) b.fields

/-- A field of an object takes a value, cut to the field's width. -/
def Body.fset (b : Body) (cls inst : Nat) (f : Fld) (v : Nat) : Body :=
  { b with fields := mapPut (fieldKey cls inst f.lo) (lowBits f.width v) b.fields }

/-- A sum kept in a field of `w` bits: past the width, where the spec states neither saturation nor wrapping, the
value is free (assumption log 9). -/
def addFree (w v k : Nat) : Nat :=
  if v + k < 2 ^ w then v + k else lowBits w (Config.counterOver w (v + k))

/-- A counter rises by `k`. -/
def Body.bump (b : Body) (cls inst : Nat) (f : Fld) (k : Nat) : Body :=
  b.fset cls inst f (addFree f.width (b.fget cls inst f) k)

/-- A saturating counter rises by `k`. -/
def Body.bumpSat (b : Body) (cls inst : Nat) (f : Fld) (k : Nat) : Body :=
  b.fset cls inst f (min (b.fget cls inst f + k) (2 ^ f.width - 1))

/-- A wrapping counter rises by `k`. -/
def Body.bumpWrap (b : Body) (cls inst : Nat) (f : Fld) (k : Nat) : Body :=
  b.fset cls inst f (b.fget cls inst f + k)

/-- A count falls by `k`, not below 0. -/
def Body.drop (b : Body) (cls inst : Nat) (f : Fld) (k : Nat) : Body :=
  b.fset cls inst f (b.fget cls inst f - k)

/-- A field that keeps the largest value seen. -/
def Body.raise (b : Body) (cls inst : Nat) (f : Fld) (v : Nat) : Body :=
  b.fset cls inst f (max (b.fget cls inst f) v)

/-- Every field of an object back at its reset value. -/
def Body.resetObj (b : Body) (cls inst : Nat) : Body :=
  let k := fieldKey cls inst 0
  { b with fields := b.fields.filter (fun e => decide (e.1 < k ∨ k + 2 ^ 16 ≤ e.1)) }

/-- A fresh free value, and the state in which it has been used (assumption log 17). -/
def Body.fresh (b : Body) : Nat × Body := (Config.freeNat b.free, { b with free := b.free + 1 })

/-- A counter that the spec lowers by `k`: below 0, where the spec gives no value, it is free (assumption log 105). -/
def Body.lower (b : Body) (cls inst : Nat) (f : Fld) (k : Nat) : Body :=
  if k ≤ b.fget cls inst f then b.fset cls inst f (b.fget cls inst f - k) else b.fresh.2.fset cls inst f b.fresh.1

/-- A free choice among the elements of a list. -/
def Body.choose {α : Type} (b : Body) (l : List α) : Option α × Body :=
  let (r, b) := b.fresh
  (l[r % l.length]?, b)

/-- The next number of the ordering counter. -/
def Body.tick (b : Body) : Nat × Body := (b.stamp, { b with stamp := b.stamp + 1 })

/-- The device puts something out. -/
def Body.emit (b : Body) (o : Output) : Body := { b with outputs := b.outputs ++ [o] }

/-- The device answers with a status. -/
def Body.answer (b : Body) (st : Nat) : Body := { b with reply := ⟨st, 0, []⟩ }

/-- The device answers with a status and words. -/
def Body.answerWords (b : Body) (st : Nat) (ws : List Word) : Body := { b with reply := ⟨st, 0, ws⟩ }

/-! Harts. -/

/-- A thread or Bivouac core that has done nothing since reset: registers 0, free (assumption log 5). -/
def Hart.reset : Hart :=
  { regs := [], pc := 0, flags := ⟨false, false, false, false, false, false, false⟩, phase := .free, halted := false,
    block := .none, item := none, buffer := 0, nextBuffer := 0, loading := none, inTrap := false, trapCause := 0,
    trapPc := 0, trapInsn := 0, trapAddr := 0, graceUsed := 0, rdt := none, timer := none, taskTimer := none,
    inbox := [], reqs := [], staging := [], freeSince := 0, ableSince := 0, heldSince := none, heldNow := 0
    itemsNow := 0, score := [], pendingIe := none, status := 0, stepping := false }

/-- A Runnel context at reset. -/
def RCtx.reset : RCtx :=
  { sregs := [], accs := [], preds := [], rmode := 2, wsat := false, satLanes := 0, dzLanes := 0, owner := none }

def CoreSt.reset : CoreSt := { issuing := none, ctx0 := RCtx.reset, ctx1 := RCtx.reset, lastCommit := 0, spent := 0 }

def Body.hart (b : Body) (h : Nat) : Hart := mapGet Hart.reset h b.isa.harts
def Body.setHart (b : Body) (h : Nat) (x : Hart) : Body := { b with isa.harts := mapPut h x b.isa.harts }
def Body.modHart (b : Body) (h : Nat) (f : Hart → Hart) : Body := b.setHart h (f (b.hart h))
def Body.core (b : Body) (c : Nat) : CoreSt := mapGet CoreSt.reset c b.isa.cores
def Body.setCore (b : Body) (c : Nat) (x : CoreSt) : Body := { b with isa.cores := mapPut c x b.isa.cores }

/-- A message enters an endpoint of a thread. -/
def Hart.push (x : Hart) (ep : Nat) (words : List Word) : Hart :=
  { x with inbox := mapPut ep (mapGet [] ep x.inbox ++ [words]) x.inbox }

/-- A message replaces any unread one of an endpoint (R154). -/
def Hart.replaceMsg (x : Hart) (ep : Nat) (words : List Word) : Hart := { x with inbox := mapPut ep [words] x.inbox }

/-- The unread messages of an endpoint. -/
def Hart.unread (x : Hart) (ep : Nat) : List (List Word) := mapGet [] ep x.inbox

/-- Words that an endpoint holds. -/
def Hart.wordsIn (x : Hart) (ep : Nat) : Nat := ((x.unread ep).map List.length).sum

/-- The requests outstanding on an endpoint: not replied, or replied and not read in full (R153). -/
def Hart.outstanding (x : Hart) (ep : Nat) : Nat :=
  x.reqs.countP (fun r => r.ep == ep) + (x.unread ep).length

/-! Modes (Tables 18.1 and 18.2). -/

/-- Whether some DRAM channel is frozen (R345). -/
def Body.anyFrozen (b : Body) : Bool := (List.range 8).any (fun c => b.fget clsDram (1 + c) FChan.frozen == 1)

/-- Whether the base mode admits the Freeze overlay (Table 18.2: Standby to Bench). -/
def Mode.freezable : Mode → Bool
  | .standby | .service | .degraded | .update | .drain | .bench => true
  | _ => false

/-- The code of the mode shown (R442): Hold over Freeze over the base mode; that of Standby while row 8 of Survey writes
(R453). -/
def Body.modeCode (b : Body) : Nat :=
  if b.sys.row8 then 3
  else if b.sys.base = .cold ∨ b.sys.base = .boot then b.sys.base.code
  else if b.sys.hold then 10
  else if b.sys.base.freezable && b.anyFrozen then 9
  else b.sys.base.code

/-- Whether the mode is Bench (R52, R166). -/
def Body.inBench (b : Body) : Bool := b.modeCode == 8

/-- Whether dispatch, release and Basin cuts run (Table 18.1). -/
def Body.runs (b : Body) : Bool := decide (4 ≤ b.modeCode ∧ b.modeCode ≤ 10)

/-- The base mode changes, which MODE_CHANGES counts (R444). -/
def Body.setBase (b : Body) (m : Mode) : Body :=
  if b.sys.base = m then b
  else ({ b with sys := { b.sys with base := m } }).bump clsPower 0 FPower.modeChanges 1

/-- Service, or Degraded in its place (R443). -/
def Body.serviceMode (b : Body) : Mode :=
  if 0 < b.fget clsOutfall 0 FOut.coresRetired then .degraded else .service

/-! Epochs (R109, R110). -/

/-- IN_FLIGHT of an epoch. -/
def fInFlight (e : Nat) : Fld := if e = 0 then FIntake.inFlight0 else FIntake.inFlight1

/-- Whether an epoch is live (R110): active, with frames in flight, or about to become active by a swap that is pending. -/
def Body.epochLive (b : Body) (e : Nat) : Bool :=
  b.fget clsIntake 0 FIntake.activeEpoch == e || decide (0 < b.fget clsIntake 0 (fInFlight e)) || b.net.swapping

/-- EPOCH_RETIRED (R447): in Update entered by a swap, the base mode returns when the inactive epoch ceases to be
live; an Update entered by a handover ends otherwise. -/
def Body.epochRetired (b : Body) : Body :=
  if b.sys.base = .update ∧ ¬ b.sys.handover ∧ ¬ b.epochLive (1 - b.fget clsIntake 0 FIntake.activeEpoch) then
    b.setBase (if b.sys.prevBase = .service then b.serviceMode else b.sys.prevBase)
  else b

/-- The cycle after an accepted SWAP (R110): ACTIVE_EPOCH changes and SWAPS counts. In Service or Degraded the device
enters Update, which ends when the old epoch is no longer live (R447). -/
def Body.endSwap (b : Body) : Body :=
  if b.net.swapping then
    let a := b.fget clsIntake 0 FIntake.activeEpoch
    let b1 := ({ b with net.swapping := false }.fset clsIntake 0 FIntake.activeEpoch (1 - a)).bump clsIntake 0
      FIntake.swaps 1
    let m := b1.sys.base
    (if m = .service ∨ m = .degraded then { b1 with sys := { b1.sys with prevBase := m } }.setBase .update
     else b1).epochRetired
  else b

/-! Crossings and wake sources. -/

/-- Whether a crossing of Table 17.4 is ready (R437). -/
def Body.crossReady (b : Body) (x : Nat) : Bool := b.fget clsClock (0x100 + x) FCross.ready == 1

/-- Whether the host reaches the device, and the device the host: the PCIe crossings are ready (R437), the device is
not in Cold and the PCIe clock runs (R431). -/
def Body.hostIn (b : Body) : Bool :=
  b.crossReady 0x22 && decide (b.sys.base ≠ .cold) && b.fget clsClock 0 FClock.pcieLost == 0
def Body.hostOut (b : Body) : Bool :=
  b.crossReady 0x23 && decide (b.sys.base ≠ .cold) && b.fget clsClock 0 FClock.pcieLost == 0

/-- The crossings of a line port or the service port. -/
def rxCross (p : Nat) : Nat := if p = 64 then 0x20 else p / 4
def txCross (p : Nat) : Nat := if p = 64 then 0x21 else 0x10 + p / 4

/-- A wake source fires (Table 18.6); an enabled one is kept until it is consumed (R454). -/
def Body.fire (b : Body) (src : Nat) : Body :=
  if (b.fget clsPower 0 FPower.wakeEn).testBit src then { b with adm.fired := b.adm.fired ||| 2 ^ src } else b

/-- Whether the device sleeps: its mode is Dormant and Hold has not woken it (R454, R456). -/
def Body.asleep (b : Body) : Bool := decide (b.sys.base = .dormant) && !b.sys.hold

/-! Interrupt sources (R364). -/

/-- Whether a source is idle. -/
def Body.irqIdle (b : Body) (s : Nat) : Bool :=
  b.fget clsIrq s FIrq.pending == 0 && b.fget clsIrq s FIrq.inService == 0

/-- A ring or an assertion counts from the next cycle on (R364, R369). -/
def Body.irqNote (b : Body) : Body := { b with sync.irqFrom := b.clock + 1 }

/-- A ring of a doorbell source: RINGS saturates, an idle source becomes pending. -/
def Body.ring (b : Body) (s : Nat) : Body :=
  let b1 := b.irqNote.bumpSat clsIrq s FIrq.rings 1
  if b.irqIdle s then b1.fset clsIrq s FIrq.pending 1 else b1

/-- The level of a level source; an asserted level makes an idle source pending. -/
def Body.setLevel (b : Body) (s : Nat) (v : Bool) : Body :=
  let b1 := b.fset clsIrq s FIrq.level (if v then 1 else 0)
  if v && b.irqIdle s then b1.irqNote.fset clsIrq s FIrq.pending 1 else b1

/-! Time. -/

/-- The time base in 2^-16 ns, 64 bits (R31). -/
def Time.now (t : Time) : Nat := t.tb / 2 ^ 16 % 2 ^ 64

/-- `a - c` read as a signed 64-bit value: every comparison of times is made modulo 2^64 (R31). -/
def timeDiff (a c : Nat) : Int := signedOf 64 ((a + 2 ^ 64 - c % 2 ^ 64) % 2 ^ 64)

/-- Whether time `a` is at or after time `c`. -/
def timeReached (a c : Nat) : Bool := decide (0 ≤ timeDiff a c)

/-- `a - c` of tick numbers as a signed 32-bit value (R46). -/
def tickDiff (a c : Nat) : Int := signedOf 32 ((a + 2 ^ 32 - c % 2 ^ 32) % 2 ^ 32)

/-! CRC-32C (R477). -/

/-- One bit of the reflected CRC-32C register. -/
def crcBit (r : Nat) : Nat := if r % 2 = 1 then (r / 2) ^^^ 0x82F63B78 else r / 2

/-- One byte into the CRC register, least significant bit first. -/
def crcByte (r : Nat) (v : Byte) : Nat := Nat.repeat crcBit 8 (r ^^^ v.toNat)

/-- The CRC-32C of bytes from a preset. -/
def crc32c (preset : Nat) (l : List Byte) : Nat := (l.foldl crcByte preset) ^^^ 0xFFFFFFFF

/-! On-chip memories and their spare columns (R326). -/

/-- The size of a memory of Table 12.6 in bytes; 0 for a number that names none. -/
def memBytes (m : Nat) : Nat :=
  if m ≤ 4 ∨ (0x100 ≤ m ∧ m < 0x180) ∨ (0x200 ≤ m ∧ m < 0x210) then memKib m * 1024 else 0

/-- Whether 64 KiB block `k` of a memory has one of its 2 spare columns left, and the use of one. -/
def spareKey (m k : Nat) : Nat := 4096 * m + k
def Body.spareLeft (b : Body) (m k : Nat) : Bool := decide (mapGet 0 (spareKey m k) b.adm.spares < 2)
def Body.useSpare (b : Body) (m k : Nat) : Body :=
  { b with adm.spares := mapPut (spareKey m k) (mapGet 0 (spareKey m k) b.adm.spares + 1) b.adm.spares }.bump clsMemregion m
    FMem.sparesUsed 1

end Sys2Proof.Machine
end

