-- ==== Sys2Proof/Machine/Harts.lean ====
section
/-! DEFINITION. What blocks a thread, when it is able to issue, and messages entering its endpoints
(spec/06, R142, R143, R153 to R159). -/

namespace Sys2Proof.Machine

def coreOf (h : Nat) : Nat := h / 8
def clusterOf (h : Nat) : Nat := h / 64

/-! Blocking and issuing (R142, R143, R155, R159). -/

/-- Whether an endpoint holds an unread message. -/
def Hart.holds (x : Hart) (ep : Nat) : Bool := x.unread ep != []

/-- Whether replies on endpoints 1 to 3 are still outstanding (R200). -/
def Hart.awaits (x : Hart) : Bool := x.reqs.any (fun r => decide (1 ≤ r.ep ∧ r.ep ≤ 3))

/-- Whether what a thread is blocked on still holds it. -/
def Body.blocked (b : Body) (h : Nat) : Bool :=
  let x := b.hart h
  match x.block with
  | .none => false
  | .readEp ep => !x.holds ep
  | .waitMask m => !(List.range 16).any (fun e => m.testBit e && x.holds e)
  | .reqFull ep => decide (4 ≤ x.outstanding ep)
  | .direct _ _ _ _ => true
  | .rbind _ =>
    let c := b.core (coreOf h)
    decide (c.ctx0.owner ≠ some h) && decide (c.ctx1.owner ≠ some h) && c.ctx0.owner.isSome && c.ctx1.owner.isSome
  | .handover _ => true

/-- Able to issue: holds an item and is not blocked, halted or retired (R143). -/
def Body.able (b : Body) (h : Nat) : Bool :=
  let x := b.hart h
  decide (x.phase = .running) && x.item.isSome && !x.halted && !b.blocked h

/-- The cycle of a hart: the clock's own and, of a data-plane thread, the cycles that its core's threads have been charged
(assumption log 12). -/
def Body.cycleOf (b : Body) (h : Nat) : Nat := if h < 1024 then b.clock + (b.core (coreOf h)).spent else b.clock

/-- A thread is able to issue from now on (R143). -/
def Body.nowAble (b : Body) (h : Nat) : Body := b.modHart h (fun x => { x with ableSince := b.cycleOf h })

/-- A message enters an endpoint; a thread that it unblocks is able to issue from now on. -/
def Body.pushMsg (b : Body) (h ep : Nat) (words : List Word) : Body :=
  let b1 := b.modHart h (fun x => x.push ep words)
  if b.blocked h && !b1.blocked h then b1.nowAble h else b1

/-- The same for the endpoints whose unread message is replaced (R154). -/
def Body.putMsg (b : Body) (h ep : Nat) (words : List Word) : Body :=
  let b1 := b.modHart h (fun x => x.replaceMsg ep words)
  if b.blocked h && !b1.blocked h then b1.nowAble h else b1

/-! Regions (R325). -/

/-- The registers of a region. -/
def Body.regionRegs (b : Body) (i : Nat) : RegionRegs :=
  let g := b.fget clsMemregion i
  ⟨g FRegion.en, g FRegion.space, g FRegion.r, g FRegion.w, g FRegion.base, g FRegion.top⟩

/-- A region in force: a write applies from the cycle after it. -/
def Body.region (b : Body) (i : Nat) : RegionRegs :=
  match mapFind i b.isa.regionWas with
  | some e => if e.1 = b.clock then e.2 else b.regionRegs i
  | none => b.regionRegs i

/-- A region is about to be written: what is in force in this cycle is kept. -/
def Body.keepRegion (b : Body) (i : Nat) : Body :=
  { b with isa.regionWas := mapPut i (b.clock, b.region i) b.isa.regionWas }

end Sys2Proof.Machine
end

