-- ==== Sys2Proof/Machine/Memctl.lean ====
section
/-! DEFINITION. Access to external memory: channels, bytes, requester ports and channel queues (spec/13, R335 to R340).
The data effect of a request is made where its unit makes it; the request itself then passes through its port and its
channel's queue, whose commands are in Machine/Dram.lean (assumption log 15). -/

namespace Sys2Proof.Machine

/-- The DRAM object of channel `c`, and of a requester port. -/
def chanInst (c : Nat) : Nat := 1 + c
def portInst (p : Nat) : Nat := 0x100 + p

def Body.dramChannels (b : Body) : Nat := b.fget clsDram 0 FDram.channels
def Body.dramCapacity (b : Body) : Nat := b.fget clsDram 0 FDram.capacityMib * 2 ^ 20

/-- The channel of a DRAM address (R336). -/
def Body.dramChannel (b : Body) (a : Nat) : Nat := a / 256 % b.dramChannels

def Body.frozen (b : Body) (c : Nat) : Bool := b.fget clsDram (chanInst c) FChan.frozen == 1

/-- Whether an access of `n` bytes at `a` needs a frozen channel. -/
def Body.dramHeld (b : Body) (a n : Nat) : Bool :=
  b.anyFrozen && decide (a < b.dramCapacity) &&
    (List.range (min 8 ((a + n - 1) / 256 - a / 256 + 1))).any (fun k => b.frozen (b.dramChannel (a / 256 * 256 + 256 * k)))

/-! Where an access lies (R336, Tables 13.6 and 13.7): the device's own mapping (assumption log 13). -/

/-- Coordinates of a line: subchannel, rank, bank group, bank, column, row. -/
def Body.lineSub (_ : Body) (a : Nat) : Nat := bitsAt (Config.mappingOf (a / 64 * 64)) 0 1
def Body.lineRank (b : Body) (a : Nat) : Nat := bitsAt (Config.mappingOf (a / 64 * 64)) 1 1 * b.fget clsDram 0 FDram.ranksM1
def lineBg (a : Nat) : Nat := bitsAt (Config.mappingOf (a / 64 * 64)) 2 3
def lineBa (a : Nat) : Nat := bitsAt (Config.mappingOf (a / 64 * 64)) 5 2
def lineCol (a : Nat) : Nat := bitsAt (Config.mappingOf (a / 64 * 64)) 7 10
def lineRow (a : Nat) : Nat := bitsAt (Config.mappingOf (a / 64 * 64)) 17 18

/-- The bank of a line, in its channel. -/
def Body.lineBank (b : Body) (a : Nat) : Nat :=
  ((b.lineSub a * 2 + b.lineRank a) * 8 + lineBg a) * 4 + lineBa a

/-! Requests (R338). -/

/-- A request of a port completes: counted, with its age in ns (R339, Table 13.8). -/
def Body.dramDone (b : Body) (p age : Nat) : Body :=
  let b1 := (b.bump clsDram (portInst p) FReqPort.requests 1).raise clsDram (portInst p) FReqPort.maxAgeNs
    (min age (2 ^ 32 - 1))
  if p < 7 ∧ b.fget clsDram (portInst p) FReqPort.targetNs ≤ age then b1.bump clsDram (portInst p) FReqPort.overdue 1
  else b1

def Body.dramQueue (b : Body) (c : Nat) : List DramReq := mapGet [] c b.drm.queues

/-- Every request, in the queues and at the ports. -/
def Body.mapReqs (b : Body) (f : DramReq → DramReq) : Body :=
  { b with
    drm.queues := b.drm.queues.map (fun e => (e.1, e.2.map f))
    drm.waiting := b.drm.waiting.map f }

/-- Whether a request of an access has yet to complete. -/
def Body.dramPending (b : Body) (g : Nat) : Bool :=
  b.drm.queues.any (fun e => e.2.any (fun r => r.group == g)) || b.drm.waiting.any (fun r => r.group == g)

/-- Lines that wait in a channel's write queue, and whether the channel drains it from now on: from 48 lines until 16
(R340). -/
def writesIn (l : List DramReq) : Nat := l.countP (fun r => r.write && !r.issued)
def Body.drainsWith (b : Body) (c : Nat) (l : List DramReq) : Bool :=
  decide (48 ≤ writesIn l) || (b.drm.draining.contains c && decide (16 < writesIn l))

def Body.setDramQueue (b : Body) (c : Nat) (l : List DramReq) : Body :=
  let rest := b.drm.draining.filter (fun k => decide (k ≠ c))
  { b with
    drm.queues := mapPut c l b.drm.queues
    drm.draining := if b.drainsWith c l then c :: rest else rest }

/-- Entries of a port in each channel (Table 13.3); HOST and THREAD entries are those of one tent. -/
def Body.portEntries (b : Body) (p : Nat) : Nat := [64, 64, 32, 16, 64 / b.tents, 64 / b.tents, 16, 4].getD p 0

/-- Whether a request finds a free entry in a channel, and a write a place in its write queue of 64 lines. -/
def Body.entryFree (b : Body) (c : Nat) (r : DramReq) : Bool :=
  decide ((b.dramQueue c).countP (fun x => x.port == r.port && x.use != .writeBack && (r.port != 4 && r.port != 5 || x.tent == r.tent)) <
    b.portEntries r.port) && (!r.write || decide (writesIn (b.dramQueue c) < 64))

/-- Requests that wait at their port take the entries that are free, in arrival order. -/
def Body.admitDram (b : Body) : Body :=
  b.drm.waiting.foldl (fun (x : Body) r =>
    let c := x.dramChannel r.addr
    let blocked := x.drm.waiting.any (fun y => decide (y.num < r.num) && y.port == r.port && y.tent == r.tent && x.dramChannel y.addr == c)
    if x.entryFree c r && !blocked then
      { x.setDramQueue c (x.dramQueue c ++ [{ r with arrival := x.clock }]) with
        drm.waiting := x.drm.waiting.filter (fun y => decide (y.num ≠ r.num)) }
    else x) b

/-- A request arrives. -/
def Body.dramAsk (b : Body) (r : DramReq) : Body := { b with drm.waiting := b.drm.waiting ++ [r] }.admitDram

/-- The lines of an access that exist. -/
def Body.dramLines (b : Body) (a n : Nat) : List Nat :=
  ((List.range ((a + n - 1) / 64 - a / 64 + 1)).map (fun k => 64 * (a / 64 + k))).filter
    (fun x => decide (x < b.dramCapacity ∧ 0 < n))

/-- An access by a port: one request for each line that exists, a write of less than a line as a read-modify-write
(R337). One beyond the capacity reaches no channel, and OUT_OF_POP counts the access (R336). A write's request holds its
line's bytes, a read's those of the whole access. -/
def Body.dramSend (b : Body) (p t a n : Nat) (write : Bool) (use : DramUse) (data : List (Nat × Byte)) : Body :=
  let b1 := (if b.dramCapacity < a + n then b.bump clsDram 0 FDram.outOfPop 1 else b).tick
  (b.dramLines a n).foldl (fun (x : Body) l =>
    x.tick.2.dramAsk ⟨x.tick.1, b1.1, p, t, l, write, use, b.clock, write && !decide (a ≤ l ∧ l + 64 ≤ a + n), false, 0,
      if write then data.filter (fun e => decide (e.1 / 64 * 64 = l)) else data⟩) b1.2

/-- An access whose data effect is made already. -/
def Body.dramPost (b : Body) (p t a n : Nat) (write : Bool) : Body := b.dramSend p t a n write .posted []

/-! Bytes. -/

/-- A byte as the latest earlier write left it, one that waits for a frozen channel included (R337). -/
def Body.dramByte (b : Body) (a : Nat) : Byte :=
  match b.drm.late.find? (fun e => e.1 == a) with
  | some e => e.2
  | none => readByte b.mem.dram a

/-- `n` bytes at `a`; beyond the capacity zeros (R336). -/
def Body.dramBytes (b : Body) (a n : Nat) : List Byte :=
  (List.range n).map (fun k => if a + k < b.dramCapacity then b.dramByte (a + k) else 0)

/-- Bytes written where the memory exists (R336); those of a frozen channel wait for its thaw (R346). -/
def Body.dramPut (b : Body) (a : Nat) (l : List Byte) : Body :=
  let k := l.take (b.dramCapacity - a)
  if !b.anyFrozen then { b with mem.dram := writeBytes b.mem.dram a k }
  else
    let z := k.zipIdx.map (fun e => (a + e.2, e.1))
    let held := fun (e : Nat × Byte) => b.frozen (b.dramChannel e.1)
    { b with
      mem.dram := (z.filter (fun e => !held e)).foldl (fun m e => writeByte m e.1 e.2) b.mem.dram
      drm.late := (z.filter held).reverse ++ b.drm.late }

/-- The writes that a channel kept while it was frozen are made. -/
def Body.dramLate (b : Body) (c : Nat) : Body :=
  let mine := fun (e : Nat × Byte) => b.dramChannel e.1 == c
  { b with
    mem.dram := (b.drm.late.filter mine).foldr (fun e m => writeByte m e.1 e.2) b.mem.dram
    drm.late := b.drm.late.filter (fun e => !mine e) }

/-- Bytes with their addresses. -/
def atAddr (a : Nat) (l : List Byte) : List (Nat × Byte) := l.zipIdx.map (fun e => (a + e.2, e.1))

/-- A read and a write by a requester port, for tent `t`. -/
def Body.dramRead (b : Body) (p t a n : Nat) : List Byte × Body := (b.dramBytes a n, b.dramPost p t a n false)
def Body.dramWrite (b : Body) (p t a : Nat) (l : List Byte) : Body :=
  (b.dramPut a l).dramSend p t a l.length true .posted (atAddr a l)

/-- The first core cycle from `c` on in which a kind 2 lookup may start: at most 4 in any 3 consecutive cycles, in
arrival order (R340). -/
def Body.rateSlot (b : Body) (c : Nat) : Nat :=
  max (max c (b.drm.recent.headD 0)) (match b.drm.recent[3]? with | some k => k + 3 | none => 0)

/-- A kind 2 lookup takes its slot; TABLE_RATE_WAITS counts one that waits. -/
def Body.rateLookup (b : Body) (c : Nat) : Body :=
  let k := b.rateSlot c
  let b1 := { b with drm.recent := (k :: b.drm.recent).take 4 }
  if c < k then b1.bump clsDram 0 FDram.tableRateWaits 1 else b1

end Sys2Proof.Machine
end

