-- ==== Sys2Proof/Machine/Pools.lean ====
section
/-! DEFINITION. Buffer pools: taking, charging, handing off and freeing buffers (spec/12, R305 to R318). -/

namespace Sys2Proof.Machine

/-- Bytes of a buffer of pool `p` (Table 12.1). -/
def poolSize (p : Nat) : Nat := 2 ^ poolSizeLog.getD p 0

/-- Pool and index of a handle (R306). -/
def handlePool (h : Nat) : Nat := h / 2 ^ 29 % 8
def handleIndex (h : Nat) : Nat := h % 2 ^ 29
def mkHandle (p i : Nat) : Nat := p * 2 ^ 29 + i

/-- Whether the pool's buffers carry a reference count (Table 12.1). -/
def pooledByRef (p : Nat) : Bool := decide (6 ≤ p)

def Body.onchipCount (b : Body) (p : Nat) : Nat := b.fget clsPool p FPool.onchipCount
def Body.dramCount (b : Body) (p : Nat) : Nat := b.fget clsPool p FPool.dramCount

/-- How many buffers of pool `p` are in use, on chip and in DRAM. -/
def Body.usedOnchip (b : Body) (p : Nat) : Nat :=
  b.work.bufs.countP (fun e => handlePool e.1 == p && decide (handleIndex e.1 < b.onchipCount p))
def Body.usedDram (b : Body) (p : Nat) : Nat :=
  b.work.bufs.countP (fun e => handlePool e.1 == p && decide (b.onchipCount p ≤ handleIndex e.1))

def Body.freeOnchip (b : Body) (p : Nat) : Nat := b.onchipCount p - b.usedOnchip p
def Body.freeDram (b : Body) (p : Nat) : Nat := b.dramCount p - b.usedDram p

/-- The free packet buffer in KiB (R307). -/
def Body.freeOnchipKib (b : Body) : Nat :=
  ((List.range 8).map (fun p => b.freeOnchip p * poolSize p)).sum / 1024

/-- Entries of the Basin's input queue on chip (R294). -/
def basinOnchip : Nat := 65536

/-- Bytes of Basin entries of a tent that lie in the spill (R294, R295). -/
def Body.spilledBytes (b : Body) (t : Nat) : Nat :=
  32 * (b.bas.queue.drop basinOnchip).countP (fun e => e.tent == t)

/-- Bytes charged to a requester (R312). -/
def Body.charged (b : Body) (c : Charge) : Nat :=
  ((b.work.bufs.filter (fun e => decide (e.2.charge = c))).map (fun e => poolSize (handlePool e.1))).sum +
    (match c with
     | .frame t => b.spilledBytes t
     | _ => 0)

/-- The quota of a requester in bytes (R313). -/
def Body.quota (b : Body) : Charge → Nat
  | .rx => b.work.rxQuota * 1024
  | .bivouac => b.work.bivQuota * 1024
  | .frame t => b.fget clsPool (0x200 + t) FPoolTent.frameQuotaKib * 1024
  | .host t => b.fget clsPool (0x200 + t) FPoolTent.hostQuotaKib * 1024

/-- Whether a charge of `n` bytes fits (R313). -/
def Body.chargeFits (b : Body) (c : Charge) (n : Nat) : Bool := decide (b.charged c + n ≤ b.quota c)

/-- The first index at or cyclically after `r` that is not in use, of `count` indices from `base`. -/
def Body.freeIndex (b : Body) (p base count r : Nat) : Option Nat :=
  ((List.range (b.work.bufs.length + 1)).map (fun k => base + (r + k) % count)).find?
    (fun i => !mapHas (mkHandle p i) b.work.bufs)

/-- A free handle of pool `p`: on chip where one is free, else in DRAM while OVERFLOW_EN = 1 (R306, R307). Which free
buffer is the device's choice: a free value (assumption log 7). -/
def Body.pickHandle (b : Body) (p r : Nat) : Option Nat :=
  if 0 < b.freeOnchip p then (b.freeIndex p 0 (b.onchipCount p) r).map (mkHandle p)
  else if b.fget clsPool 0x100 FPoolDev.overflowEn = 1 ∧ 0 < b.freeDram p then
    (b.freeIndex p (b.onchipCount p) (b.dramCount p) r).map (mkHandle p)
  else none

/-- Whether pool `p` can hand out a buffer. -/
def Body.poolHasFree (b : Body) (p : Nat) : Bool :=
  decide (0 < b.freeOnchip p) ||
    (b.fget clsPool 0x100 FPoolDev.overflowEn == 1 && decide (0 < b.freeDram p))

/-- LOW_WATER keeps the fewest free buffers (Table 12.8). -/
def Body.noteLowWater (b : Body) (p : Nat) : Body :=
  b.fset clsPool p FPool.lowWater (min (b.fget clsPool p FPool.lowWater) (b.freeOnchip p + b.freeDram p))

def Body.setBuf (b : Body) (h : Nat) (x : Buf) : Body := { b with work.bufs := mapPut h x b.work.bufs }
def Body.delBuf (b : Body) (h : Nat) : Body := { b with work.bufs := mapDel h b.work.bufs }
def Body.buf? (b : Body) (h : Nat) : Option Buf := mapFind h b.work.bufs

/-- Whether a handle names a DRAM buffer, and where it lies (R306). -/
def Body.bufInDram (b : Body) (h : Nat) : Bool := decide (b.onchipCount (handlePool h) ≤ handleIndex h)
def Body.bufAddr (b : Body) (h : Nat) : Nat :=
  let p := handlePool h
  b.fget clsPool 0x100 FPoolDev.overflowBase + ((List.range p).map (fun q => b.dramCount q * poolSize q)).sum +
    (handleIndex h - b.onchipCount p) * poolSize p

/-- Whether a buffer lies behind a frozen channel (R48, R307). -/
def Body.bufHeld (b : Body) (h : Nat) : Bool := b.bufInDram h && b.dramHeld (b.bufAddr h) (poolSize (handlePool h))

/-- The bytes of a frame in a buffer. -/
def Body.bufData (b : Body) (h : Nat) : List Byte :=
  match b.buf? h with
  | some x => if b.bufInDram h then b.dramBytes (b.bufAddr h) x.data.length else x.data
  | none => []

/-- A unit reads `n` bytes of a buffer from `off`: a request of the BUFFER port where it lies in DRAM (Table 13.3). -/
def Body.bufRead (b : Body) (h off n : Nat) : Body :=
  if b.bufInDram h then b.dramPost 0 0 (b.bufAddr h + off) n false else b

/-- Bytes enter a buffer: in DRAM at its address, where the record keeps their number only. -/
def Body.bufFill (b : Body) (h : Nat) (x : Buf) (l : List Byte) : Body :=
  if b.bufInDram h then (b.setBuf h { x with data := List.replicate l.length 0 }).dramWrite 0 0 (b.bufAddr h) l
  else b.setBuf h { x with data := l }

def Body.putBuf (b : Body) (h : Nat) (l : List Byte) : Body :=
  match b.buf? h with
  | some x => b.bufFill h x l
  | none => b

/-- A buffer of pool `p` is taken with an owner (or a count of 1), a charge and bytes; `none` where none is free. -/
def Body.takeBuf (b : Body) (p : Nat) (o : Owner) (c : Charge) (data : List Byte) : Option (Nat × Body) :=
  let (r, b1) := b.fresh
  match b.pickHandle p r with
  | some h => some (h, (b1.bufFill h ⟨o, 1, c, false, []⟩ data).noteLowWater p)
  | none => none

/-- The smallest pool whose buffers hold `n` bytes (R310, R311). -/
def smallestPool (n : Nat) : Option Nat := (List.range 8).find? (fun p => decide (n ≤ poolSize p))

/-- Whether a handle names a buffer of its pool (R306). -/
def Body.handleOk (b : Body) (h : Nat) : Bool :=
  decide (handleIndex h < b.onchipCount (handlePool h) + b.dramCount (handlePool h))

/-- A free by `who` (R315), or a decrement of the reference count (R316). -/
def Body.freeBuf (b : Body) (h : Nat) (who : Owner) : Nat × Body :=
  let p := handlePool h
  if !b.handleOk h then (stOutOfRange, b)
  else match b.buf? h with
    | none =>
      if pooledByRef p then (stNotOwner, b.bump clsPool p FPool.doubleFree 1)
      else (stNotOwner, (b.bump clsPool p FPool.doubleFree 1))
    | some x =>
      if pooledByRef p then
        (stOk, if x.refs ≤ 1 then b.delBuf h else b.setBuf h { x with refs := x.refs - 1 })
      else if x.owner = who then (stOk, b.delBuf h)
      else (stNotOwner, b.bump clsPool p FPool.notOwner 1)

/-- A handoff from `a` to `c` (R315); a pool of reference counts changes no owner. -/
def Body.handoff (b : Body) (h : Nat) (a c : Owner) : Nat × Body :=
  let p := handlePool h
  if !b.handleOk h then (stOutOfRange, b)
  else if pooledByRef p then (stOk, b)
  else match b.buf? h with
    | some x =>
      if x.owner = a then (stOk, b.setBuf h { x with owner := c })
      else (stNotOwner, b.bump clsPool p FPool.notOwner 1)
    | none => (stNotOwner, b.bump clsPool p FPool.notOwner 1)

/-- An increment of a reference count (R316). -/
def Body.addRef (b : Body) (h : Nat) : Nat × Body :=
  let p := handlePool h
  match b.buf? h with
  | some x =>
    if 65535 ≤ x.refs then (stRefusedShare, b.bump clsPool p FPool.refSaturated 1)
    else (stOk, b.setBuf h { x with refs := x.refs + 1 })
  | none => (stNotOwner, b.bump clsPool p FPool.notOwner 1)

/-- The buffer's charge moves to another requester. -/
def Body.recharge (b : Body) (h : Nat) (c : Charge) : Body :=
  match b.buf? h with
  | some x => b.setBuf h { x with charge := c }
  | none => b

/-- A buffer of a tent is taken by smallest fit whatever the quota (R301, R314): FORCED_OVER counts a charge that
does not fit. -/
def Body.takeForced (b : Body) (t n : Nat) (data : List Byte) : Option (Nat × Body) :=
  match smallestPool n with
  | none => none
  | some p =>
    let b1 := if b.chargeFits (.frame t) (poolSize p) then b
              else b.bump clsPool (0x200 + t) FPoolTent.forcedOver 1
    b1.takeBuf p .egress (.frame t) data

/-- CAPACITY_KIB of R313 from the values standing now. -/
def Body.capacityKib (b : Body) : Nat :=
  let ov := b.fget clsPool 0x100 FPoolDev.overflowEn
  (((List.range 8).map (fun p => b.onchipCount p * poolSize p + ov * b.dramCount p * poolSize p)).sum) / 1024

/-- The quotas of one tent (R313). -/
def Body.tentQuota (b : Body) (q : Nat) (t : Nat) : Body :=
  let hq := q * b.fget clsPool (0x200 + t) FPoolTent.hostShare / 65536
  ((b.fset clsPool (0x200 + t) FPoolTent.quotaKib q).fset clsPool (0x200 + t) FPoolTent.hostQuotaKib hq).fset
    clsPool (0x200 + t) FPoolTent.frameQuotaKib (q - hq)

/-- QUOTA_RECOMPUTE (R313): at a boundary, capacity and quotas from the values standing then. -/
def Body.quotaRecompute (b : Body) : Body :=
  let cap := b.capacityKib
  let rx := b.fget clsPool 0x100 FPoolDev.rxQuotaKib
  let bv := b.fget clsPool 0x100 FPoolDev.bivQuotaKib
  let b1 := { (b.fset clsPool 0x100 FPoolDev.capacityKib cap) with
    work.rxQuota := rx, work.bivQuota := bv }
  (List.range b.tents).foldl (fun x t => x.tentQuota ((cap - rx - bv) / b.tents) t) b1

/-- Bytes `off` to `off + n - 1` of a frame of `len` bytes in a buffer; bytes at or beyond LENGTH read 0 (R198). -/
def frameBytes (data : List Byte) (len off n : Nat) : List Byte :=
  (List.range n).map (fun k => if off + k < len then data.getD (off + k) 0 else 0)

end Sys2Proof.Machine
end

