-- ==== Sys2Proof/Machine/TimeBase.lean ====
section
/-! DEFINITION. The time base and the tick generator (spec/02_sluice_tick.md, R31 to R44). -/

namespace Sys2Proof.Machine

/-- D of R35: what one cycle slews, when a cycle advances the time base by `r`. -/
def slewPerCycle (r ppm : Nat) : Nat := r * ppm / 1000000

/-- How far `n` cycles of `r` each take the time base, and the slew that remains after them (R34, R35). -/
def slewSpan (r ppm : Nat) (rem : Int) (n : Nat) : Nat × Int :=
  let d := slewPerCycle r ppm
  let k := ceilDiv rem.natAbs d
  if rem = 0 then (n * r, 0)
  else if n < k then
    if 0 < rem then (n * (r + d), rem - n * d) else (n * (r - d), rem + n * d)
  else (((n * r : Nat) + rem).toNat, 0)

/-- `n` clock cycles of `r` each; ERA counts the wraps of the nanosecond part (R31). -/
def Time.advance (t : Time) (r n : Nat) : Time :=
  let sp := slewSpan r t.slewPpm t.slewRem n
  { t with
    tb := (t.tb + sp.1) % 2 ^ 80
    turns := t.turns + (t.tb + sp.1) / 2 ^ 80
    era := addFree 32 t.era ((t.tb + sp.1) / 2 ^ 80)
    slewRem := sp.2
    cycle := t.cycle + n }

/-- The fewest cycles of `r` each that take the time base `dn` or more. -/
def spanCount (r ppm : Nat) (rem : Int) (dn : Nat) : Nat :=
  let d := slewPerCycle r ppm
  let k := ceilDiv rem.natAbs d
  if rem = 0 then ceilDiv dn r
  else
    let r' := if 0 < rem then r + d else r - d
    if ceilDiv dn r' < k then ceilDiv dn r' else k + ceilDiv (dn - ((k * r : Nat) + rem).toNat) r

/-- The fewest cycles of `r` each after which the time base is at or after `target` (2^-16 ns, R40). -/
def Time.cyclesTo (t : Time) (r target : Nat) : Nat :=
  let dn := (target * 2 ^ 16 + 2 ^ 80 - t.tb) % 2 ^ 80
  if 2 ^ 79 < dn then 0 else spanCount r t.slewPpm t.slewRem dn

/-- The step of the clock: RATE per core cycle, 15 × RATE per MGMT cycle in Dormant (R34, R427). -/
def clockRate (t : Time) (asleep : Bool) : Nat := if asleep then 15 * t.rate else t.rate

/-- The watchdog of a core counts from its latest core commit or its latest cycle without a thread able to issue
(R164): as cycles pass up to `cycle`, the cores without such a thread start anew. -/
def Body.watchCores (b : Body) (cycle : Nat) : Body :=
  { b with
    clock := cycle
    isa.cores := b.isa.cores.map (fun e =>
      if (List.range 8).any (fun i => b.able (8 * e.1 + i)) then e else (e.1, { e.2 with lastCommit := cycle })) }

/-- With the PCIe clock stopped, every core cycle in which something waits to cross counts in STALL_CYCLES of the crossing
(R432): reads of TX-ring frames, and MSI-X messages. -/
def Body.stallPcie (b : Body) (n : Nat) : Body :=
  if b.fget clsClock 0 FClock.pcieLost = 0 ∨ b.asleep ∨ n = 0 then b
  else
    let b1 := if b.host.tx.any (fun x => decide (x.stage = .reading)) then b.bump clsClock 0x122 FCross.stallCycles n else b
    if b1.host.held.isEmpty then b1 else b1.bump clsClock 0x123 FCross.stallCycles n

/-- The device after `n` clock cycles in which nothing else happens; in Cold no clock runs (R43). -/
def Dev.wait (d : Dev) (n : Nat) : Dev :=
  if d.b.sys.base = .cold then d
  else
    let t := d.tm.advance (clockRate d.tm d.b.asleep) n
    ⟨t, ((if n = 0 then d.b else d.b.endSwap).stallPcie n).watchCores t.cycle⟩

/-- The device in the first cycle whose time is at or after `target`, the present one counted (log entry 1). -/
def Dev.waitUntil (d : Dev) (target : Nat) : Dev :=
  d.wait (d.tm.cyclesTo (clockRate d.tm d.b.asleep) target)

/-- The device in the first cycle whose time is at or after `target`: the present one counted, but for the cycle of a
re-arm, which no boundary of the new grid shares (R40, R41). -/
def Dev.waitPast (d : Dev) (target : Nat) : Dev :=
  let n := d.tm.cyclesTo (clockRate d.tm d.b.asleep) target
  d.wait (if d.tm.armCycle = d.tm.cycle then max 1 n else n)

/-- The device `c` core cycles after core cycle `from0`, or now if that has passed. -/
def Dev.waitCycle (d : Dev) (c : Nat) : Dev := d.wait (c - d.tm.cycle)

/-- The period in 2^-16 ns. -/
def Time.period16 (t : Time) : Nat := t.period * 2 ^ 16

/-- A time of 64 bits without its modulus: the one nearest to the present time (R31). -/
def Time.fullOf (t : Time) (x : Nat) : Int := t.turns * 2 ^ 64 + t.now + timeDiff x t.now

/-- Re-arming from ANCHOR at the present time (R41). The new grid lies at the next boundary, which is not before now. -/
def Time.rearm (t : Time) : Time :=
  let d := timeDiff t.now t.anchor
  let k := if d < 0 then 0 else ceilDiv d.toNat t.period16
  let nb := (t.anchor + k * t.period16) % 2 ^ 64
  let nt := (t.anchorTick + k) % 2 ^ 32
  { t with nextBoundary := nb, nextTick := nt, pendingChange := 0, armCycle := t.cycle
           grids := [⟨t.turns * 2 ^ 64 + t.now + ((nb + 2 ^ 64 - t.now) % 2 ^ 64 : Nat), nt, t.period⟩] }

/-- A step of the time base by a signed number of 2^-16 ns (R31, R36), with the re-arm it makes. -/
def Time.step (t : Time) (v : Int) : Time :=
  let x : Int := t.tb + v * 2 ^ 16
  let t1 := { t with
    tb := (x % 2 ^ 80).toNat
    era := if x < 0 then (if t.era = 0 then lowBits 32 (Config.counterOver 32 0) else t.era - 1)
           else addFree 32 t.era (x / 2 ^ 80).toNat }
  t1.rearm

/-- Actions 1 and 2 of Table 2.1: the tick number, the boundary, and a scheduled period change (R42). -/
def Time.cut (t : Time) : Time :=
  let t1 := { t with tickNumber := t.nextTick, boundary := t.nextBoundary }
  let t2 :=
    if t1.pendingChange = 1 ∧ t1.tickNumber = t1.applyTick then
      { t1 with
        anchor := t1.boundary, anchorTick := t1.tickNumber, period := t1.periodNext, pendingChange := 0
        grids := (⟨t1.fullOf t1.boundary, t1.tickNumber, t1.periodNext⟩ :: t1.grids).take 4 }
    else t1
  { t2 with nextBoundary := (t2.boundary + t2.period16) % 2 ^ 64, nextTick := (t2.tickNumber + 1) % 2 ^ 32 }

/-- A write of RATE (R34): status and time. -/
def Time.writeRate (t : Time) (v : Nat) : Nat × Time :=
  if 2861879875 ≤ v ∧ v ≤ 2864743187 then (stOk, { t with rate := v }) else (stOutOfRange, t)

/-- A write of SLEW: the signed offset in ns is added to the remainder (R35). -/
def Time.writeSlew (t : Time) (v : Nat) : Nat × Time :=
  let r := t.slewRem + signedOf 32 v * 2 ^ 32
  if -(2 ^ 31) * 2 ^ 32 ≤ r ∧ r ≤ (2 ^ 31 - 1) * 2 ^ 32 then (stOk, { t with slewRem := r }) else (stOutOfRange, t)

/-- The modes in which a step and an ARM are accepted (R36, R41): Boot, Survey, Standby, Dormant. -/
def stepMode (code : Nat) : Bool := code == 1 || code == 2 || code == 3 || code == 11

/-- STEP performed in the mode shown (R36). -/
def Time.writeStep (t : Time) (code v : Nat) : Nat × Time :=
  if stepMode code then (stOk, t.step (signedOf 64 v)) else (stNotInMode, t)

/-- A write of 1 to ARM (R41). -/
def Time.writeArm (t : Time) (code : Nat) : Nat × Time :=
  if stepMode code then (stOk, t.rearm) else (stNotInMode, t)

/-- A write of PERIOD_NEXT (R42). -/
def Time.writePeriodNext (t : Time) (v : Nat) : Nat × Time :=
  if v < 4000 ∨ 1000000 < v then (stOutOfRange, t)
  else if t.pendingChange = 1 then (stBusy, t)
  else (stOk, { t with periodNext := v })

/-- A write of APPLY_TICK (R42): 2 to 2^31 - 1 ticks ahead, and no change pending. -/
def Time.writeApplyTick (t : Time) (v : Nat) : Nat × Time :=
  let ahead := (v + 2 ^ 32 - t.tickNumber % 2 ^ 32) % 2 ^ 32
  if ahead < 2 ∨ 2 ^ 31 ≤ ahead then (stOutOfRange, t)
  else if t.pendingChange = 1 then (stBusy, t)
  else (stOk, { t with applyTick := v % 2 ^ 32, pendingChange := 1 })

/-- PPS_OUT_NEXT advanced by whole periods to the first time not in the past (R39). -/
def Time.ppsAhead (t : Time) (v : Nat) : Nat :=
  let d := timeDiff t.now v
  if d ≤ 0 then v % 2 ^ 64
  else (v + ceilDiv d.toNat (t.ppsOutPeriod * 2 ^ 16) * (t.ppsOutPeriod * 2 ^ 16)) % 2 ^ 64

/-- A write of PPS_OUT_NEXT (R39). -/
def Time.writePpsNext (t : Time) (v : Nat) : Time := { t with ppsOutNext := t.ppsAhead v }

/-- A write of PPS_OUT_EN (R39). -/
def Time.writePpsEn (t : Time) (v : Nat) : Time :=
  if v = 1 ∧ t.ppsOutEn = 0 then { t with ppsOutEn := 1, ppsOutNext := t.ppsAhead t.ppsOutNext }
  else { t with ppsOutEn := v % 2 }

/-- Whole nanoseconds still to slew, truncated toward zero (R35). -/
def Time.slewRemain (t : Time) : Nat := codeOf 32 (t.slewRem.tdiv (2 ^ 32))

/-- The value of a TICK[0] field held in the time base record (Table 2.3), `none` for its event counters. -/
def Time.field (t : Time) (f : Fld) : Option Nat :=
  if f = FTick.time then some t.now
  else if f = FTick.era then some t.era
  else if f = FTick.rate then some t.rate
  else if f = FTick.step ∨ f = FTick.slew ∨ f = FTick.arm then some 0
  else if f = FTick.slewRemain then some t.slewRemain
  else if f = FTick.slewPpm then some t.slewPpm
  else if f = FTick.syncState then some t.syncState
  else if f = FTick.ppsInTime then some t.ppsInTime
  else if f = FTick.ppsInCount then some t.ppsInCount
  else if f = FTick.ppsOutNext then some t.ppsOutNext
  else if f = FTick.ppsOutPeriod then some t.ppsOutPeriod
  else if f = FTick.ppsOutWidth then some t.ppsOutWidth
  else if f = FTick.ppsOutEn then some t.ppsOutEn
  else if f = FTick.ppsInEn then some t.ppsInEn
  else if f = FTick.period then some t.period
  else if f = FTick.periodNext then some t.periodNext
  else if f = FTick.applyTick then some t.applyTick
  else if f = FTick.pending then some t.pendingChange
  else if f = FTick.tickNumber then some t.tickNumber
  else if f = FTick.anchor then some t.anchor
  else if f = FTick.anchorTick then some t.anchorTick
  else if f = FTick.boundary then some t.boundary
  else none

/-- The tick grid that R293 chooses for a time, and whether it is extended backward. -/
def Time.gridOf (t : Time) (x : Int) : Grid × Bool :=
  match t.grids.find? (fun g => decide (g.anchor ≤ x)) with
  | some g => (g, false)
  | none => (t.grids.getLastD ⟨t.anchor, t.anchorTick, t.period⟩, true)

/-- The number n of the tick that holds a time (R40), negative before ANCHOR. -/
def Grid.nth (g : Grid) (x : Int) : Int := (x - g.anchor) / (g.period * 2 ^ 16 : Nat)

/-- TICK and SUB_TICK of a time in a grid (R293). -/
def Grid.tickOf (g : Grid) (x : Int) : Nat × Nat :=
  let p : Int := (g.period * 2 ^ 16 : Nat)
  (codeOf 32 (g.anchorTick + g.nth x), ((x - (g.anchor + g.nth x * p)) * 65536 / p).toNat)

/-- The home tick of a time (R24), and the end of the tick after it, the commit deadline. -/
def Time.homeTick (t : Time) (x : Nat) : Nat := ((t.gridOf (t.fullOf x)).1.tickOf (t.fullOf x)).1

/-- The end of the tick that holds `x`: where a later grid begins in that tick, its anchor is the boundary that ends
it. -/
def Time.tickEnd (t : Time) (x : Int) : Int :=
  let g := (t.gridOf x).1
  g.anchor + (g.nth x + 1) * (g.period * 2 ^ 16 : Nat)

/-- The commit deadline (R24): the end of the tick after the home tick. -/
def Time.deadline (t : Time) (x : Nat) : Nat := codeOf 64 (t.tickEnd (t.tickEnd (t.fullOf x)))

/-! Commands on the balls PPS_IN and PPS_OUT, and the wrap of the time base. -/

/-- What an edge of the present cycle captures (R38): the interpolated time `x` where that lies in this cycle, to
±2 ns; the time base itself otherwise. -/
def Time.capture (t : Time) (r x : Nat) : Nat :=
  if -((r / 2 ^ 16 + 2 ^ 17 : Nat) : Int) ≤ timeDiff x t.now ∧ timeDiff x t.now ≤ 2 ^ 17 then x else t.now

/-- PPS_IN_EDGE (R38): with PPS_IN_EN = 1 the time base at the edge, interpolated, is captured and counted. -/
def execPpsInEdge (t : BitVec 64) (s : State) : Host.Outcome State Fault Refusal :=
  onDev (fun d =>
    if d.tm.ppsInEn = 1 ∧ d.b.sys.base ≠ .cold then
      { d with
        tm := { d.tm with ppsInTime := d.tm.capture (clockRate d.tm d.b.asleep) t.toNat, ppsInCount := (d.tm.ppsInCount + 1) % 2 ^ 32 }
        b := d.b.fire 4 }
    else d) s

/-- PPS_OUT_EDGE (R39): the time base reaches PPS_OUT_NEXT, PPS_OUT rises and the next edge lies one period later. -/
def execPpsOutEdge (s : State) : Host.Outcome State Fault Refusal :=
  onDev (fun d =>
    if d.tm.ppsOutEn = 1 ∧ d.b.sys.base ≠ .cold then
      let d1 := d.waitUntil d.tm.ppsOutNext
      { d1 with
        tm := { d1.tm with
          ppsFall := some ((d.tm.ppsOutNext + d.tm.ppsOutWidth * 2 ^ 16) % 2 ^ 64)
          ppsOutNext := (d.tm.ppsOutNext + d.tm.ppsOutPeriod * 2 ^ 16) % 2 ^ 64 } }
    else d) s

/-- PPS_OUT_FALL (R39): PPS_OUT_WIDTH ns after the rising edge PPS_OUT falls. -/
def execPpsOutFall (s : State) : Host.Outcome State Fault Refusal :=
  onDev (fun d =>
    match d.tm.ppsFall with
    | some x => let d1 := d.waitUntil x; { d1 with tm := { d1.tm with ppsFall := none } }
    | none => d) s

/-- TIME_BASE_WRAP (R31): the time base runs on to the wrap of its nanosecond part, where ERA increments. -/
def execTimeBaseWrap (s : State) : Host.Outcome State Fault Refusal :=
  onDev (fun d => d.wait (spanCount (clockRate d.tm d.b.asleep) d.tm.slewPpm d.tm.slewRem (2 ^ 80 - d.tm.tb))) s

end Sys2Proof.Machine
end

