-- ==== Sys2Proof/Machine/Queues.lean ====
section
/-! DEFINITION. Queues, tasks and their event flags, ready lists, the budget banks and the epochs' counts
(spec/05, R119 to R136; spec/02, R45 to R49; spec/04, R109). -/

namespace Sys2Proof.Machine

def Body.nLogN (b : Body) : Nat := b.sys.nLog.val

/-! Chains. -/

def Body.chain (b : Body) (q : Nat) : List Elem := mapGet [] q b.work.chains
def Body.depth (b : Body) (q : Nat) : Nat := (b.chain q).length
def Body.setChain (b : Body) (q : Nat) (l : List Elem) : Body :=
  { b with work.chains := if l = [] then mapDel q b.work.chains else mapPut q l b.work.chains }

/-- What an element of a chain holds. -/
def Body.elem? (b : Body) : Elem → Option Held
  | .slot n => mapFind n b.work.slots
  | .record n => mapFind n b.work.records

/-- The effective weir level of a queue (R122). -/
def Body.weir (b : Body) (q : Nat) : Nat := min (b.fget clsQueue q FQueue.weirLevel) (524288 / b.tents)

/-! Event flags (R126, R127). -/

/-- The number of boundaries at which flag 1 of the queue counts as cleared. -/
def Body.tickClearedAt (b : Body) (q : Nat) : Nat :=
  match mapFind q b.work.tickClears with
  | some n => n
  | none => ((b.work.tickFloors.find? (fun r => decide (r.1 ≤ q ∧ q < r.2.1))).map (fun r => r.2.2)).getD 0

/-- FLAGS of a queue: bit 0 while DEPTH > 0, bit 1 set at every boundary, the others as set and cleared. -/
def Body.flags (b : Body) (q : Nat) : Nat :=
  let st := b.fget clsQueue q FQueue.flags / 2 * 2
  let tk := if b.tickClearedAt q < b.work.tickSets then 2 else 0
  st ||| tk ||| (if b.chain q = [] then 0 else 1)

/-- Whether a task is ready (R128); a queue stopped by a memory error dispatches nothing (R321). -/
def Body.isReady (b : Body) (q : Nat) : Bool :=
  let m := b.fget clsQueue q FQueue.mask
  (b.flags q &&& m) == m && decide (b.fget clsQueue q FQueue.inService < b.fget clsQueue q FQueue.concurrencyM1 + 1) &&
    !b.work.stopped.contains q

/-- The ready lists follow a change of a queue's readiness (R130): it joins at the tail, or leaves. -/
def Body.syncReady (b : Body) (q : Nat) : Body :=
  if b.isReady q then (if b.work.ready.contains q then b else { b with work.ready := b.work.ready ++ [q] })
  else { b with work.ready := b.work.ready.filter (fun x => decide (x ≠ q)) }

/-- Flags of a task set (bit 0 is ignored). -/
def Body.setFlags (b : Body) (q bits : Nat) : Body :=
  (b.fset clsQueue q FQueue.flags (b.fget clsQueue q FQueue.flags ||| (bits / 2 * 2))).syncReady q

/-- The queue that is the target of an interrupt source (R365). -/
def Body.irqQueue (b : Body) (s : Nat) : Nat :=
  queueBase b.nLogN (b.fget clsIrq s FIrq.targetTent) + b.fget clsIrq s FIrq.target

/-- Completion of a source (R368): out of service, then sampled again. -/
def Body.irqComplete (b : Body) (s : Nat) : Body :=
  let b1 := b.fset clsIrq s FIrq.inService 0
  if b1.fget clsIrq s FIrq.sense = 1 then
    (if b1.fget clsIrq s FIrq.level = 1 then b1.fset clsIrq s FIrq.pending 1 else b1)
  else if 0 < b1.fget clsIrq s FIrq.rings then b1.fset clsIrq s FIrq.pending 1 else b1

/-- The sources that have a state of their own, in rising order. -/
def Body.irqListed (b : Body) : List Nat :=
  (b.fields.filter (fun e => decide (e.1 / 2 ^ 40 = clsIrq ∧ e.1 / 2 ^ 16 % 2 ^ 24 < 4096 ∧
    (e.1 % 2 ^ 16 = FIrq.inService.lo ∨ e.1 % 2 ^ 16 = FIrq.pending.lo) ∧ e.2 = 1))).map
      (fun e => e.1 / 2 ^ 16 % 2 ^ 24)

/-- The clearing of flag 6 of a queue completes every source in service to it (R368). -/
def Body.completeTask (b : Body) (q : Nat) : Body :=
  (b.irqListed.filter (fun s => b.fget clsIrq s FIrq.inService == 1 && b.fget clsIrq s FIrq.targetKind == 1 &&
    b.irqQueue s == q)).foldl (fun x s => x.irqComplete s) b

/-- Flags of a task cleared, by any means of R127. -/
def Body.clearFlags (b : Body) (q bits : Nat) : Body :=
  let cur := b.fget clsQueue q FQueue.flags
  let b1 := b.fset clsQueue q FQueue.flags (cur - (cur &&& bits))
  let b2 := if bits.testBit 1 then { b1 with work.tickClears := mapPut q b1.work.tickSets b1.work.tickClears } else b1
  let b3 := if cur.testBit 6 && bits.testBit 6 then b2.completeTask q else b2
  b3.syncReady q

/-- Action 6 of Table 2.1 for tasks: flag 1 of every task is set; tasks whose mask names it may become ready. -/
def Body.postTick (b : Body) : Body :=
  let b1 := { b with work.tickSets := b.work.tickSets + 1 }
  let qs := (b1.fields.filter (fun e => decide (e.1 / 2 ^ 40 = clsQueue ∧ e.1 % 2 ^ 16 = FQueue.mask.lo))).map
    (fun e => e.1 / 2 ^ 16 % 2 ^ 24)
  qs.foldl (fun x q => x.syncReady q) b1

/-! Enqueue and dequeue (R117, R120, R123). -/

/-- An element joins the tail of a queue; HIGH_WATER follows DEPTH. -/
def Body.enqueue (b : Body) (q : Nat) (e : Elem) : Body :=
  let b1 := b.setChain q (b.chain q ++ [e])
  (b1.raise clsQueue q FQueue.highWater (b1.depth q)).syncReady q

/-- OVER_SHARE clears in the first cycle in which DEPTH < E (R123). -/
def Body.checkUnder (b : Body) (q : Nat) : Body :=
  if b.fget clsQueue q FQueue.overShare = 1 ∧ b.depth q < b.weir q then b.fset clsQueue q FQueue.overShare 0 else b

/-- After a change of E from `old`: OVER_SHARE sets where E has become less than DEPTH (R123). Where it is still set from
before (E had risen to DEPTH itself meanwhile), no second event is counted, which R123 does not say (DESIGN CHOICE;
assumption log 144). -/
def Body.checkOver (b : Body) (q old : Nat) : Body :=
  if b.fget clsQueue q FQueue.overShare = 0 ∧ b.weir q < b.depth q ∧ b.depth q ≤ old then
    (b.fset clsQueue q FQueue.overShare 1).bump clsFurrow (b.fget clsQueue q FQueue.homeFurrow) FFurrow.overShareEvents 1
  else b.checkUnder q

/-- The head of a queue leaves it. -/
def Body.dequeue (b : Body) (q : Nat) : Option Elem × Body :=
  match b.chain q with
  | [] => (none, b)
  | e :: r => (some e, ((b.setChain q r).checkUnder q).syncReady q)

/-! Slots and records: which free one is taken is the device's choice (assumption log 8). -/

/-- A free number below `count`, at or cyclically after `r`. -/
def freeNumber {α : Type} (m : SMap α) (count r : Nat) : Option Nat :=
  ((List.range (m.length + 1)).map (fun k => (r + k) % count)).find? (fun i => !mapHas i m)

/-- A descriptor slot is taken (R119). -/
def Body.takeSlot (b : Body) (x : Held) : Option (Nat × Body) :=
  let (r, b1) := b.fresh
  (freeNumber b1.work.slots 524288 r).map (fun n => (n, { b1 with work.slots := mapPut n x b1.work.slots }))

/-- The descriptor slot of a tent is given back (R119, R242). -/
def Body.giveSlot (b : Body) (n t : Nat) : Body :=
  (({ b with work.slots := mapDel n b.work.slots }).drop clsHeadgate (1 + t) FHead.descUsed 1).drop
    clsHeadgate 0 FHead.descUsed 1

/-- Whether a tent has an exception record free (R245): its share is not used up, nor the store by a tent that a
re-pitch has left above its share. -/
def Body.recordFree (b : Body) (t : Nat) : Bool :=
  decide (b.fget clsOutfall (1 + t) FOut.excUsed < 65536 / b.tents) && (freeNumber b.work.records 65536 0).isSome

/-- An exception record is taken and charged to its tent (R245). -/
def Body.takeRecord (b : Body) (x : Held) : Option (Nat × Body) :=
  let (r, b1) := b.fresh
  (freeNumber b1.work.records 65536 r).map (fun n =>
    (n, (({ b1 with work.records := mapPut n x b1.work.records }).bump clsOutfall (1 + x.desc.tent) FOut.excUsed 1).bump
      clsOutfall 0 FOut.excUsed 1))

/-- A record is given back (R246). -/
def Body.giveRecord (b : Body) (n t : Nat) : Body :=
  (({ b with work.records := mapDel n b.work.records }).drop clsOutfall (1 + t) FOut.excUsed 1).drop
    clsOutfall 0 FOut.excUsed 1

/-! Budget banks (R45 to R49). -/

/-- The TICK instance of class `c` of tent `t` (R53). -/
def classInst (t c : Nat) : Nat := 1 + 8 * t + c

/-- Data-plane cores not retired. -/
def Body.liveCores (b : Body) : Nat := 128 - b.fget clsOutfall 0 FOut.coresRetired

def Body.tentCycles (b : Body) (period : Nat) : Nat := b.liveCores * 3 * period / (2 * b.tents)
def Body.tentFrames (b : Body) (period : Nat) : Nat := b.liveCores * 2 * period / (128 * b.tents)

/-- CYCLE_CHARGE in force: a write takes effect at the next boundary (R45). -/
def Body.cycleCharge (b : Body) (i : Nat) : Nat := mapGet 96 i b.work.charges

/-- The bank of a class in the current tick. -/
def Body.classBank (b : Body) (i : Nat) : Bank :=
  ⟨b.fget clsTick i FClass.cycleAllow, b.fget clsTick i FClass.frameAllow, b.fget clsTick i FClass.cyclesCharged,
   b.fget clsTick i FClass.framesCharged⟩

/-- The charges of a tent in the current tick, against TENT_CYCLES and TENT_FRAMES. -/
def Body.tentBank (b : Body) (t : Nat) : Bank :=
  let i := classInst t 0
  let c := mapGet ⟨0, 0, 0, 0⟩ t b.work.tentCur
  ⟨b.fget clsTick i FClass.tentCycles, b.fget clsTick i FClass.tentFrames, c.cyc, c.fr⟩

/-- One class at a boundary (action 3 of Table 2.1): its bank becomes the previous one, and a new one opens, with
the allowance of R45 less the debt (R47). Of a tent that the boundary's re-pitch adds, the previous bank is what its fields
hold: the reset values, or the allowances that a tent of that number last had, which R46 does not say (DESIGN CHOICE;
assumption log 145). -/
def Body.openClass (b : Body) (period i : Nat) : Body :=
  let old := b.classBank i
  let b0 := { b with
    work.classPrev := mapPut i old b.work.classPrev
    work.charges := mapPut i (b.fget clsTick i FClass.cycleCharge) b.work.charges }
  let tc := b0.tentCycles period
  let tf := b0.tentFrames period
  let ca := tc * b0.fget clsTick i FClass.cycleShare / 65536
  let fa := tf * b0.fget clsTick i FClass.frameShare / 65536
  let b1 := b0.fset clsTick i FClass.cycleAllow (ca - b0.fget clsTick i FClass.debt)
  let b2 := b1.fset clsTick i FClass.frameAllow fa
  let b3 := (b2.fset clsTick i FClass.tentCycles tc).fset clsTick i FClass.tentFrames tf
  ((b3.fset clsTick i FClass.debt 0).fset clsTick i FClass.cyclesCharged 0).fset clsTick i FClass.framesCharged 0

/-- ALLOWANCE_RECOMPUTE (R45): every class of every tent, and the tent totals. -/
def Body.openBanks (b : Body) (period : Nat) : Body :=
  let b1 := { b with
    work.tentPrev := (List.range b.tents).map (fun t => (t, b.tentBank t)), work.tentCur := [] }
  (List.range (8 * b.tents)).foldl (fun x k => x.openClass period (1 + k)) b1

/-- The previous tick's bank of a class; before the first boundary, that of reset with nothing charged. -/
def Body.classPrevBank (b : Body) (i : Nat) : Bank := mapGet ⟨9600000, 100000, 0, 0⟩ i b.work.classPrev
def Body.tentPrevBank (b : Body) (t : Nat) : Bank := mapGet ⟨9600000, 100000, 0, 0⟩ t b.work.tentPrev

/-- Whether R46 places a frame of this home tick in the previous tick's bank. -/
def usesPrev (tm : Time) (home : Nat) : Bool := decide (1 ≤ tickDiff tm.tickNumber home)

/-- The banks of class and tent that R46 names. -/
def Body.banksFor (b : Body) (tm : Time) (home t i : Nat) : Bank × Bank :=
  if usesPrev tm home then (b.classPrevBank i, b.tentPrevBank t) else (b.classBank i, b.tentBank t)

/-- The charge of an admission (R46, R117), with STALE_HOME and FUTURE_HOME. -/
def Body.chargeBank (b : Body) (tm : Time) (home t i : Nat) : Body :=
  let k := b.cycleCharge i
  let a := tickDiff tm.tickNumber home
  let b1 := if 2 ≤ a then b.bump clsTick 0 FTick.staleHome 1
            else if a < 0 then b.bump clsTick 0 FTick.futureHome 1 else b
  if usesPrev tm home then
    let cb := b1.classPrevBank i
    let tb := b1.tentPrevBank t
    { b1 with
      work.classPrev := mapPut i { cb with cyc := cb.cyc + k, fr := cb.fr + 1 } b1.work.classPrev
      work.tentPrev := mapPut t { tb with cyc := tb.cyc + k, fr := tb.fr + 1 } b1.work.tentPrev }
  else
    let tb := b1.tentBank t
    let b2 := (b1.bump clsTick i FClass.cyclesCharged k).bump clsTick i FClass.framesCharged 1
    { b2 with work.tentCur := mapPut t { tb with cyc := tb.cyc + k, fr := tb.fr + 1 } b2.work.tentCur }

/-- Actual cycles beyond CYCLE_CHARGE become DEBT, which saturates at the CYCLE_ALLOW in force (R47). -/
def Body.bookCycles (b : Body) (t c cycles : Nat) : Body :=
  let i := classInst t c
  let past := cycles - b.cycleCharge i
  if past = 0 then b
  else b.fset clsTick i FClass.debt (min (b.fget clsTick i FClass.debt + past) (b.fget clsTick i FClass.cycleAllow))

/-- A commit at or after the deadline is late (R49). -/
def Body.judgeLate (b : Body) (tm : Time) (d : Desc) : Body :=
  let late := timeDiff tm.now (tm.deadline d.ts)
  if late < 0 then b
  else
    let i := classInst d.tent d.cls
    let b1 := (b.bump clsTick i FClass.lateCommits 1).bump clsTick 0 FTick.lateCommits 1
    b1.fset clsTick i FClass.maxLateness
      (max (b1.fget clsTick i FClass.maxLateness) (min (late.toNat / 65536) (2 ^ 32 - 1)))

/-! Epochs (R109). -/

/-- IN_FLIGHT of an epoch changes by a signed amount. -/
def Body.addFlight (b : Body) (e : Nat) (k : Int) : Body :=
  let v : Int := b.fget clsIntake 0 (fInFlight e) + k
  (b.fset clsIntake 0 (fInFlight e)
    (if v < 0 then 0 else if v < 2 ^ 32 then v.toNat else Config.counterOver 32 v.toNat)).epochRetired

end Sys2Proof.Machine
end

