-- ==== Sys2Proof/Machine/Locks.lean ====
section
/-! DEFINITION. The lock unit: locks, semaphores, lock windows (spec/14, R351 to R362, R372). -/

namespace Sys2Proof.Machine

def LockSt.free : LockSt := ⟨none, [], 0, false, 0, none⟩
def Body.lock (b : Body) (n : Nat) : LockSt := mapGet LockSt.free n b.sync.locks
def Body.setLock (b : Body) (n : Nat) (x : LockSt) : Body := { b with sync.locks := mapPut n x b.sync.locks }
def Body.sem (b : Body) (n : Nat) : SemSt := mapGet ⟨[], [], 0⟩ n b.sync.sems
def Body.setSem (b : Body) (n : Nat) (x : SemSt) : Body := { b with sync.sems := mapPut n x b.sync.sems }

/-- The LOCK instances of a semaphore, a tent and a window (R371). -/
def semInst (n : Nat) : Nat := 0x4000 + n
def lockTentInst (t : Nat) : Nat := 0x10000 + t
def winInst : Win → Nat
  | .tent t => 0x10000 + t
  | .biv j => 0x20000 + j

/-- The tent-relative number of a lock or semaphore that a LOCK instruction or grant word carries, and back (R351). -/
def lockTotal (sem : Bool) : Nat := if sem then 4096 else 16384
def Body.lockAbs (b : Body) (sem : Bool) (t n : Nat) : Nat :=
  tentBase b.nLogN (lockTotal sem) t + n % (lockTotal sem / b.tents)
def Body.lockRel (b : Body) (sem : Bool) (n : Nat) : Nat := n % (lockTotal sem / b.tents)
def Body.lockTent (b : Body) (sem : Bool) (n : Nat) : Nat := tentOf b.nLogN (lockTotal sem) n

/-- Counts of a semaphore that are held (Table 14.6). -/
def SemSt.held (x : SemSt) : Nat := (x.holders.map (fun e => e.2)).sum
def SemSt.heldBy (x : SemSt) (w : Holder) : Nat :=
  ((x.holders.find? (fun e => decide (e.1 = w))).map (fun e => e.2)).getD 0
/-- A holder's counts set to `k`. -/
def SemSt.setHeld (x : SemSt) (w : Holder) (k : Nat) : SemSt :=
  let r := x.holders.filter (fun e => decide (e.1 ≠ w))
  { x with holders := if k = 0 then r else r ++ [(w, k)] }

/-- A grant arrives: the grant word on endpoint 2 of a thread (R199), the status of a window, or flag 4 of the task's
queue (R372). -/
def Body.deliverGrant (b : Body) (sem : Bool) (n st : Nat) (w : Holder) (win : Option Win) : Body :=
  match w with
  | .thread h =>
    let word := st + b.lockRel sem n * 2 ^ 16 + (if sem then 2 ^ 30 else 0)
    (b.modHart h (fun x =>
      { x with reqs := x.reqs.eraseP (fun r => decide (r.kind = if sem then ReqKind.sem n else ReqKind.lock n)) })).pushMsg h 2
        [BitVec.ofNat 32 word]
  | .task q => b.setFlags q 0x10
  | _ =>
    match win with
    | some x => (b.fset clsLock (winInst x) FWindow.reqStatus st).fset clsLock (winInst x) FWindow.reqBusy 0
    | none => b

/-- A free lock is granted (R354, R355, R360): ACQUIRED_ABANDONED and ABANDONED clears after an abandonment. -/
def Body.grantLock (b : Body) (tm : Time) (n : Nat) (w : Holder) (win : Option Win) : Body :=
  let st := if b.fget clsLock n FLock.abandoned = 1 then stAcquiredAbandoned else stOk
  let b1 := b.setLock n { b.lock n with holder := some w, heldTicks := 0, longRaised := false, again := none }
  let b2 := ((b1.fset clsLock n FLock.abandoned 0).fset clsLock n FLock.heldSince tm.tickNumber).bump clsLock n
    FLock.acquires 1
  b2.deliverGrant false n st w win

/-- A free count is granted. -/
def Body.grantSem (b : Body) (n : Nat) (w : Holder) (win : Option Win) : Body :=
  let i := semInst n
  let st := if b.fget clsLock i FSem.abandoned = 1 then stAcquiredAbandoned else stOk
  let x := b.sem n
  let b1 := (b.setSem n (x.setHeld w (x.heldBy w + 1))).drop clsLock i FSem.count 1
  ((b1.fset clsLock i FSem.abandoned 0).bump clsLock i FSem.acquires 1).deliverGrant true n st w win

/-! Grants (R355, R356). -/

/-- The master number of a request (R324). -/
def Waiter.master (w : Waiter) : Nat :=
  match w.win, w.who with
  | some (.tent t), _ => 1028 + t
  | some (.biv j), _ => 1024 + j
  | none, .thread h => h
  | none, _ => 0

/-- The order of R355: higher priority, then the earlier cycle, within one cycle the lower master number. -/
def Waiter.first (v w : Waiter) : Bool :=
  decide (w.prio < v.prio) || (decide (w.prio = v.prio) && (decide (v.cyc < w.cyc) || (decide (v.cyc = w.cyc) &&
    (decide (v.master < w.master) || (decide (v.master = w.master) && decide (v.num < w.num))))))

/-- The waiter that R355 grants. -/
def bestWaiter : List Waiter → Option Waiter
  | [] => none
  | w :: r =>
    match bestWaiter r with
    | none => some w
    | some v => if v.first w then some v else some w

/-- The next grant: its cycle, the first in which something is free and someone waits, after that cycle's releases and
requests, and the waiter that it goes to (R356). -/
def nextGrant (freed : Nat) (ws : List Waiter) : Option (Nat × Waiter) :=
  let g := max freed (ws.foldl (fun m w => min m w.cyc) ((ws.head?.map Waiter.cyc).getD 0))
  (bestWaiter (ws.filter (fun w => decide (w.cyc ≤ g)))).map (fun w => (g, w))

def Body.lockDue (b : Body) (n : Nat) : Option (Nat × Waiter) :=
  if (b.lock n).holder.isSome then none else nextGrant (b.lock n).freed (b.lock n).waiters
def Body.semDue (b : Body) (n : Nat) : Option (Nat × Waiter) :=
  if b.fget clsLock (semInst n) FSem.count = 0 then none else nextGrant (b.sem n).freed (b.sem n).waiters

/-- A waiter leaves the list with its grant; a semaphore makes one grant in a cycle. -/
def Body.giveLock (b : Body) (tm : Time) (n : Nat) (w : Waiter) : Body :=
  (b.setLock n { b.lock n with waiters := (b.lock n).waiters.filter (fun v => decide (v ≠ w)) }).grantLock tm n w.who w.win
def Body.giveSem (b : Body) (n g : Nat) (w : Waiter) : Body :=
  (b.setSem n { b.sem n with waiters := (b.sem n).waiters.filter (fun v => decide (v ≠ w)), freed := g + 1 }).grantSem n
    w.who w.win

/-- The grants of earlier cycles are made before an operation that reaches the unit in cycle `c`. -/
def Body.settleLock (b : Body) (tm : Time) (n c : Nat) : Body :=
  match b.lockDue n with
  | some (g, w) => if g < c then b.giveLock tm n w else b
  | none => b
def Body.settleSem (b : Body) (n c : Nat) : Nat → Body
  | 0 => b
  | k + 1 => match b.semDue n with
    | some (g, w) => if g < c then (b.giveSem n g w).settleSem n c k else b
    | none => b
def Body.settledSem (b : Body) (n c : Nat) : Body := b.settleSem n c (b.sem n).waiters.length

/-- The first cycle from `c` on that has fewer than 16 operations. -/
def freeTurn (m : SMap Nat) (c : Nat) : Nat → Nat
  | 0 => c
  | k + 1 => if mapGet 0 c m < 16 then c else freeTurn m (c + 1) k

/-- An operation that arrives in cycle `c` is performed in it, or in the next cycle that has fewer than 16 operations
(R356). -/
def Body.lockTurn (b : Body) (c : Nat) : Nat × Body :=
  let g := freeTurn b.sync.turns c b.sync.turns.length
  (g, { b with sync.turns := mapPut g (mapGet 0 g b.sync.turns + 1) (b.sync.turns.filter (fun e => decide (b.clock ≤ e.1))) })

/-- A request of lock `n` that reaches the unit in cycle `c0` (R354, R356): regranted to its holder or an earlier
requester, else on the wait list, from which the grant of that cycle is made when it is free. -/
def Body.requestLock (b0 : Body) (tm : Time) (c0 n : Nat) (w : Holder) (win : Option Win) (prio : Nat) : Body :=
  let (c, bt) := b0.lockTurn c0
  let b := bt.settleLock tm n c
  let l := b.lock n
  if l.holder = some w ∨ l.waiters.any (fun x => decide (x.who = w)) then
    let b1 := if l.holder = some w ∧ win.isSome then b.setLock n { l with again := some c } else b
    (b1.bump clsLock (lockTentInst (b.lockTent false n)) FLockTent.regrants 1).deliverGrant false n stOk w win
  else
    let (k, b1) := b.tick
    let b2 := b1.setLock n { l with waiters := l.waiters ++ [⟨w, win, prio, k, c⟩] }
    if l.holder = none ∧ l.waiters = [] then b2 else b2.bump clsLock n FLock.contended 1

/-- A request of one count of semaphore `n`. -/
def Body.requestSem (b0 : Body) (c0 n : Nat) (w : Holder) (win : Option Win) (prio : Nat) : Body :=
  let (c, bt) := b0.lockTurn c0
  let b := bt.settledSem n c
  let x := b.sem n
  let (k, b1) := b.tick
  let b2 := b1.setSem n { x with waiters := x.waiters ++ [⟨w, win, prio, k, c⟩] }
  if 0 < b.fget clsLock (semInst n) FSem.count ∧ x.waiters = [] then b2
  else b2.bump clsLock (semInst n) FSem.contended 1

/-- The requests of cycle `c` come after the releases of that cycle (R356): where all that wait are of that cycle, the
first of them met neither a holder nor a list, and CONTENDED has counted it in vain. -/
def Body.recount (b : Body) (i : Nat) (f : Fld) (c : Nat) (ws : List Waiter) : Body :=
  if ws ≠ [] ∧ ws.all (fun w => decide (w.cyc = c)) then b.drop clsLock i f 1 else b

/-- Whether a release comes from a thread or an item. -/
def byThread (who : List Holder) : Bool :=
  who.any (fun w => match w with
    | .thread _ => true
    | .item .. => true
    | _ => false)

/-- Lock `n`, held by `w`, is freed in cycle `c` on behalf of `who`. A regrant to a window in that same cycle comes after a
thread's or an item's release (R356): with no other request the lock is granted to the window's task again. -/
def Body.freeLock (b : Body) (tm : Time) (n c : Nat) (w : Holder) (who : List Holder) : Body :=
  let l := b.lock n
  let b1 := b.recount n FLock.contended c l.waiters
  if l.again = some c ∧ l.waiters = [] ∧ byThread who then
    (((b1.setLock n { l with holder := some w, heldTicks := 0, longRaised := false, again := none }).fset clsLock n
      FLock.heldSince tm.tickNumber).bump clsLock n FLock.acquires 1).drop clsLock (lockTentInst (b.lockTent false n))
      FLockTent.regrants 1
  else b1.setLock n { l with holder := none, freed := c, again := none }

/-- A release of lock `n` by any of `who` that reaches the unit in cycle `c0` (R357): whether it freed the lock, which
NOT_HELD counts if not. -/
def Body.releaseLock (b0 : Body) (tm : Time) (c0 n : Nat) (who : List Holder) : Bool × Body :=
  let (c, bt) := b0.lockTurn c0
  let b := bt.settleLock tm n c
  match (b.lock n).holder with
  | some w =>
    if who.contains w then (true, b.freeLock tm n c w who)
    else (false, b.bump clsLock (lockTentInst (b.lockTent false n)) FLockTent.notHeld 1)
  | none => (false, b.bump clsLock (lockTentInst (b.lockTent false n)) FLockTent.notHeld 1)

/-- A count becomes free for a grant in cycle `c`, where none was. -/
def SemSt.freeAt (x : SemSt) (count c : Nat) : SemSt := if count = 0 then { x with freed := c } else x

/-- A return of one count that reaches the unit in cycle `c0` (R359): a holder's own count, else a signal up to MAX, which
OVERFLOWS counts past it. -/
def Body.releaseSem (b0 : Body) (c0 n : Nat) (w : Holder) : Bool × Body :=
  let (c, bt) := b0.lockTurn c0
  let b := bt.settledSem n c
  let i := semInst n
  let x := b.sem n
  let k := b.fget clsLock i FSem.count
  let b1 := if k = 0 then b.recount i FSem.contended c x.waiters else b
  if 0 < x.heldBy w then
    (true, (b1.setSem n ((x.setHeld w (x.heldBy w - 1)).freeAt k c)).fset clsLock i FSem.count (k + 1))
  else if k + x.held < b.fget clsLock i FSem.maxF then
    (true, (b1.setSem n (x.freeAt k c)).fset clsLock i FSem.count (k + 1))
  else (false, b.bump clsLock i FSem.overflows 1)

/-- The parties on whose behalf a thread releases (R357): itself, and the task of its item's queue. -/
def Body.threadReleasers (b : Body) (h : Nat) : List Holder :=
  match (b.hart h).item with
  | some it => [.thread h, .task it.queue]
  | none => [.thread h]

/-- A window whose request is cancelled is free for the next one. -/
def Body.freeWindows (b : Body) (l : List Waiter) : Body :=
  (l.filterMap Waiter.win).foldl (fun (x : Body) w => x.fset clsLock (winInst w) FWindow.reqBusy 0) b

/-- LOCK_ABANDON (R360): a holder's locks are freed and counts returned, marked ABANDONED; its requests withdrawn. -/
def Body.abandon (b : Body) (w : Holder) : Body :=
  let mine := fun (v : Waiter) => decide (v.who = w)
  let b1 := b.sync.locks.foldl (fun (x : Body) e =>
    let l := x.lock e.1
    let x1 := (x.setLock e.1 { l with waiters := l.waiters.filter (fun v => !mine v) }).freeWindows (l.waiters.filter mine)
    if l.holder = some w then
      let r := (x1.recount e.1 FLock.contended b.clock (x1.lock e.1).waiters).lockTurn b.clock
      ((r.2.setLock e.1 { r.2.lock e.1 with holder := none, freed := r.1, again := none }).fset clsLock e.1 FLock.abandoned 1).bump clsLock
        e.1 FLock.abandonments 1
    else x1) b
  b1.sync.sems.foldl (fun (x : Body) e =>
    let i := semInst e.1
    let l := x.sem e.1
    let k := l.heldBy w
    let n := x.fget clsLock i FSem.count
    let l1 := { l.setHeld w 0 with waiters := l.waiters.filter (fun v => !mine v) }
    let r := if 0 < k then x.lockTurn b.clock else (b.clock, x)
    let x0 := if 0 < k ∧ n = 0 then r.2.recount i FSem.contended b.clock l1.waiters else r.2
    let x1 := (x0.setSem e.1 (if 0 < k then l1.freeAt n r.1 else l1)).freeWindows (l.waiters.filter mine)
    if 0 < k then ((x1.fset clsLock i FSem.count (n + k)).fset clsLock i FSem.abandoned 1).bump clsLock i FSem.abandonments k
    else x1) b1

/-- The entries that a thread's holdings fill (R353). -/
def Body.holdings (b : Body) (h : Nat) : Nat :=
  b.sync.locks.countP (fun e => decide (e.2.holder = some (.thread h)) ||
      e.2.waiters.any (fun v => decide (v.who = .thread h))) +
    b.sync.sems.countP (fun e => decide (0 < e.2.heldBy (.thread h)) ||
      e.2.waiters.any (fun v => decide (v.who = .thread h)))

/-- Whether a lock or semaphore already fills one of the thread's entries. -/
def Body.holdsEntry (b : Body) (h : Nat) (sem : Bool) (n : Nat) : Bool :=
  if sem then decide (0 < (b.sem n).heldBy (.thread h)) || (b.sem n).waiters.any (fun v => decide (v.who = .thread h))
  else decide ((b.lock n).holder = some (.thread h)) || (b.lock n).waiters.any (fun v => decide (v.who = .thread h))

/-- The locks and counts that a log's deferred releases name pass from the thread to the committed item (R352). -/
def Body.passToItem (b : Body) (h : Nat) (w : Holder) (st : List Staged) : Body :=
  st.foldl (fun (x : Body) e =>
    match e with
    | .lockRel n => if (x.lock n).holder = some (.thread h) then x.setLock n { x.lock n with holder := some w } else x
    | .semRel n =>
      let l := x.sem n
      if 0 < l.heldBy (.thread h) then
        x.setSem n ((l.setHeld (.thread h) (l.heldBy (.thread h) - 1)).setHeld w (l.heldBy w + 1))
      else x
    | _ => x) b

/-- The highest priority on a lock's wait list. -/
def LockSt.topPrio (l : LockSt) : Nat := l.waiters.foldl (fun m w => max m w.prio) 0

/-- The furrow that a lock's boost goes to, and the queue (R361). -/
def Body.boostFurrow (b : Body) (l : LockSt) : Option Nat :=
  match l.holder with
  | some (.thread h) =>
    match (b.hart h).item with
    | some it => if it.src = .event then none else some it.desc.furrow
    | none => none
  | some (.item _ f _ _ ev) => if ev then none else some f
  | _ => none
def LockSt.boostQueue (l : LockSt) : Option Nat :=
  match l.holder with
  | some (.task q) => some q
  | _ => none

/-- BOOST of a lock (Table 14.5). -/
def Body.lockBoost (b : Body) (l : LockSt) : Nat :=
  if (b.boostFurrow l).isSome ∨ l.boostQueue.isSome then l.topPrio else 0

/-- The highest boost that reaches a queue: its own, or that of the furrow of its head (R361). -/
def Body.boostOf (b : Body) (q : Nat) : Nat :=
  let f := ((b.chain q).head?.bind b.elem?).map (fun x => x.desc.furrow)
  b.sync.locks.foldl (fun m e =>
    if e.2.waiters = [] then m
    else if e.2.boostQueue = some q ∨ ((b.boostFurrow e.2).isSome ∧ b.boostFurrow e.2 = f) then max m e.2.topPrio
    else m) 0

/-! Lock windows (R372). -/

/-- The tent that a window addresses. -/
def Body.winTent (b : Body) : Win → Nat
  | .tent t => t
  | .biv j => b.fget clsLock (0x20000 + j) FWindow.reqTent

/-- For whom a window asks. -/
def Body.winHolder (b : Body) (w : Win) : Holder :=
  if b.fget clsLock (winInst w) FWindow.reqTask = 1 then
    .task (queueBase b.nLogN (b.winTent w) + b.fget clsLock (winInst w) FWindow.reqQueue)
  else match w with
    | .tent t => .host t
    | .biv j => .biv j

def Body.winStatus (b : Body) (w : Win) (st : Nat) : Body :=
  (b.fset clsLock (winInst w) FWindow.reqStatus st).fset clsLock (winInst w) FWindow.reqBusy 0

/-- What a window asks of the lock unit, by REQ_OP (Table 14.8). -/
def Body.winPerform (b : Body) (tm : Time) (w : Win) : Body :=
  let i := winInst w
  let op := b.fget clsLock i FWindow.reqOp
  let sem := decide (2 ≤ op)
  let n := b.lockAbs sem (b.winTent w) (b.fget clsLock i FWindow.reqNum)
  let who := b.winHolder w
  let prio := b.fget clsLock i FWindow.reqPrio
  let b1 := if b.fget clsLock i FWindow.reqTask = 1 then b else b.fset clsLock i FWindow.reqBusy 1
  match op with
  | 0 => b1.requestLock tm b.clock n who (some w) prio
  | 1 => let r := b.releaseLock tm b.clock n [who]; r.2.winStatus w (if r.1 then stOk else stNotOwner)
  | 2 => b1.requestSem b.clock n who (some w) prio
  | _ => let r := b.releaseSem b.clock n who; r.2.winStatus w (if r.1 then stOk else stOutOfRange)

/-- A write of REQ_ISSUE: BUSY while a request is in progress; a number or queue beyond the tent's share is not sent. -/
def Body.winIssue (b : Body) (tm : Time) (w : Win) : Nat × Body :=
  let i := winInst w
  let sem := decide (2 ≤ b.fget clsLock i FWindow.reqOp)
  if b.fget clsLock i FWindow.reqBusy = 1 then (stBusy, b)
  else if b.tents ≤ b.winTent w ∨ lockTotal sem / b.tents ≤ b.fget clsLock i FWindow.reqNum ∨
      (b.fget clsLock i FWindow.reqTask = 1 ∧ 1048576 / b.tents ≤ b.fget clsLock i FWindow.reqQueue) then
    (stOk, b.fset clsLock i FWindow.reqStatus stOutOfRange)
  else (stOk, b.winPerform tm w)

/-- A write of REQ_CANCEL: a waiting acquire is withdrawn and REQ_STATUS reads BUSY. -/
def Body.winCancel (b : Body) (w : Win) : Body :=
  let mine := fun (v : Waiter) => decide (v.win = some w)
  let found := b.sync.locks.any (fun e => e.2.waiters.any mine) || b.sync.sems.any (fun e => e.2.waiters.any mine)
  if found then
    let ls := b.sync.locks.map (fun e => (e.1, { e.2 with waiters := e.2.waiters.filter (fun v => !mine v) }))
    let ss := b.sync.sems.map (fun e => (e.1, { e.2 with waiters := e.2.waiters.filter (fun v => !mine v) }))
    ({ b with sync.locks := ls, sync.sems := ss }).winStatus w stBusy
  else b

/-- Whether a window exists at the present N. -/
def Body.winExists (b : Body) : Win → Bool
  | .tent t => decide (t < b.tents)
  | .biv j => decide (j < 4)

/-- LOCK_GRANT (R355, R356): a free lock, or a free count, goes to the waiter that the rule names, once the operations of
the grant's cycle have all been applied. -/
def execLockGrant (sem : Bool) (n : Nat) (s : State) : Host.Outcome State Fault Refusal :=
  onDev (fun d =>
    match (if sem then d.b.semDue n else d.b.lockDue n) with
    | some (g, w) =>
      let d1 := d.waitCycle (g + 1)
      { d1 with b := if sem then d1.b.giveSem n g w else d1.b.giveLock d1.tm n w }
    | none => d) s

/-- At each boundary a held lock has been held across one more (R362). -/
def Body.ageLocks (b : Body) : Body :=
  { b with sync.locks := b.sync.locks.map (fun e =>
      (e.1, if e.2.holder = none then e.2 else { e.2 with heldTicks := e.2.heldTicks + 1 })) }

/-- LOCK_HELD_LONG (R362): a lock held across more than HOLD_TICKS boundaries raises source 41 once for that hold. -/
def execLockHeldLong (n : Nat) (s : State) : Host.Outcome State Fault Refusal :=
  onBody (fun _ b =>
    let t := lockTentInst (b.lockTent false n)
    let k := b.fget clsLock t FLockTent.holdTicks
    let l := b.lock n
    if 0 < k ∧ k < l.heldTicks ∧ l.holder ≠ none ∧ ¬ l.longRaised then
      (((b.setLock n { l with longRaised := true }).fset clsLock t FLockTent.lastLongLock (b.lockRel false n)).bump
        clsLock t FLockTent.longHolds 1).ring 41
    else b) s

end Sys2Proof.Machine
end

