-- ==== Sys2Proof/Machine/Headgate.lean ====
section
/-! DEFINITION. The Headgate: admission and enqueue (spec/05, R114 to R118). -/

namespace Sys2Proof.Machine

/-- Whether a tent is frozen for migration (R116, R389): FREEZING or FROZEN. -/
def Body.tentFrozen (b : Body) (t : Nat) : Bool := decide (2 ≤ b.fget clsTent t FTent.state)

/-- Whether the mode admits a draft of pass `pass` of tent `t` (Table 5.2); the drain of a DEVICE reset closes admission
as Drain does (R435). -/
def Body.admissionOpen (b : Body) (t pass : Nat) : Bool :=
  let m := b.modeCode
  let run := decide (m = 4 ∨ m = 5 ∨ m = 6 ∨ m = 8)
  if run && b.adm.draining.isNone then !(b.tentFrozen t && pass == 0)
  else if run || m == 7 || m == 9 then decide (0 < pass)
  else false

/-- ADMIT_OPEN (Table 5.7). -/
def Body.admitOpen (b : Body) : Bool :=
  decide (b.modeCode = 4 ∨ b.modeCode = 5 ∨ b.modeCode = 6 ∨ b.modeCode = 8) && b.adm.draining.isNone

/-- COMMAND, descriptor flag 117 (Table 1.4). -/
def Desc.command (d : Desc) : Bool := d.flags.testBit 4

/-- Whether the frame's buffer fits the tent's frame quota (R314): a charge it already bears always fits. -/
def Body.frameChargeFits (b : Body) (t h : Nat) : Bool :=
  match b.buf? h with
  | some x => decide (x.charge = .frame t) || b.chargeFits (.frame t) (poolSize (handlePool h))
  | none => b.chargeFits (.frame t) (poolSize (handlePool h))

/-- The first condition of Table 5.1 that refuses a draft: its code. -/
def Body.refusal (b : Body) (tm : Time) (x : Draft) : Option Nat :=
  let d := x.desc
  let t := d.tent
  let i := classInst t d.cls
  let bk := b.banksFor tm (tm.homeTick d.ts) t i
  let k := b.cycleCharge i
  if !d.command && !b.admissionOpen t d.pass then some 1
  else if b.fget clsQueue x.queue FQueue.enable = 0 then some 2
  else if b.fget clsQueue x.queue FQueue.overShare = 1 then some 3
  else if b.weir x.queue ≤ b.depth x.queue then some 4
  else if b.fget clsFurrow d.furrow FFurrow.weirLevel ≤ b.fget clsFurrow d.furrow FFurrow.outstanding then some 5
  else if bk.1.frAllow < bk.1.fr + 1 then some 6
  else if bk.1.cycAllow < bk.1.cyc + k then some 7
  else if bk.2.frAllow < bk.2.fr + 1 then some 8
  else if bk.2.cycAllow < bk.2.cyc + k then some 9
  else if 524288 / b.tents ≤ b.fget clsHeadgate (1 + t) FHead.descUsed then some 10
  else if !b.frameChargeFits t d.buffer then some 11
  else none

/-- The counter of a refusal code in a tent's HEADGATE instance (Table 5.1). -/
def refusalCounter (code : Nat) : Fld :=
  match code with
  | 1 => FHead.refClosed
  | 2 => FHead.refQueueDisabled
  | 3 => FHead.refOverShare
  | 4 => FHead.refQueueFull
  | 5 => FHead.refFurrowFull
  | 6 => FHead.refClassFrames
  | 7 => FHead.refClassCycles
  | 8 => FHead.refTentFrames
  | 9 => FHead.refTentCycles
  | 10 => FHead.refDescShare
  | _ => FHead.refBufferQuota

/-- A buffer is freed by whoever owns it. -/
def Body.releaseBuf (b : Body) (h : Nat) : Body :=
  match b.buf? h with
  | some x => (b.freeBuf h x.owner).2
  | none => b

/-- The outcome of a TX-ring frame is known (R383). -/
def Body.noteOutcome (b : Body) (ring : Option Nat) (reason : Nat) : Body :=
  match ring with
  | some r => { b with work.outcomes := b.work.outcomes ++ [(r, reason)] }
  | none => b

/-- A refused draft (R21, R22, R115): counted, its buffer freed, its epoch's count lowered. -/
def Body.refuse (b : Body) (x : Draft) (code : Nat) : Body :=
  let b1 := ((b.bump clsHeadgate (1 + x.desc.tent) (refusalCounter code) 1).bump clsFurrow x.desc.furrow
    FFurrow.refused 1).bump clsHeadgate 0 FHead.refused 1
  ((b1.releaseBuf x.desc.buffer).addFlight x.desc.epoch (-1)).noteOutcome x.fromHost code

/-- The frame's buffer passes to its tent, with its charge (R117, R318). -/
def Body.admitBuf (b : Body) (h t : Nat) : Body :=
  match b.buf? h with
  | some x => b.setBuf h { x with owner := if pooledByRef (handlePool h) then x.owner else .frame t, charge := .frame t }
  | none => b

/-- Whether a queue is its tent's recirculation queue (R106). -/
def Body.isRecirc (b : Body) (q : Nat) : Bool :=
  let n := 1048576 / b.tents
  q % n == b.fget clsIntake 0 FIntake.recircOffset % n

/-- An egress enqueue to port 66, FRAME = 1, CLASS 0 (R243). -/
def recircBody : Nat := 2 ^ 46 + 66 * 2 ^ 48

/-- The OUTFALL instance of a furrow. -/
def outFur (f : Nat) : Nat := 0x10000 + f

def Body.relSeq (b : Body) (f : Nat) : Nat := b.fget clsOutfall (outFur f) FOutFur.relSeq

/-- Whether an item came from a descriptor slot of an ordinary queue. -/
def Item.ordinary (it : Item) : Bool := match it.src with | .slot _ => true | _ => false

/-- WAITING of a furrow: items that have requested commit and wait for REL_SEQ (R242). -/
def Body.waitingIn (b : Body) (f : Nat) : Nat :=
  b.work.commits.countP (fun o => o.divert.isNone && o.item.ordinary && o.item.desc.furrow == f &&
    o.item.desc.seq != b.relSeq f)

def Body.noteWaiting (b : Body) (it : Item) : Body :=
  if it.ordinary then b.raise clsOutfall (outFur it.desc.furrow) FOutFur.maxWaiting (b.waitingIn it.desc.furrow) else b

/-- RECIRC_TAKE (R243): the Outfall takes the head of a recirculation queue, a descriptor slot or an exception record,
as an item that requested commit in the cycle after the enqueue. -/
def Body.recircTake (b : Body) (tm : Time) (q : Nat) : Body :=
  match b.dequeue q with
  | (some e, b1) =>
    match b1.elem? e with
    | some x =>
      let (k, b2) := b1.tick
      let src : ItemSrc := match e with | .slot n => .slot n | .record n => .record n
      let it : Item := ⟨src, q, x.desc.tent, x.desc, x.program, tm.now, 0, 0, 0, 0, [.stg 0 recircBody], [], false⟩
      ({ b2 with work.commits := b2.work.commits ++ [(⟨k, none, none, 0, it, none, .stage, tm.cycle + 1⟩ : OItem)] } : Body).noteWaiting it
    | none => b1
  | (none, b1) => b1

/-- The recirculation queues that hold something, but for those that a memory error has stopped (R321). -/
def Body.recircQueues (b : Body) : List Nat :=
  (b.work.chains.map (fun e => e.1)).filter (fun q => b.isRecirc q && !b.work.stopped.contains q)

/-- Every descriptor of a recirculation queue goes to the Outfall, whichever way it was enqueued: admission, diversion,
link hold or restore (R106, R243). -/
def Body.recircTakes (b : Body) (tm : Time) : Body :=
  b.recircQueues.foldl (fun (x : Body) q => (x.chain q).foldl (fun (y : Body) _ => y.recircTake tm q) x) b

/-- HEADGATE_ENQUEUE (R22, R117): sequence number, slot, charges, queue and counters, at once; `none` where no slot of the
store is free. -/
def Body.admitDraft (b : Body) (tm : Time) (x : Draft) : Option Body :=
  let d := x.desc
  let t := d.tent
  let seq := b.fget clsFurrow d.furrow FFurrow.nextSeq
  (b.takeSlot ⟨{ d with seq := seq }, x.program⟩).map fun (n, b0) =>
    let b1 := b0.bumpWrap clsFurrow d.furrow FFurrow.nextSeq 1
    let b2 := b1.chargeBank tm (tm.homeTick d.ts) t (classInst t d.cls)
    let b3 := (b2.admitBuf d.buffer t).enqueue x.queue (.slot n)
    let b4 := b3.bump clsFurrow d.furrow FFurrow.outstanding 1
    let b5 := b4.raise clsFurrow d.furrow FFurrow.maxOutstanding (b4.fget clsFurrow d.furrow FFurrow.outstanding)
    let b6 := (b5.bump clsHeadgate (1 + t) FHead.descUsed 1).bump clsHeadgate 0 FHead.descUsed 1
    let b7 := ((b6.bump clsFurrow d.furrow FFurrow.admitted 1).bump clsHeadgate (1 + t) FHead.admitted 1).bump
      clsHeadgate 0 FHead.admitted 1
    b7.noteOutcome x.fromHost 0

/-- Drafts wait in order of start-of-frame time, then ingress port (R114). -/
def insertDraft (x : Draft) : List Draft → List Draft
  | [] => [x]
  | y :: r =>
    let k := timeDiff x.desc.ts y.desc.ts
    if k < 0 ∨ (k = 0 ∧ x.desc.port < y.desc.port) then x :: y :: r else y :: insertDraft x r

/-- A draft is handed off to the Headgate. -/
def Body.handDraft (b : Body) (x : Draft) : Body := { b with work.drafts := insertDraft x b.work.drafts }

/-- The cycle of the next check: after the hand-off of a draft that waits, at most two checks in a cycle (R114). -/
def Body.checkAt (b : Body) : Nat :=
  let c := max b.clock (((b.work.drafts.map (fun x => x.cyc + 1)).min?).getD 0)
  if b.work.checkCycle = c ∧ 2 ≤ b.work.checkCount then c + 1 else c

/-- The first draft, in the order in which they wait, of those handed off before this cycle (R23, R114). -/
def Body.nextDraft (b : Body) : Option Draft := b.work.drafts.find? (fun x => decide (x.cyc < b.clock))

/-- A draft is taken for its check. -/
def Body.takeDraft (b : Body) (x : Draft) : Body :=
  { b with work := { b.work with
      drafts := b.work.drafts.erase x
      checkCount := if b.work.checkCycle = b.clock then b.work.checkCount + 1 else 1
      checkCycle := b.clock } }

/-- The check of a draft: refused by the first condition of Table 5.1 that holds, else admitted. A draft that no
condition refuses waits where the whole store is in use, as after a re-pitch that left a tent above its new share
(DESIGN CHOICE; assumption log 123). -/
def Body.headgateCheck (b : Body) (tm : Time) : Body :=
  match b.nextDraft with
  | none => b
  | some x =>
    let b1 := b.takeDraft x
    match b1.refusal tm x with
    | some code => b1.refuse x code
    | none => (b1.admitDraft tm x).getD b

end Sys2Proof.Machine
end

