-- ==== Sys2Proof/Machine/Owners.lean ====
section
/-! DEFINITION. Which tent an object belongs to (spec/15, R373, Table 15.1, and the instance rules of the classes), and
objects that take their reset values. -/

namespace Sys2Proof.Machine

/-- The first instance of tent `t` among the instances of the kind of `inst`: the plain and nested shares and the
per-tent instances; `none` for an instance of no tent. TABLE and PREFIX instances name their tent in a field. -/
def shareStart (nLog cls inst t : Nat) : Option Nat :=
  match cls with
  | 2 => if 1 ≤ inst then some (1 + 8 * t) else none
  | 4 => if 0x40000 ≤ inst then some (0x40000 + 4096 * t) else none
  | 6 => if 1 ≤ inst ∧ inst < 0x10000 then some (1 + t) else none
  | 7 => some (queueBase nLog t)
  | 8 => some (furrowBase nLog t)
  | 11 => some (inst / 64 * 64 + t * (64 / 2 ^ nLog))
  | 13 => if inst = 0 then none else if inst < 0x10000 then some (1 + t) else some (0x10000 + furrowBase nLog t)
  | 17 =>
    if inst = 0 then none else if inst < 0x1000 then some (1 + t)
    else if inst < 0x10000 then some (0x1000 + 16 * t)
    else if inst < 0x100000 then some (0x10000 + tentBase nLog 4096 t)
    else some (0x100000 + tentBase nLog 1048576 t)
  | 18 => if 0x200 ≤ inst then some (0x200 + t) else none
  | 19 => if 0x10000 + 8 * 1028 ≤ inst then some (0x10000 + 8 * (1028 + t)) else none
  | 21 =>
    if inst < 0x4000 then some (tentBase nLog 16384 t)
    else if inst < 0x10000 then some (0x4000 + tentBase nLog 4096 t)
    else if inst < 0x20000 then some (0x10000 + t) else none
  | 22 => if 1024 ≤ inst ∧ inst < 4096 then some (1024 + tentBase nLog 3072 t) else none
  | 23 => if inst < 64 then some t else if 0x1000 ≤ inst then some (0x1000 + tentBase nLog 4096 t) else none
  | 25 => some (tentBase nLog 4096 t)
  | _ => none

/-- The tent that an instance belongs to. -/
def ownerOf (nLog cls inst : Nat) : Option Nat :=
  match cls with
  | 2 => if 1 ≤ inst then some ((inst - 1) / 8) else none
  | 4 => if 0x40000 ≤ inst then some ((inst - 0x40000) / 4096) else none
  | 6 => if 1 ≤ inst ∧ inst < 0x10000 then some (inst - 1) else none
  | 7 => some (queueTent nLog inst)
  | 8 => some (furrowTent nLog inst)
  | 11 => some (threadTent nLog inst)
  | 13 => if inst = 0 then none else if inst < 0x10000 then some (inst - 1) else some (furrowTent nLog (inst - 0x10000))
  | 17 =>
    if inst = 0 then none else if inst < 0x1000 then some (inst - 1)
    else if inst < 0x10000 then some ((inst - 0x1000) / 16)
    else if inst < 0x100000 then some (tentOf nLog 4096 (inst - 0x10000))
    else some (tentOf nLog 1048576 (inst - 0x100000))
  | 18 => if 0x200 ≤ inst then some (inst - 0x200) else none
  | 19 => if 0x10000 + 8 * 1028 ≤ inst then some ((inst - 0x10000) / 8 - 1028) else none
  | 21 =>
    if inst < 0x4000 then some (tentOf nLog 16384 inst)
    else if inst < 0x10000 then some (tentOf nLog 4096 (inst - 0x4000))
    else if inst < 0x20000 then some (inst - 0x10000) else none
  | 22 => if 1024 ≤ inst ∧ inst < 4096 then some (tentOf nLog 3072 (inst - 1024)) else none
  | 23 => if inst < 64 then some inst else if 0x1000 ≤ inst then some (tentOf nLog 4096 (inst - 0x1000)) else none
  | 25 => some (tentOf nLog 4096 inst)
  | _ => none

/-- The instance of tent `t'` that stands where `inst` stands in tent `t`. -/
def moveInst (nLog cls inst t t' : Nat) : Nat :=
  match shareStart nLog cls inst t, shareStart nLog cls inst t' with
  | some a, some c => inst - a + c
  | _, _ => inst

/-- The tent-relative number of a thread, and back: cluster c's local thread i is c × 64 / N + i − t × 64 / N (R390). -/
def relThread (nLog t h : Nat) : Nat := h / 64 * (64 / 2 ^ nLog) + h % 64 - t * (64 / 2 ^ nLog)
def absThread (nLog t r : Nat) : Nat := r / (64 / 2 ^ nLog) * 64 + r % (64 / 2 ^ nLog) + t * (64 / 2 ^ nLog)

/-- The number of a tent's instance in an image: tent-relative for a thread, else where it stands in tent 0; and back. -/
def imageInst (nLog cls t inst : Nat) : Nat :=
  if cls = clsThread then relThread nLog t inst else moveInst nLog cls inst t 0
def tentInst (nLog cls t i : Nat) : Nat := if cls = clsThread then absThread nLog t i else moveInst nLog cls i 0 t

/-- Class and instance of a key of the field store. -/
def keyClass (k : Nat) : Nat := k / 2 ^ 40
def keyInst (k : Nat) : Nat := k / 2 ^ 16 % 2 ^ 24

/-- Every field of the instances that `p` names takes its reset value. -/
def Body.resetWhere (b : Body) (p : Nat → Nat → Bool) : Body :=
  { b with
    fields := b.fields.filter (fun e => !p (keyClass e.1) (keyInst e.1))
    latches := b.latches.filter (fun e => !p (keyClass e.1) (keyInst e.1)) }

/-- Whether a re-pitch from N = 2^old to 2^new gives an instance its reset values: its owner changes, or it belongs to a
tent that the re-pitch removes or adds (R394, R395). -/
def pitchChanges (old new cls inst : Nat) : Bool :=
  match ownerOf old cls inst, ownerOf new cls inst with
  | some a, some c => a != c || decide (2 ^ min old new ≤ a)
  | _, _ => false

end Sys2Proof.Machine
end

