-- ==== Sys2Proof/Machine/Score.lean ====
section
/-! DEFINITION. The core's clock and the scoreboard of a thread: which results are still on their way, and how long an
instruction waits for them (spec/02, R50; spec/06, R142; spec/07, R208; spec/08, R226 to R228). -/

namespace Sys2Proof.Machine

/-! Registers as numbers: word registers 1 to 31, the flags, sample registers, accumulators, predicates. -/

def scFlags : Nat := 32
/-- The place of a Runnel result whose word register is w0: no register, but what the instruction does besides (R219). -/
def scVoid : Nat := 33
def scSample (k : Nat) : Nat := 64 + k
def scAcc (k : Nat) : Nat := 128 + k
def scPred (k : Nat) : Nat := 192 + k

/-- What an instruction asks of the scoreboard. -/
structure Uses where
  /-- registers that it reads, and those that it writes -/
  reads : List Nat
  writes : List Nat
  /-- cycles from its entry into execute to its results; 0 where they are there at its core commit -/
  latency : Nat
  /-- it is a Runnel instruction that produces a register value -/
  runnel : Bool
  /-- it is one of the accumulations of R227, into this accumulator -/
  into : Option Nat
  /-- it waits until every earlier instruction of the context has completed (R228) -/
  fence : Bool
  deriving DecidableEq, Repr

/-- An instruction that reads and writes registers and leaves nothing on its way. -/
def Uses.plain (reads writes : List Nat) : Uses := ⟨reads, writes, 0, false, none, false⟩

/-- The registers that MASK of a CALL names (R186). -/
def maskNums (mask : Nat) : List Nat := ((List.range 16).filter (fun k => mask.testBit k)).map (fun k => 16 + k)

/-- The registers of a format M address (R187): ra, and rb in the indexed mode; ra is written back in modes 1 and 2. -/
def addressReads (word : Nat) : List Nat :=
  bitsAt word 16 5 :: (if bitsAt word 14 2 = 3 then [bitsAt word 9 5] else [])
def addressWrites (word : Nat) : List Nat := if bitsAt word 14 2 = 1 ∨ bitsAt word 14 2 = 2 then [bitsAt word 16 5] else []

/-- The core majors (Tables 7.2, 7.4 to 7.11). A reserved register field holds 0, and w0 is never on its way. `issue` is
the number of issue cycles: a load of one cycle is one of local memory. -/
def coreUses (word issue : Nat) : Uses :=
  let rd := bitsAt word 21 5
  let ra := bitsAt word 16 5
  let rb := bitsAt word 11 5
  let major := word / 2 ^ 26 % 64
  if major = 0x00 then
    { Uses.plain [ra, rb] [rd, scFlags] with latency := if 0x18 ≤ bitsAt word 4 7 ∧ bitsAt word 4 7 ≤ 0x1A then 3 else 0 }
  else if major = 0x06 then Uses.plain [] [rd]
  else if major = 0x08 then Uses.plain (ra :: (if bitsAt word 14 2 = 2 then [rd] else [])) [rd, scFlags]
  else if major ≤ 0x07 then Uses.plain [ra] [rd, scFlags]
  else if major = 0x10 then Uses.plain (if bitsAt word 21 5 = 14 then [] else [scFlags]) []
  else if major = 0x12 then Uses.plain (31 :: maskNums (bitsAt word 10 16)) [31]
  else if major = 0x13 then Uses.plain (31 :: bitsAt word 5 5 :: maskNums (bitsAt word 10 16)) [31]
  else if major = 0x14 then Uses.plain [31] [31]
  else if 0x18 ≤ major ∧ major ≤ 0x1C then
    { Uses.plain (addressReads word) (rd :: addressWrites word) with latency := if issue = 1 then 2 else 0 }
  else if 0x1D ≤ major ∧ major ≤ 0x21 then
    { Uses.plain (rd :: addressReads word) (addressWrites word) with latency := if issue = 1 then 2 else 0 }
  else if major = 0x22 then Uses.plain ([ra, rb] ++ (if bitsAt word 4 7 = 2 then [rd] else [])) [rd]
  else if major = 0x23 then Uses.plain [ra, rb, rd] []
  else if major = 0x24 then
    (if bitsAt word 7 4 = 0 then Uses.plain [] [rd] else Uses.plain [ra] [])
  else if major = 0x25 then Uses.plain [] [rd]
  else if major = 0x3F then
    match bitsAt word 7 4 with
    | 5 => Uses.plain [scFlags] [rd]
    | 6 => Uses.plain [ra] [scFlags]
    | 7 | 8 | 9 => Uses.plain [] [rd]
    | _ => Uses.plain [] []
  else if 0x28 ≤ major ∧ major ≤ 0x2A then Uses.plain [ra] []
  else if major = 0x11 ∨ (0x26 ≤ major ∧ major ≤ 0x2B) then Uses.plain [ra, rb] []
  else Uses.plain [] []

/-- A Runnel instruction with results after `n` cycles. -/
def Uses.late (n : Nat) (reads writes : List Nat) : Uses := ⟨reads, writes, n, true, none, false⟩

/-- One that waits for the whole context (R228). -/
def Uses.fenced (u : Uses) : Uses := { u with fence := true }

/-- An accumulation of R227. -/
def Uses.accumulates (n d : Nat) (reads : List Nat) : Uses := ⟨reads, [scAcc d], n, true, some (scAcc d), false⟩

/-- The Runnel majors (Tables 8.7 to 8.13); a PSEL other than 0 reads a predicate (Table 8.4). The latency of RAINS is
free (assumption log 14). -/
def runnelUses (word : Nat) : Uses :=
  let rd := bitsAt word 21 5
  let ra := bitsAt word 16 5
  let rb := bitsAt word 11 5
  let psel := bitsAt word 3 4
  let ps := if psel = 0 then [] else [scPred (psel % 4)]
  match word / 2 ^ 26 % 64, bitsAt word 7 4 with
  | 0x30, 0 => Uses.late 4 [] [rd]
  | 0x30, 2 | 0x30, 3 => (Uses.plain [ra] []).fenced
  | 0x30, 4 => (Uses.late 4 [] [rd]).fenced
  | 0x30, 5 => (Uses.plain [ra] []).fenced
  | 0x30, _ => (Uses.plain [] []).fenced
  | 0x31, 6 => Uses.late 6 (scSample ra :: scSample rb :: ps) [scSample rd]
  | 0x31, 7 => Uses.late 12 (scSample ra :: scSample rb :: ps) [scSample rd]
  | 0x31, 2 | 0x31, 3 | 0x31, 15 => Uses.late 4 (scSample ra :: ps) [scSample rd]
  | 0x31, 8 | 0x31, 9 | 0x31, 10 => Uses.late 4 (scSample ra :: rb :: ps) [scSample rd]
  | 0x31, _ => Uses.late 4 (scSample ra :: scSample rb :: ps) [scSample rd]
  | 0x32, 9 => Uses.late 4 (scPred ra :: ps) [scPred rd]
  | 0x32, m => Uses.late 4 ((if m < 6 then [scSample ra, scSample rb] else [scPred ra, scPred rb]) ++ ps) [scPred rd]
  | 0x33, 0 | 0x33, 3 => Uses.accumulates 6 rd (scSample ra :: scSample rb :: ps)
  | 0x33, 1 | 0x33, 2 | 0x33, 4 => Uses.accumulates 6 rd (scAcc rd :: scSample ra :: scSample rb :: ps)
  | 0x33, 5 => Uses.accumulates 6 rd (scAcc rd :: scSample ra :: ps)
  | 0x33, 6 => Uses.late 4 ps [scAcc rd]
  | 0x33, 7 | 0x33, 8 => Uses.accumulates 4 rd (scAcc ra :: scAcc rb :: ps)
  | 0x33, 9 => Uses.late 4 (scAcc ra :: ps) [scAcc rd]
  | 0x33, 13 => Uses.late 4 (ra :: ps) [scAcc rd]
  | 0x33, _ => Uses.late 4 (scAcc ra :: rb :: ps) [scAcc rd]
  | 0x34, 0 => Uses.late 6 (scAcc ra :: ps) [scSample rd]
  | 0x34, 1 => Uses.late 4 (ra :: ps) [scSample rd]
  | 0x34, 2 => Uses.late 4 [ra, rb] [scSample rd]
  | 0x34, 3 => Uses.late 4 [scSample ra, rb] [rd]
  | 0x34, 4 => Uses.late Config.rainsLatency [ra, rb] [scAcc rd]
  | 0x34, 5 => Uses.late 4 [scAcc ra, rb] [rd]
  | 0x34, 6 => Uses.late 8 (scAcc ra :: ps) [rd]
  | 0x34, _ => Uses.late 4 (scPred ra :: ps) [rd]
  | 0x35, 4 => Uses.late 10 (ra :: ps) [scAcc rd]
  | 0x35, _ => Uses.late 8 (ra :: ps) [scSample rd]
  | _, 4 => Uses.plain (ra :: scAcc rd :: ps) []
  | _, _ => Uses.plain (ra :: scSample rd :: ps) []

/-- Whether a word is of a Runnel major. -/
def isRunnel (word : Nat) : Bool := decide (0x30 ≤ word / 2 ^ 26 % 64 ∧ word / 2 ^ 26 % 64 ≤ 0x36)

/-- What an instruction asks of the scoreboard. -/
def usesOf (word issue : Nat) : Uses := if isRunnel word then runnelUses word else coreUses word issue

/-! The core's clock. -/

/-- The cycle of a core: the clock's own, and the cycles that its threads have been charged (assumption log 12). -/
def Body.coreNow (b : Body) (tm : Time) (c : Nat) : Nat := tm.cycle + (b.core c).spent

/-- The cycle in which an operation of a hart reaches another unit: its core's, or the clock's for a Bivouac core. -/
def Body.hartCycle (b : Body) (tm : Time) (h : Nat) : Nat := if h < 1024 then b.coreNow tm (coreOf h) else tm.cycle

/-- Where the instruction memory of a core lies among all of them. -/
def imemAddr (core off : Nat) : Nat := core * 0x10000 + off

/-- The instruction word at a thread's PC (R148, R173). -/
def Body.insnAt (b : Body) (h : Nat) : Nat := readLE b.mem.imem (imemAddr (coreOf h) (b.hart h).pc) 4

/-! Waiting. -/

/-- Whether an instruction must wait for a result on its way: it reads the register; or the result is a Runnel
instruction's, and it writes the register (R227) or waits for the whole context (R228). -/
def Uses.needs (u : Uses) (p : Pend) : Bool :=
  u.reads.contains p.reg || (p.runnel && (u.writes.contains p.reg || u.fence))

/-- Whether the exception of R227 lets an instruction go on: it is an accumulation, and what it needs is only its own
destination accumulator, left by an accumulation. -/
def Uses.chains (u : Uses) (l : List Pend) : Bool :=
  match u.into with
  | some a => l.all (fun p => p.accum && p.reg == a)
  | none => false

/-- The results on their way that an instruction needs. -/
def Body.pendingFor (b : Body) (tm : Time) (h : Nat) (u : Uses) : List Pend :=
  (b.hart h).score.filter (fun p => decide (b.coreNow tm (coreOf h) < p.ready) && u.needs p)

/-- The cycles that the next instruction of a data-plane thread waits for results (R208, R226 to R228). -/
def Body.waitOf (b : Body) (tm : Time) (h issue : Nat) : Nat :=
  let u := usesOf (b.insnAt h) issue
  let l := b.pendingFor tm h u
  if 1024 ≤ h ∨ u.chains l then 0 else l.foldl (fun m p => max m (p.ready - b.coreNow tm (coreOf h))) 0

/-- Whether the core switches away from a thread for a Runnel scoreboard wait: 12 cycles remain when its next instruction
reaches register read, in the cycle after its producer entered execute (R142, R226). -/
def Body.mustSwitch (b : Body) (tm : Time) (h : Nat) : Bool :=
  decide (h < 1024) && (b.pendingFor tm h (usesOf (b.insnAt h) 1)).any (fun p =>
    p.runnel && decide (b.coreNow tm (coreOf h) + 11 ≤ p.ready)) && decide (11 ≤ b.waitOf tm h 1)

/-- The results that an instruction leaves on their way, entering execute in cycle `c` with the registers `regs`; those
that have arrived are forgotten, and those of a core instruction that it replaces. A Runnel result that an accumulation
follows (R227) stays on its way too. -/
def Hart.noteResults (x : Hart) (u : Uses) (c : Nat) (regs : SMap Word) : Hart :=
  let kept := x.score.filter (fun p => decide (c < p.ready) && (p.runnel || !u.writes.contains p.reg))
  let place := fun (r : Nat) => if r = 0 ∧ u.runnel then scVoid else r
  let new := if u.latency = 0 then [] else ((u.writes.map place).filter (fun r => r != 0)).map (fun r =>
    (⟨r, c + u.latency, u.runnel, u.into.isSome, mapGet 0 r regs⟩ : Pend))
  { x with score := kept ++ new }

/-- A thread reset discards the Runnel results on their way: a word register keeps what it held (R215, R229). -/
def Hart.dropResults (x : Hart) (now : Nat) : Hart :=
  (x.score.filter (fun p => decide (now < p.ready) && p.runnel && decide (p.reg < 32))).foldr
    (fun p y => { y with regs := mapPut p.reg p.was y.regs }) { x with score := [] }

end Sys2Proof.Machine
end

