-- ==== Sys2Proof/Machine/Threads.lean ====
section
/-! DEFINITION. Threads: dispatch to them, their start, switching, traps, resets, retirement, timers and replies
(spec/05, R130 to R137; spec/06, R141 to R169; spec/09, R247 to R251). -/

namespace Sys2Proof.Machine

def Body.threadTent (b : Body) (h : Nat) : Nat := Sys2Proof.Machine.threadTent b.nLogN h
def Body.live (b : Body) (h : Nat) : Bool := decide ((b.hart h).phase ≠ .retired)

/-- The tent of a thread: that of the item it holds, else the one it serves (R145, R146). A Bivouac core stands outside
every tent and is given tent 0 (assumption log 24). -/
def Body.masterTent (b : Body) (h : Nat) : Nat :=
  if 1024 ≤ h then 0
  else match (b.hart h).item with
    | some it => it.tent
    | none => b.threadTent h

/-! Serving clusters (R131, R134). -/

/-- The live threads of a tent in a cluster. -/
def Body.tentThreads (b : Body) (c t : Nat) : List Nat :=
  ((List.range 64).map (fun i => 64 * c + i)).filter (fun h => b.live h && b.threadTent h == t)

/-- Those of a thread group (R147). -/
def Body.groupThreads (b : Body) (c t g : Nat) : List Nat :=
  (b.tentThreads c t).filter (fun h => (b.fget clsCluster c (FCluster.groupMask g)).testBit (h % 64))

/-- The cluster and the threads that serve a queue, and whether by a fallback of R134. -/
def Body.servers (b : Body) (q : Nat) : Nat × List Nat × Bool :=
  let t := queueTent b.nLogN q
  let c := b.fget clsQueue q FQueue.cluster
  let g := b.fget clsQueue q FQueue.group
  let pick := fun (k : Nat) =>
    let l := b.groupThreads k t g
    if l = [] then (b.tentThreads k t, true) else (l, decide (k ≠ c))
  match ((List.range 16).map (fun k => (c + k) % 16)).find? (fun k => !(b.tentThreads k t).isEmpty) with
  | some k => let p := pick k; (k, p.1, p.2)
  | none => (c, [], true)

/-- The queues whose CLUSTER or GROUP has been written. -/
def Body.boundQueues (b : Body) : List Nat :=
  ((b.fields.filter (fun e => keyClass e.1 == clsQueue && (e.1 % 2 ^ 16 == FQueue.cluster.lo ||
    e.1 % 2 ^ 16 == FQueue.group.lo))).map (fun e => keyInst e.1)).eraseDups

/-- The bindings (tent, cluster, group) that some queue uses: by its fields, or by their reset values, which give each
cluster a sixteenth of a tent's queues with group 0. -/
def Body.usedBindings (b : Body) : List (Nat × Nat × Nat) :=
  let l := b.boundQueues
  let plain := (List.range b.tents).flatMap (fun t => (List.range 16).filterMap (fun c =>
    if (l.filter (fun q => queueTent b.nLogN q == t && q % 16 == c)).length < 1048576 / b.tents / 16 then some (t, c, 0)
    else none))
  (plain ++ l.map (fun q =>
    (queueTent b.nLogN q, b.fget clsQueue q FQueue.cluster, b.fget clsQueue q FQueue.group))).eraseDups

/-- After a change of what lives or of what is bound: GROUP_FALLBACK counts each binding that a fallback of R134 now
serves and did not before. -/
def Body.syncFallbacks (b : Body) : Body :=
  let l := b.usedBindings.filter (fun k => (b.groupThreads k.2.1 k.1 k.2.2).isEmpty)
  let b1 := (l.filter (fun k => !b.work.fallbacks.contains k)).foldl (fun (x : Body) k =>
    x.bump clsHeadgate (1 + k.1) FHead.groupFallback 1) b
  { b1 with work.fallbacks := l }

/-- `n` cycles pass on a core with a thread issuing: they are charged to its item (R50, R137), or to its handler's grace
(R51). -/
def Body.chargeCycles (b : Body) (h n : Nat) : Body :=
  if 1024 ≤ h then b
  else
    let b1 := b.modHart h (fun x =>
      match x.item with
      | some it =>
        if it.overrun then { x with graceUsed := x.graceUsed + n }
        else { x with item := some { it with cycles := it.cycles + n } }
      | none => x)
    let b2 := b1.setCore (coreOf h) { b1.core (coreOf h) with spent := (b1.core (coreOf h)).spent + n }
    (b2.bumpSat clsHeadgate (0x10000 + h) FLoad.issueNow n).bumpSat clsHeadgate (0x20000 + coreOf h) FLoad.issueNow n

/-! Threads become free, are reset, trap (R131, R160 to R163). -/

/-- The held count of a thread stops (R137). -/
def Hart.stopHeld (x : Hart) (cycle : Nat) : Hart :=
  match x.heldSince with
  | some c => { x with heldSince := none, heldNow := x.heldNow + (cycle - c) }
  | none => x

/-- A thread holds no item any more and is free for the next, which loads into the other buffer (R131, R150). -/
def Body.freeThread (b : Body) (tm : Time) (h : Nat) : Body :=
  let b2 := (b.modHart h (fun x => x.stopHeld tm.cycle)).modHart h (fun x =>
    { x with phase := .free, item := none, block := .none, inTrap := false, freeSince := b.cycleOf h, graceUsed := 0,
             nextBuffer := 1 - x.buffer })
  let c := b2.core (coreOf h)
  if c.issuing = some h then b2.setCore (coreOf h) { c with issuing := none } else b2

/-- Context `x` of a core. -/
def CoreSt.ctx (c : CoreSt) (x : Nat) : RCtx := if x = 0 then c.ctx0 else c.ctx1

def CoreSt.setCtx (c : CoreSt) (x : Nat) (v : RCtx) : CoreSt :=
  if x = 0 then { c with ctx0 := v } else { c with ctx1 := v }

/-- A context is bound to a thread: it reads as zero, RCS holds its reset value (R213, R214). -/
def Body.bindContext (b : Body) (h x : Nat) : Body :=
  let c := coreOf h
  (b.setCore c ((b.core c).setCtx x { RCtx.reset with owner := some h })).bump clsRunnel (2 * c + x) FRunnel.binds 1

/-- The thread of a core that has waited longest in an RBIND, the lower number first on a tie (R213). -/
def Body.contextWaiter (b : Body) (c : Nat) : Option Nat :=
  let since : Nat → Option Nat := fun h => match (b.hart h).block with
    | .rbind k => if (b.hart h).phase = Phase.running then some k else none
    | _ => none
  ((List.range 8).map (fun i => 8 * c + i)).foldl (fun best h =>
    match since h with
    | none => best
    | some k => match best with
      | none => some h
      | some g => if k < (since g).getD k then some h else best) none

/-- A context that is free goes to the thread that waits for one (R213); the thread then runs its RBIND again. -/
def Body.handContext (b : Body) (c x : Nat) : Body :=
  if ((b.core c).ctx x).owner.isSome then b
  else match b.contextWaiter c with
    | none => b
    | some h =>
      let b1 := (b.bindContext h x).bump clsRunnel (2 * c + x) FRunnel.bindWaits 1
      (b1.modHart h (fun y => { y with block := .none })).nowAble h

/-- The Runnel contexts of a thread are freed (R163, R215). -/
def Body.freeContexts (b : Body) (h : Nat) : Body :=
  let c := b.core (coreOf h)
  let fr := fun (x : RCtx) => if x.owner = some h then RCtx.reset else x
  ((b.setCore (coreOf h) { c with ctx0 := fr c.ctx0, ctx1 := fr c.ctx1 }).handContext (coreOf h) 0).handContext
    (coreOf h) 1

/-- A thread reset (R163, R204): log, staged words and timers discarded, locks abandoned, context freed with the results on
their way (R215); the thread is free and takes its next item into buffer 0. Registers stay. -/
def Body.resetThread (b : Body) (tm : Time) (h : Nat) : Body :=
  let b1 := (b.abandon (.thread h)).freeContexts h
  let b2 := b1.modHart h (fun z =>
    let x := z.dropResults (b.coreNow tm (coreOf h))
    { x with staging := [], timer := none, taskTimer := none, halted := false, stepping := false, loading := none
             reqs := x.reqs.filter (fun r => match r.kind with | .lock _ => false | .sem _ => false | _ => true) })
  (b2.freeThread tm h).modHart h (fun x => { x with nextBuffer := 0 })

/-- The item of a handed-over diversion: only its deferred releases remain (R244). -/
def Item.onlyDeferred (it : Item) : Item :=
  { it with log := [], staged := it.staged.filter (fun e => match e with | .lockRel _ => true | .semRel _ => true | _ => false) }

def Item.isFrame (it : Item) : Bool := decide (it.src ≠ .event)

/-- The committed-item holder of an item (Table 14.1): a frame item is named by its furrow and sequence, also where it is run
again; an event-only item by its commit. -/
def Item.holder (it : Item) (id : Nat) : Holder :=
  .item (if it.src = .event then id else 0) it.desc.furrow it.desc.seq it.queue (decide (it.src = .event))

/-- The end of an item of a queue: IN_SERVICE falls (R133). -/
def Body.endService (b : Body) (q : Nat) : Body := (b.drop clsQueue q FQueue.inService 1).syncReady q

/-- The Outfall is asked to divert a thread's frame item (R244); only deferred releases are handed over. -/
def Body.askDivert (b : Body) (tm : Time) (h : Nat) (it : Item) (why : DivertBy) : Body :=
  let (k, b1) := b.tick
  let it1 := it.onlyDeferred
  let b2 := b1.passToItem h (it1.holder k) it1.staged
  { b2 with work.commits := b2.work.commits ++ [⟨k, some h, none, clusterOf h, it1, some why, .stage, tm.cycle⟩] }

/-- DOUBLE_TRAP (R162): a frame item is diverted and the thread reset; an event-only item ends. -/
def Body.doubleTrap (b : Body) (tm : Time) (h : Nat) : Body :=
  let b0 := b.bump clsThread h FThread.doubleTraps 1
  match (b.hart h).item with
  | some it =>
    if it.overrun then b0.resetThread tm h
    else if it.isFrame then (b0.resetThread tm h).askDivert tm h it .doubleTrap
    else (b0.resetThread tm h).endService it.queue
  | none => b0.resetThread tm h

/-- TRAP of a data-plane thread (R160): the trap record, IN_TRAP, and on at TRAP_VECTOR; a double trap while in a
handler (R162). -/
def Body.trapThread (b : Body) (tm : Time) (h cause insn addr : Nat) : Body :=
  let x := b.hart h
  if x.inTrap then b.doubleTrap tm h
  else
    (b.setHart h { x with
      inTrap := true, trapCause := cause, trapPc := x.pc, trapInsn := insn, trapAddr := addr, block := .none
      pc := b.fget clsCore (coreOf h) FCore.trapVector }).bump clsThread h FThread.traps 1

/-- The DEVICE instance of a Bivouac core (R424). -/
def bivInst (h : Nat) : Nat := 1 + (h - 1024)

/-! Dispatch (R131, R132). -/

/-- A thread free for dispatch. -/
def Body.freeForDispatch (b : Body) (h : Nat) : Bool :=
  let x := b.hart h
  decide (x.phase = .free) && x.loading.isNone && !x.halted

/-- The free threads of a cluster, longest free first, lower number first. -/
def Body.freeThreads (b : Body) (c : Nat) : List Nat :=
  sortBy (fun x y => decide ((b.hart x).freeSince ≤ (b.hart y).freeSince))
    (((List.range 64).map (fun i => 64 * c + i)).filter (fun h => b.freeForDispatch h))

/-- The level at which a ready queue is served (R130, R361). -/
def Body.level (b : Body) (q : Nat) : Nat := max (b.fget clsQueue q FQueue.priority) (b.boostOf q)

/-- Whether a thread may take work from a queue: none does from a recirculation queue (R106, R243); while its tent is
FREEZING only from one whose task serves frames, while FROZEN from none (R388). -/
def Body.selectable (b : Body) (q : Nat) : Bool :=
  let st := b.fget clsTent (queueTent b.nLogN q) FTent.state
  !b.isRecirc q && (decide (st < 2) || (st == 2 && (b.fget clsQueue q FQueue.mask).testBit 0))

/-- The ready task for a thread: highest level, then earliest on the lists (R131). -/
def Body.pickTask (b : Body) (c h : Nat) : Option Nat :=
  let l := b.work.ready.filter (fun q => b.selectable q && (b.servers q).1 == c && (b.servers q).2.1.contains h)
  l.foldl (fun m q =>
    match m with
    | none => some q
    | some p => if b.level p < b.level q then some q else some p) none

/-- The first free thread, longest free first, for which a ready task is found. -/
def Body.pickPair (b : Body) (c : Nat) : List Nat → Option (Nat × Nat)
  | [] => none
  | h :: r => match b.pickTask c h with
    | some q => some (h, q)
    | none => b.pickPair c r

/-- The wait bin of a first dispatch (R136). -/
def waitBin (w : Int) : Nat := if w ≤ 0 then 0 else if 16384 ≤ w then 15 else Nat.log2 w.toNat + 1

/-- The item goes to a thread: its slot is complete in the eighth cycle (R133). ITEMS counts it from now on, the held count
starts with the item itself (R137 says of neither when the thread takes the item; DESIGN
CHOICE, assumption log 141). -/
def Body.loadItem (b : Body) (tm : Time) (h : Nat) (it : Item) : Body :=
  b.modHart h (fun x =>
    { x with phase := .loading, loading := some (it, tm.cycle + 8), itemsNow := x.itemsNow + 1 })

/-- The selection of a ready task for a free thread (R132, R136). -/
def Body.select (b : Body) (tm : Time) (h q : Nat) : Body :=
  let fl := b.flags q
  let t := queueTent b.nLogN q
  let (e, b1) := b.dequeue q
  let held : Held := (e.bind b.elem?).getD ⟨⟨0, 0, 0, 0, 0, 0, 0, 0, 0, 0, 0, 0⟩, 0⟩
  let src : ItemSrc := match e with
    | some (.slot n) => .slot n
    | some (.record n) => .record n
    | none => .event
  let b2 := b1.bump clsQueue q FQueue.inService 1
  let clr := fl &&& b2.fget clsQueue q FQueue.autoClear &&& b2.fget clsQueue q FQueue.mask / 2 * 2
  let b3 := b2.clearFlags q clr
  let b4 := ({ b3 with work.ready := b3.work.ready.filter (fun x => decide (x ≠ q)) }).syncReady q
  let b5 := match e with
    | some (.slot _) =>
      b4.bumpSat clsFurrow held.desc.furrow (FFurrow.waitBin (waitBin (tickDiff tm.tickNumber (tm.homeTick held.desc.ts)))) 1
    | _ => b4
  let cap := b5.fget clsTick (classInst t held.desc.cls) FClass.cycleCap
  b5.loadItem tm h ⟨src, q, t, held.desc, held.program, tm.now, fl, clr, 0, cap, [], [], false⟩

/-- The item of a cluster's re-dispatch list that comes next, and the thread that takes it: the first in list order for
which a thread of its tent is free (R248). -/
def Body.nextRedispatch (b : Body) (cluster : Nat) : Option (Nat × Item × Nat) :=
  let free := b.freeThreads cluster
  (b.work.redispatch.filter (fun e => e.1 == cluster)).findSome? (fun e =>
    (free.find? (fun h => b.threadTent h == e.2.tent)).map (fun h => (e.1, e.2, h)))

/-- A re-dispatched item goes to a thread, under the CYCLE_CAP now in force (R55) and late or not by the present time
(Table 1.4, R248); DEPTH and IN_SERVICE stay, and the cycle count starts from 0. FLAGS of its dispatch word stay those of
the first selection (DESIGN CHOICE; assumption log 142). -/
def Body.redispatchTo (b : Body) (tm : Time) (k : Nat × Item × Nat) : Body :=
  let it := k.2.1
  ({ b with work.redispatch := b.work.redispatch.erase (k.1, it) }).loadItem tm k.2.2
    { it with cap := b.fget clsTick (classInst it.tent it.desc.cls) FClass.cycleCap, selTime := tm.now }

/-- DISPATCH_SELECT (R131, R132): one selection of a cluster's scheduler, which serves its re-dispatch list first
(R248). -/
def execDispatchSelect (cluster : Nat) (s : State) : Host.Outcome State Fault Refusal :=
  onBody (fun tm b =>
    if b.runs then
      match b.nextRedispatch cluster with
      | some k => b.redispatchTo tm k
      | none =>
        match b.pickPair cluster (b.freeThreads cluster) with
        | some (h, q) => b.select tm h q
        | none => b
    else b) s

/-- REDISPATCH_SELECT (R248): a selection from the cluster's re-dispatch list. -/
def execRedispatchSelect (cluster : Nat) (s : State) : Host.Outcome State Fault Refusal :=
  onBody (fun tm b =>
    if b.runs then
      match b.nextRedispatch cluster with
      | some k => b.redispatchTo tm k
      | none => b
    else b) s

/-! The work slot and the start of an item (R133, R150, R151). -/

/-- The 256 bits of a descriptor (Table 1.3). -/
def Desc.toNat (d : Desc) : Nat :=
  d.buffer % 2 ^ 32 + d.length % 2 ^ 14 * 2 ^ 32 + d.port % 2 ^ 7 * 2 ^ 46 + d.furrow % 2 ^ 16 * 2 ^ 53 +
    d.seq % 2 ^ 32 * 2 ^ 69 + d.tent % 2 ^ 6 * 2 ^ 101 + d.epoch % 2 * 2 ^ 107 + d.pass % 4 * 2 ^ 108 +
    d.cls % 8 * 2 ^ 110 + d.flags % 2 ^ 15 * 2 ^ 113 + d.ts % 2 ^ 64 * 2 ^ 128 + d.metadata % 2 ^ 64 * 2 ^ 192

/-- Where buffer `k` of a thread's work slot lies in its core's local memory (Table 6.2), and local memory as one
memory of 128 KiB per core. -/
def slotAddr (h k : Nat) : Nat := 0x1E000 + 1024 * (h % 8) + 512 * k
def lmemAddr (core a : Nat) : Nat := core * 0x20000 + a

/-- The dispatch word (Table 5.5). -/
def Item.dispatchWord (it : Item) : Nat :=
  if it.isFrame then it.program % 256 + it.flagsSeen % 2 ^ 16 * 2 ^ 16 else 256 + it.flagsSeen % 2 ^ 16 * 2 ^ 16

/-- The bytes of a complete work slot (Table 6.3): descriptor copy with LATE_DISPATCH judged at selection. -/
def Body.slotBytes (b : Body) (tm : Time) (it : Item) : List Byte :=
  let late := it.isFrame && timeReached it.selTime (tm.deadline it.desc.ts)
  let d := if late then { it.desc with flags := it.desc.flags ||| 0x20 } else it.desc
  let dn := if it.isFrame then d.toNat else 0
  leBytes 32 dn ++ leBytes 4 it.dispatchWord ++ List.replicate 28 0 ++
    frameBytes (b.bufData it.desc.buffer) (if it.isFrame then it.desc.length else 0) 0 256 ++ List.replicate 192 0

/-- Before a thread's first item in a new tent, the tent that it serves since a re-pitch, its registers and bindings are
cleared and its context freed (R146). -/
def Body.enterTent (b : Body) (h t : Nat) : Body :=
  if b.isa.moved.contains h && t == b.threadTent h then
    let b1 := (b.freeContexts h).modHart h (fun x => { x with regs := [], staging := [], score := [] })
    let b2 := { b1 with isa.moved := b1.isa.moved.filter (fun k => decide (k ≠ h)) }
    (List.range 8).foldl (fun (y : Body) k => (((y.fset clsThread h (FThread.chanPeer k) 0).fset clsThread h
      (FThread.chanPeerEp k) 0).fset clsThread h (FThread.chanDelivery k) 0).fset clsThread h (FThread.chanValid k) 0) b2
  else b

/-- The thread starts its item at ENTRY_p with w1 to w3 set and LF clear (R151, R177). -/
def Body.startItem (b : Body) (tm : Time) (h : Nat) (it : Item) : Body :=
  let b0 := (if it.isFrame then b.bufRead it.desc.buffer 0 (min 256 it.desc.length) else b).enterTent h it.tent
  let x := b0.hart h
  let k := x.nextBuffer
  let a := slotAddr h k
  let b1 := { b0 with mem.lmem := writeBytes b0.mem.lmem (lmemAddr (coreOf h) a) (b0.slotBytes tm it) }
  let regs := mapPut 3 (BitVec.ofNat 32 it.queue)
    (mapPut 2 (BitVec.ofNat 32 it.dispatchWord) (mapPut 1 (BitVec.ofNat 32 a) x.regs))
  let b3 := if mapHas (coreOf h) b1.isa.cores then b1
    else b1.setCore (coreOf h) { CoreSt.reset with lastCommit := tm.cycle }
  b3.setHart h { x with
    phase := .running, item := some it, loading := none, buffer := k, regs := regs, block := .none
    flags := { x.flags with lf := false }
    pc := b1.fget clsCore (coreOf h) (coreEntry (if it.isFrame then it.program else 0))
    inTrap := false, graceUsed := 0, ableSince := b1.cycleOf h, heldSince := some tm.cycle }

/-- ITEM_START (R133, R151): in the cycle after its slot is complete the thread starts the item. The prefetch of a frame in
DRAM waits for a frozen channel (R307). -/
def execItemStart (h : Nat) (s : State) : Host.Outcome State Fault Refusal :=
  onDev (fun d =>
    match (d.b.hart h).loading with
    | some (it, c) =>
      if it.isFrame && d.b.bufHeld it.desc.buffer then d
      else let d1 := d.waitCycle (c + 1); { d1 with b := d1.b.startItem d1.tm h it }
    | none => d) s

/-- The thread of a core that has waited longest among those able to issue, `not` aside (R143). -/
def Body.nextThread (b : Body) (c : Nat) (not : Option Nat) : Option Nat :=
  (((List.range 8).map (fun i => 8 * c + i)).filter (fun h => b.able h && not != some h)).foldl (fun m h =>
    match m with
    | none => some h
    | some p => if (b.hart h).ableSince < (b.hart p).ableSince then some h else some p) none

/-- The core takes a thread as its issuing thread: 2 cycles, charged to it (R143). -/
def Body.switchTo (b : Body) (core h : Nat) : Body :=
  ((b.setCore core { b.core core with issuing := some h }).chargeCycles h 2).bump clsCore core FCore.switches 1

/-- The core idles for `n` cycles, which are charged to no thread (R143). -/
def Body.idleCore (b : Body) (core n : Nat) : Body :=
  b.setCore core { b.core core with spent := (b.core core).spent + n }

/-- THREAD_SWITCH (R142, R143): when the issuing thread cannot issue, or there is none, the core takes the next. Away from
a thread that waits for an RDIV it takes another one; with no other able, it idles until the result is there. -/
def execThreadSwitch (core : Nat) (s : State) : Host.Outcome State Fault Refusal :=
  onBody (fun tm b =>
    match (b.core core).issuing.filter (fun h => b.able h) with
    | some h =>
      if b.mustSwitch tm h then
        match b.nextThread core (some h) with
        | some g => (b.modHart h (fun x => { x with ableSince := b.cycleOf h + b.waitOf tm h 1 })).switchTo core g
        | none => (b.idleCore core (b.waitOf tm h 1)).switchTo core h
      else b
    | none =>
      match b.nextThread core none with
      | some h => b.switchTo core h
      | none => b.setCore core { b.core core with issuing := none }) s

/-! The cycle cap (R51, R52). -/

/-- CYCLE_CAP_REACHED (R51): the log is discarded, the packet diverted at CYCLE_CAP cycles, DIVERSIONS counted, and the
thread traps with BUDGET_OVERRUN, where the item and with it the held count ends (R137); within another handler it is a
double trap (R162). Not in Bench mode (R52). -/
def execCycleCapReached (h : Nat) (s : State) : Host.Outcome State Fault Refusal :=
  onBody (fun tm b =>
    match (b.hart h).item with
    | some it =>
      if it.isFrame && !it.overrun && decide (it.cap ≤ it.cycles) && !b.inBench &&
          decide ((b.hart h).phase = .running) then
        let it1 := { it with cycles := it.cap }
        if (b.hart h).inTrap then (b.modHart h (fun x => { x with item := some it1 })).doubleTrap tm h
        else
          let i := classInst it.tent it.desc.cls
          let b1 := b.askDivert tm h it1 .cap
          let b2 := b1.modHart h (fun y =>
            let x := y.stopHeld tm.cycle
            { x with staging := [], graceUsed := 0, item := some { it with log := [], staged := [], overrun := true } })
          ((b2.trapThread tm h 0x05 (b.insnAt h) 0).bump clsTick i FClass.diversions 1).bump clsTick 0 FTick.diversions 1
      else b
    | none => b) s

/-- DIVERT_GRACE_EXPIRY (R51): the handler has not returned within DIVERT_GRACE cycles, so the thread is reset. -/
def execDivertGraceExpiry (h : Nat) (s : State) : Host.Outcome State Fault Refusal :=
  onBody (fun tm b =>
    match (b.hart h).item with
    | some it =>
      if it.overrun && decide (b.fget clsTick (classInst it.tent it.desc.cls) FClass.divertGrace ≤ (b.hart h).graceUsed) then
        b.resetThread tm h
      else b
    | none => b) s

/-! Retirement (R247 to R251). -/

/-- An item goes to the re-dispatch list of the cluster that serves its queue, with REDISPATCHED set (R27, R248). -/
def Body.redispatchItem (b : Body) (it : Item) : Body :=
  let it1 := { it with
    desc := { it.desc with flags := it.desc.flags ||| 1 }
    cycles := 0, log := [], staged := [], overrun := false }
  (({ b with work.redispatch := b.work.redispatch ++ [((b.servers it.queue).1, it1)] }).bump clsOutfall 0 FOut.reruns
    1).bump clsOutfall (1 + it.tent) FOut.reruns 1

/-- What a retired thread held: a frame item is re-dispatched, an event-only item gives its flags back (R248, R249);
an item already diverted is not. The number re-dispatched comes with it. -/
def Body.giveBackItem (b : Body) (it : Item) : Body :=
  if it.overrun then b
  else if it.isFrame then b.redispatchItem it
  else (b.endService it.queue).setFlags it.queue it.cleared

/-- A log that a thread still keeps is discarded (R247). -/
def Body.dropKept (b : Body) (h : Nat) : Body :=
  { b with work.commits := b.work.commits.filter (fun o => !decide (o.thread = some h ∧ o.place = LogPlace.thread)) }

/-- A thread retires (R247): its item, if its log has not left it, is given back; locks are abandoned; timers, requests
and contexts are cancelled, and its held count stops (R137). -/
def Body.retireThread (b : Body) (cycle h : Nat) : Body :=
  let x := (b.hart h).stopHeld cycle
  let b1 := (b.abandon (.thread h)).freeContexts h
  let b2 := b1.dropKept h
  let b3 := b2.setHart h { x with
    phase := .retired, item := none, loading := none, block := .none, reqs := [], staging := [], timer := none, score := []
    taskTimer := none, inbox := (x.inbox.filter (fun e => decide (8 ≤ e.1))) }
  let b4 := b3.fset clsCluster (clusterOf h) FCluster.liveThreads
    (b3.fget clsCluster (clusterOf h) FCluster.liveThreads &&& (2 ^ 64 - 1 - 2 ^ (h % 64)))
  let b5 := match x.item with
    | some it => b4.giveBackItem it
    | none => b4
  match x.loading with
  | some (it, _) => b5.giveBackItem it
  | none => b5

/-- A core retires (R247, R251): `st` is CORE.STATE, `cause` RETIRE_CAUSE. -/
def Body.retireCore (b : Body) (cycle c st cause : Nat) : Body :=
  if b.fget clsCore c FCore.state ≠ 0 then b
  else
    let b0 := b.fset clsCore c FCore.state st
    let b1 := (List.range 8).foldl (fun (x : Body) i =>
      x.modHart (8 * c + i) (fun y => { y with phase := .retired, halted := false })) b0
    let b2 := ((b1.fset clsCore c FCore.retireCause cause).bump clsOutfall 0 FOut.coresRetired 1).fset
      clsOutfall 0 FOut.lastCore c
    let marked := (List.range 8).foldl (fun (x : Body) i => x.fset clsCluster (c / 8) FCluster.liveThreads
      (x.fget clsCluster (c / 8) FCluster.liveThreads &&& (2 ^ 64 - 1 - 2 ^ ((8 * c + i) % 64)))) b2
    let b3 := (List.range 8).foldl (fun (x : Body) i => x.retireThread cycle (8 * c + i)) marked
    let b4 := (b3.setCore c { CoreSt.reset with lastCommit := 0 }).ring 33
    if b4.sys.base = .service then b4.setBase .degraded else b4

/-- The order of R241: older home tick first, then lower furrow. -/
def itemOrder (tm : Time) (x y : Item) : Bool :=
  let k := fun (it : Item) => tickDiff tm.tickNumber (tm.homeTick (if it.isFrame then it.desc.ts else it.selTime))
  decide (k y < k x ∨ (k x = k y ∧ (if x.isFrame then x.desc.furrow else 65536) ≤
    (if y.isFrame then y.desc.furrow else 65536)))

/-- LAST_RERUN: the items re-dispatched by a retirement (R251). They stand on the list in the order of R241 (Table 9.4,
assumption log 23). -/
def Body.noteRerun (b : Body) (tm : Time) (before : Nat) (cluster : Bool) : Body :=
  let l := b.work.redispatch
  let b1 := { b with
    work.redispatch := l.take before ++ sortBy (fun (x y : Nat × Item) => itemOrder tm x.2 y.2) (l.drop before) }
  (b1.fset clsOutfall 0 FOut.lastRerun (l.length - before)).fset clsOutfall 0 FOut.lastWasCluster
    (if cluster then 1 else 0)

/-- One core retires by itself. -/
def Body.retireOne (b : Body) (tm : Time) (c cause : Nat) : Body :=
  if b.fget clsCore c FCore.state ≠ 0 then b
  else ((b.retireCore tm.cycle c 1 cause).noteRerun tm b.work.redispatch.length false).syncFallbacks

/-- CORE_WATCHDOG (R164): WATCHDOG cycles pass with a thread able to issue and no core commit. -/
def execCoreWatchdog (core : Nat) (s : State) : Host.Outcome State Fault Refusal :=
  onDev (fun d =>
    if core < 128 ∧ ((List.range 8).any (fun i => d.b.able (8 * core + i))) ∧ d.b.fget clsCore core FCore.state = 0 then
      let d1 := d.waitCycle ((d.b.core core).lastCommit + d.b.fget clsCore core FCore.watchdog)
      { d1 with b := d1.b.retireOne d1.tm core 3 }
    else d) s

/-- CORE_MEMORY_ERROR (R164, R321): an uncorrectable local memory error, or a Runnel parity error, retires the core. Which
word of the 192 KiB is wrong, the command does not say: LAST_ERR_ADDR takes a free offset (assumption log 39). -/
def execCoreMemoryError (core : Nat) (runnel : Bool) (s : State) : Host.Outcome State Fault Refusal :=
  onBody (fun tm b =>
    if 128 ≤ core ∨ b.fget clsCore core FCore.state ≠ 0 then b
    else
      let (r, b1) := b.fresh
      let b2 := if runnel then b1
        else (b1.bump clsMemregion (0x100 + core) FMem.uncorrectable 1).fset clsMemregion (0x100 + core) FMem.lastErrAddr
          (r % 0x30000 / 8 * 8)
      b2.retireOne tm core (if runnel then 2 else 1)) s

/-- Whether an item waiting in the log store needs its cluster's scratchpad (R250). -/
def OItem.needsSpad (o : OItem) : Bool :=
  o.item.staged.any (fun e => match e with | .store _ _ => true | .add _ _ => true | _ => false) ||
    o.item.log.any (fun e => match e with | .stg 1 _ => true | _ => false)

/-- Log-store spaces of an item (R238). -/
def Item.spaces (it : Item) : Nat :=
  1 + (it.log.map (fun e => match e with | .chan _ _ _ _ => 2 | .stg _ _ => 1)).sum + it.staged.length

/-- LOG_USED of the tent and the device falls when an item leaves the store. -/
def Body.logOut (b : Body) (it : Item) : Body :=
  (b.drop clsOutfall (1 + it.tent) FOut.logUsed it.spaces).drop clsOutfall 0 FOut.logUsed it.spaces

/-- A cluster retires (R250, R251): all eight cores retire with RETIRE_CAUSE 4, the scratchpad is lost, and stored logs
that need it are discarded and their items re-dispatched. -/
def Body.retireCluster (b : Body) (tm : Time) (cluster : Nat) : Body :=
  if 16 ≤ cluster ∨ b.fget clsCluster cluster FCluster.retired = 1 then b
  else
    let n0 := b.work.redispatch.length
    let b0 := b.fset clsCluster cluster FCluster.liveThreads 0
    let b0' := (List.range 64).foldl (fun (x : Body) i =>
      x.modHart (64 * cluster + i) (fun y => { y with phase := .retired })) b0
    let b1 := (List.range 8).foldl (fun (x : Body) i => x.retireCore tm.cycle (8 * cluster + i) 2 4) b0'
    let lost := b1.work.commits.filter (fun o => decide (o.place = .store ∧ o.cluster = cluster) && o.needsSpad)
    let b2 := { b1 with
      work.commits := b1.work.commits.filter (fun o => !(decide (o.place = .store ∧ o.cluster = cluster) && o.needsSpad))
      mem.spad := b1.mem.spad.filter (fun c => decide (c.1 / 0x100000 ≠ cluster)) }
    let b3 := lost.foldl (fun (x : Body) o => (x.logOut o.item).giveBackItem o.item) b2
    let b4 := ((b3.fset clsCluster cluster FCluster.retired 1).bump clsOutfall 0 FOut.clustersRetired 1).ring 34
    (b4.noteRerun tm n0 true).syncFallbacks

/-- CLUSTER_RETIRE (R250). -/
def execClusterRetire (cluster : Nat) (s : State) : Host.Outcome State Fault Refusal :=
  onBody (fun tm b => b.retireCluster tm cluster) s

/-- At a boundary the load of the tick just ended is copied and starts anew (R137). -/
def Body.rollLoads (b : Body) (tm : Time) : Body :=
  let hs := (b.isa.harts.map (fun e => e.1)).filter (fun h => decide (h < 1024))
  let b1 := hs.foldl (fun (y : Body) h =>
    let x := y.hart h
    let held := x.heldNow + (match x.heldSince with | some c => tm.cycle - c | none => 0)
    let i := 0x10000 + h
    (((((y.fset clsHeadgate i FLoad.issueLast (y.fget clsHeadgate i FLoad.issueNow)).fset clsHeadgate i FLoad.issueNow 0).fset
      clsHeadgate i FLoad.heldLast held).fset clsHeadgate i FLoad.itemsLast x.itemsNow).setHart h
        { x with heldNow := 0, itemsNow := 0, heldSince := x.heldSince.map (fun _ => tm.cycle) })) b
  let cs := (hs.map coreOf).eraseDups
  cs.foldl (fun (y : Body) c =>
    let i := 0x20000 + c
    ((y.fset clsHeadgate i FLoad.issueLast (y.fget clsHeadgate i FLoad.issueNow)).fset clsHeadgate i FLoad.issueNow 0).fset
      clsHeadgate i FLoad.itemsLast (((List.range 8).map (fun k => y.fget clsHeadgate (0x10000 + 8 * c + k) FLoad.itemsLast)).sum)) b1

/-! Timers and replies (R154, R156, R198, R204). -/

/-- THREAD_TIMER_EXPIRY (R204): the timer's tag is posted to endpoint 5. -/
def execThreadTimerExpiry (h : Nat) (s : State) : Host.Outcome State Fault Refusal :=
  onDev (fun d =>
    match (d.b.hart h).timer with
    | some (t, tag) =>
      let d1 := d.waitUntil t
      { d1 with b := (d1.b.modHart h (fun x => { x with timer := none })).putMsg h 5 [tag] }
    | none => d) s

/-- TASK_TIMER_EXPIRY (R204): flag 2 of the timer's queue is set. -/
def execTaskTimerExpiry (h : Nat) (s : State) : Host.Outcome State Fault Refusal :=
  onDev (fun d =>
    match (d.b.hart h).taskTimer with
    | some (t, q) =>
      let d1 := d.waitUntil t
      { d1 with b := (d1.b.modHart h (fun x => { x with taskTimer := none })).setFlags q 4 }
    | none => d) s

/-- Bytes as little-endian words. -/
def wordsOf : List Byte → List Word
  | a :: b :: c :: d :: r => BitVec.ofNat 32 (leNat [a, b, c, d]) :: wordsOf r
  | [] => []
  | l => [BitVec.ofNat 32 (leNat l)]

/-- The reply of a request, where it is known: an FRD is answered from the item's frame (R198), once its channel runs
(R307). -/
def Body.replyOf (b : Body) (h : Nat) (r : Req) : Option (List Word) :=
  match r.kind with
  | .frd off n =>
    match (b.hart h).item with
    | some it =>
      if b.bufHeld it.desc.buffer then none
      else some (wordsOf (frameBytes (b.bufData it.desc.buffer) it.desc.length off (4 * n)))
    | none => some (List.replicate n 0)
  | _ => r.reply

/-- An FRD reads its bytes. -/
def Body.frdRead (b : Body) (h : Nat) (r : Req) : Body :=
  match r.kind, (b.hart h).item with
  | .frd off n, some it => b.bufRead it.desc.buffer off (4 * n)
  | _, _ => b

/-- REQUEST_REPLY (R198): the reply to the earliest request of the endpoint arrives whole. -/
def execRequestReply (h : Nat) (ep : Nat) (s : State) : Host.Outcome State Fault Refusal :=
  onBody (fun _ b =>
    match (b.hart h).reqs.find? (fun r => r.ep == ep) with
    | some r =>
      match b.replyOf h r with
      | some ws => ((b.frdRead h r).modHart h (fun x => { x with reqs := x.reqs.erase r })).pushMsg h ep ws
      | none => b
    | none => b) s

/-- DIRECT_MESSAGE_DELIVER (R156): the message of a blocked writer, which is not halted (R167), enters the peer endpoint
once it has room for all its words; one to a retired thread is lost. -/
def execDirectMessageDeliver (h : Nat) (ep : Nat) (s : State) : Host.Outcome State Fault Refusal :=
  onBody (fun _ b =>
    match (b.hart h).block with
    | .direct e peer pe words =>
      if (b.hart h).halted then b
      else if e = ep ∧ (!b.live peer ∨ (b.hart peer).wordsIn pe + words.length ≤ 16) then
        ((if b.live peer then b.pushMsg peer pe words else b).modHart h (fun x => { x with block := .none })).nowAble h
      else b
    | _ => b) s

end Sys2Proof.Machine
end

