-- ==== Sys2Proof/Machine/Irq.lean ====
section
/-! DEFINITION. The interrupt router (spec/14, R363 to R370; spec/15, R380). -/

namespace Sys2Proof.Machine

/-- The IRQ instance of a Bivouac core. -/
def irqCore (j : Nat) : Nat := 0x10000 + j

/-- Whether a source is a doorbell source of a tent (R363). -/
def Body.ownDoorbell (b : Body) (t s : Nat) : Bool :=
  decide (1024 + t * (3072 / b.tents) ≤ s ∧ s < 1024 + (t + 1) * (3072 / b.tents))

/-- The tent-relative vectors of a tent, and an absolute one (R380). -/
def Body.vectorShare (b : Body) : Nat := 2048 / b.tents
def Body.irqVector (b : Body) (s : Nat) : Nat :=
  b.fget clsIrq s FIrq.targetTent * b.vectorShare + b.fget clsIrq s FIrq.target

/-- Whether a source is pending, enabled and targets the kind. -/
def Body.irqWaits (b : Body) (s : Nat) : Bool := b.fget clsIrq s FIrq.pending == 1 && b.fget clsIrq s FIrq.enable == 1

/-- Whether a source targets Bivouac core `j`. -/
def Body.irqAt (b : Body) (j s : Nat) : Bool :=
  b.fget clsIrq s FIrq.targetKind == 0 && b.fget clsIrq s FIrq.target == j

def Body.coreHolds (b : Body) (j : Nat) : Bool := b.fget clsIrq (irqCore j) FIrqDev.holds == 1
def Body.coreRequest (b : Body) (j : Nat) : Bool := b.fget clsIrq (irqCore j) FIrqDev.request == 1

/-- Whether the router can deliver a source now (R366): a source for a Bivouac core raises a request that is not yet
raised while the core holds no claim. -/
def Body.irqDeliverable (b : Body) (s : Nat) : Bool :=
  b.irqWaits s &&
    (if b.fget clsIrq s FIrq.targetKind = 0 then
      !b.coreHolds (b.fget clsIrq s FIrq.target) && !b.coreRequest (b.fget clsIrq s FIrq.target)
     else true)

/-- A source goes into service with RINGS copied and cleared (R366). -/
def Body.irqServe (b : Body) (s : Nat) : Body :=
  ((((b.fset clsIrq s FIrq.pending 0).fset clsIrq s FIrq.inService 1).fset clsIrq s FIrq.lastRings
    (b.fget clsIrq s FIrq.rings)).fset clsIrq s FIrq.rings 0).bump clsIrq s FIrq.deliveries 1

/-- The message of a vector: its data to its address (R376). One that meets a crossing which is not ready, or a PCIe
clock that has stopped, waits (R432, R437). -/
def Body.sendMessageOf (b : Body) (v : Nat) : Body :=
  let e := mapGet 0 v b.host.msix
  let o : Output := .msix v (bitsAt e 0 64) (bitsAt e 64 32)
  if b.hostOut then b.emit o else { b with host.held := b.host.held ++ [o] }

/-- PCIE_OUT is ready again and its clock runs: the messages that wait go out in their order (R432, R437). -/
def Body.sendHeld (b : Body) : Body :=
  if b.hostOut then { b with outputs := b.outputs ++ b.host.held, host.held := [] } else b

/-- Whether a vector is masked, or its function mask is set (R380). -/
def Body.vectorMasked (b : Body) (v : Nat) : Bool := b.host.functionMask || !b.host.unmasked.contains v

/-- An MSI-X message: sent, or noted in the PBA while its vector is masked (R380). -/
def Body.sendVector (b : Body) (v : Nat) : Body :=
  if !b.vectorMasked v then b.sendMessageOf v
  else if b.host.pba.contains v then b else { b with host.pba := b.host.pba ++ [v] }

/-- A vector is unmasked: a message that waits is sent (R380). -/
def Body.unmaskVector (b : Body) (v : Nat) : Body :=
  let b1 := if b.host.unmasked.contains v then b else { b with host.unmasked := v :: b.host.unmasked }
  if b1.host.pba.contains v && !b1.vectorMasked v then
    { b1 with host.pba := b1.host.pba.filter (fun x => decide (x ≠ v)) }.sendMessageOf v
  else b1

/-- Delivery of a source to its target (R366). -/
def Body.irqDeliver (b : Body) (s : Nat) : Body :=
  match b.fget clsIrq s FIrq.targetKind with
  | 0 => b.fset clsIrq (irqCore (b.fget clsIrq s FIrq.target)) FIrqDev.request 1
  | 1 => (b.irqServe s).setFlags (b.irqQueue s) 0x40
  | _ => (b.irqServe s).sendVector (b.irqVector s)

/-- The device in a cycle in which every ring and assertion so far counts (R364, R369). -/
def Dev.pastRings (d : Dev) : Dev := if d.b.sync.irqFrom ≤ d.tm.cycle then d else d.waitCycle d.b.sync.irqFrom

/-- One cycle of the router: up to four sources, lowest number first. -/
def Body.routerCycle (b : Body) : Body :=
  ((sortBy (fun x y => decide (x ≤ y)) b.irqListed).foldl (fun (x : Nat × Body) k =>
    if x.1 < 4 ∧ x.2.irqDeliverable k then (x.1 + 1, x.2.irqDeliver k) else x) (0, b)).2

/-- ROUTER_DELIVER (R366, R369): a cycle of the router, which no ring of that cycle precedes and no clear of that cycle
follows. -/
def execRouterDeliver (s : State) : Host.Outcome State Fault Refusal :=
  onDev (fun d => let e := d.pastRings; Dev.wait { e with b := e.b.routerCycle } 1) s

/-- A ring by a write of RING (R363, R364); a level source has no rings. -/
def Body.ringWrite (b : Body) (s : Nat) : Body := if b.fget clsIrq s FIrq.sense = 0 then b.ring s else b

/-- A write of COMPLETE (R368): by the host of TARGET_TENT or the Bivouac, of a host vector's source in service. -/
def Body.hostComplete (b : Body) (au : Auth) (s : Nat) : Body :=
  let mine : Bool := match au with
    | .biv => true
    | .host t => decide (b.fget clsIrq s FIrq.targetTent = t)
  if b.fget clsIrq s FIrq.targetKind = 2 ∧ b.fget clsIrq s FIrq.inService = 1 ∧ mine then b.irqComplete s
  else b.bump clsIrq s FIrq.badComplete 1

/-- Whether a host may write COMPLETE of a source (R371). -/
def Body.completeReach (b : Body) (au : Auth) (s : Nat) : Bool :=
  decide (s < 4096) && (match au with
    | .biv => true
    | .host t => b.ownDoorbell t s ||
        (b.fget clsIrq s FIrq.targetKind == 2 && b.fget clsIrq s FIrq.targetTent == t))

/-- VECTOR_UNMASK (R380). -/
def execVectorUnmask (v : Nat) (s : State) : Host.Outcome State Fault Refusal :=
  onBody (fun _ b => if v < 2048 then b.unmaskVector v else b) s

/-! BAR4: the MSI-X table, the PBA and the mailbox (R376, R380, R406; PCI Express gives the layout of a table entry and
of the PBA, assumption log 131). -/

/-- A word of MB_CTRL (Table 16.3). -/
def Mailbox.control (m : Mailbox) : Nat :=
  2 * bit m.busy + 4 * bit m.done + 8 * bit m.ready + m.source % 4096 * 2 ^ 16 + bit m.sourceEn * 2 ^ 28

/-- The Bivouac memory of the mailbox's buffers that BAR4 offset `off` shows (R406). -/
def mailboxAddr (off : Nat) : Nat := 0x7F0000 + (off - 0x10000) / 4 * 4

/-- A word of BAR4 as it reads. -/
def Body.bar4Word (b : Body) (off : Nat) : Nat :=
  if off < 0x8000 then
    let v := off / 16
    if off / 4 % 4 = 3 then bit (!b.host.unmasked.contains v) else bitsAt (mapGet 0 v b.host.msix) (32 * (off / 4 % 4)) 32
  else if off < 0x8100 then
    ((List.range 32).map (fun k => bit (b.host.pba.contains (32 * ((off - 0x8000) / 4) + k)) * 2 ^ k)).sum
  else if 0x10000 ≤ off ∧ off < 0x18000 then readLE b.mem.bmem (mailboxAddr off) 4
  else if off / 4 = 0x6000 then b.adm.mailbox.control
  else 0

/-- A write of MB_CTRL (Table 16.3). -/
def Body.writeMailbox (b : Body) (x : Nat) : Body :=
  let rs := (List.range 32).countP (fun k => x.testBit k && decide ((4 ≤ k ∧ k < 16) ∨ 29 ≤ k))
  let b1 := if rs = 0 then b else b.bumpSat clsDevice 0 FDevice.reservedWrites rs
  let go := x.testBit 0 && !b.adm.mailbox.busy
  let b2 := { b1 with adm.mailbox := { b1.adm.mailbox with
    busy := b.adm.mailbox.busy || go, done := b.adm.mailbox.done && !x.testBit 2
    source := bitsAt x 16 12, sourceEn := x.testBit 28 } }
  let b3 := if go then { b2 with adm.arrivals := b2.adm.arrivals ++ [.mailbox] } else b2
  if x.testBit 0 then b3.fire 0 else b3

/-- A write of a word of BAR4. -/
def Body.bar4Write (b : Body) (off x : Nat) : Body :=
  if off < 0x8000 then
    let v := off / 16
    let k := off / 4 % 4
    if k = 3 then
      if x.testBit 0 then { b with host.unmasked := b.host.unmasked.filter (fun y => decide (y ≠ v)) } else b.unmaskVector v
    else
      let e := mapGet 0 v b.host.msix
      { b with host.msix := mapPut v (e - bitsAt e (32 * k) 32 * 2 ^ (32 * k) + x % 2 ^ 32 * 2 ^ (32 * k)) b.host.msix }
  else if 0x10000 ≤ off ∧ off < 0x18000 then { b with mem.bmem := writeLE b.mem.bmem (mailboxAddr off) 4 x }
  else if off / 4 = 0x6000 then b.writeMailbox x
  else b

/-! Claims of a Bivouac core (R367, R368). -/

/-- LIVE of a source: its level, or 1 for a doorbell. -/
def Body.irqLive (b : Body) (s : Nat) : Nat :=
  if b.fget clsIrq s FIrq.sense = 1 then b.fget clsIrq s FIrq.level else 1

/-- The claim word (Table 14.3). -/
def claimWord (s live rep rings : Nat) : Nat := s % 4096 + live * 2 ^ 12 + 2 ^ 13 + rep * 2 ^ 14 + rings % 65536 * 2 ^ 16

/-- The lowest pending, enabled source that targets core `j`. -/
def Body.irqNext (b : Body) (j : Nat) : Option Nat :=
  ((sortBy (fun x y => decide (x ≤ y)) b.irqListed).filter (fun s => b.irqWaits s && b.irqAt j s)).head?

/-- A claim by core `j`: the claim word and the state (R367). -/
def Body.claim (b : Body) (j : Nat) : Nat × Body :=
  let i := irqCore j
  if b.coreHolds j then
    let s := b.fget clsIrq i FIrqDev.claimed
    (claimWord s (b.irqLive s) 1 0, b)
  else match b.irqNext j with
    | none => (0, b.fset clsIrq i FIrqDev.request 0)
    | some s =>
      let rings := if b.fget clsIrq s FIrq.sense = 1 then 1 else b.fget clsIrq s FIrq.rings
      let b1 := (((b.fset clsIrq s FIrq.pending 0).fset clsIrq s FIrq.inService 1).fset clsIrq s FIrq.rings 0).bump
        clsIrq s FIrq.deliveries 1
      let b2 := ((b1.fset clsIrq i FIrqDev.claimed s).fset clsIrq i FIrqDev.holds 1).fset clsIrq i FIrqDev.request 0
      (claimWord s (b.irqLive s) 0 rings, b2.bump clsIrq i FIrqDev.claims 1)

/-- A completion by core `j` of source `s` (R368): by the claimant, of the source in service. -/
def Body.complete (b : Body) (j s : Nat) : Body :=
  let i := irqCore j
  if b.coreHolds j ∧ b.fget clsIrq i FIrqDev.claimed = s ∧ b.fget clsIrq s FIrq.inService = 1 then
    (b.fset clsIrq i FIrqDev.holds 0).irqComplete s
  else if s < 4096 then b.bump clsIrq s FIrq.badComplete 1 else b

end Sys2Proof.Machine
end

