-- ==== Sys2Proof/Machine/Egress.lean ====
section
/-! DEFINITION. Ports on the way out: link rates, gates, egress class queues, redundancy, link holds and the frames
as they leave (spec/03, R64 to R87). -/

namespace Sys2Proof.Machine

/-! Ports, speeds and wire times. -/

/-- Whether a port number is present under its group's mode (Table 3.1). -/
def presentIn (mode p : Nat) : Bool := decide (64 ≤ p) || decide (mode ≠ 0) || p % 4 == 0

def Body.portPresent (b : Body) (p : Nat) : Bool := presentIn (b.fget clsPort p FPort.mode) p

/-- UP (R60); internal ports have no PCS and are always up. -/
def Body.portUp (b : Body) (p : Nat) : Bool := decide (64 < p) || b.fget clsPort p FPort.operState == 3

/-- The speed of a line port in Mbit/s under a group mode (Table 3.1). -/
def modeSpeed (mode p : Nat) : Nat :=
  match mode with
  | 0 => 100000
  | 1 => 25000
  | 2 => 10000
  | _ => if p % 4 < 2 then 25000 else 10000

/-- Whether a port may use a FEC at a speed (Table 3.2). -/
def fecAllowed (speed fec : Nat) : Bool :=
  !((speed == 10000 && fec == 2) || (speed == 100000 && fec == 1))

/-- OPER_SPEED's codes (Table 3.5), in Mbit/s and back. -/
def speedMbit (code : Nat) : Nat := [1000, 10, 100, 1000, 10000, 25000, 100000, 1000].getD code 1000
def speedCode (mbit : Nat) : Nat :=
  if mbit = 10 then 1 else if mbit = 100 then 2 else if mbit = 1000 then 3 else if mbit = 10000 then 4
  else if mbit = 25000 then 5 else 6

/-- The rate of R70 in Mbit/s. -/
def Body.portRate (b : Body) (p : Nat) : Nat :=
  if b.fget clsPort p FPort.operState = 3 then speedMbit (b.fget clsPort p FPort.operSpeed)
  else if p = 64 then 1000 else modeSpeed (b.fget clsPort p FPort.mode) p

/-- Time of `n` bits at a rate in Mbit/s, in 2^-16 ns, rounded up. -/
def bitTime16 (n rate : Nat) : Nat := ceilDiv (n * 1000 * 65536) rate

/-- The wire time of R70 in 2^-16 ns. -/
def wireTime (len rate : Nat) : Nat := bitTime16 ((len + 20) * 8) rate

/-! Egress state of a port. -/

def EgPort.reset : EgPort :=
  { queues := [], sending := none, cycleStart := 0, mult := 1, pauses := [], downSince := 0, diverting := false,
    stamps := [], xoff := none }
def Body.eg (b : Body) (p : Nat) : EgPort := mapGet EgPort.reset p b.net.egress
def Body.setEg (b : Body) (p : Nat) (x : EgPort) : Body := { b with net.egress := mapPut p x b.net.egress }
def EgPort.queue (x : EgPort) (c : Nat) : List EgFrame := mapGet [] c x.queues
def EgPort.setQueue (x : EgPort) (c : Nat) (l : List EgFrame) : EgPort := { x with queues := mapPut c l x.queues }
def Body.egQueue (b : Body) (p c : Nat) : List EgFrame := (b.eg p).queue c
def Body.setEgQueue (b : Body) (p c : Nat) (l : List EgFrame) : Body := b.setEg p ((b.eg p).setQueue c l)

/-- QUEUED_FRAMES: frames in the port's egress queues (Table 3.6). -/
def Body.queuedFrames (b : Body) (p : Nat) : Nat := ((b.eg p).queues.map (fun e => e.2.length)).sum

/-! Gates (R73 to R76). -/

/-- A gate list as pairs of open classes and durations in 2^-16 ns. -/
def Body.gateList (b : Body) (p : Nat) (oper : Bool) : List (Nat × Nat) :=
  (List.range (b.fget clsEgress p (if oper then FEgress.operLen else FEgress.adminLen))).map (fun n =>
    (b.fget clsEgress p (gateGates oper n), b.fget clsEgress p (gateDuration oper n) * 2 ^ 16))

/-- The open classes `e` after the cycle's start, and how long that entry still lasts (`none`: the last entry). -/
def gateAt : List (Nat × Nat) → Nat → Nat × Option Nat
  | [], _ => (255, none)
  | [(g, _)], _ => (g, none)
  | (g, d) :: r, e => if e < d then (g, some (d - e)) else gateAt r (e - d)

/-- How long class `c` stays open, from `e` after the start of the list, within the `left` that remains of the cycle. -/
def openRun : List (Nat × Nat) → Nat → Nat → Nat → Nat
  | [], _, _, left => left
  | [(g, _)], c, _, left => if g.testBit c then left else 0
  | (g, d) :: r, c, e, left =>
    if d ≤ e then openRun r c (e - d) left
    else if g.testBit c then
      (if left ≤ d - e then left else (d - e) + openRun r c 0 (left - (d - e)))
    else 0

/-- A list cut to one cycle, its last entry held to the end (R73). -/
def clipList : List (Nat × Nat) → Nat → List (Nat × Nat)
  | [], left => [(255, left)]
  | [(g, _)], left => [(g, left)]
  | (g, d) :: r, left => if left ≤ d then [(g, left)] else (g, d) :: clipList r (left - d)

/-- The longest continuous open time of a class over the repeated cycle, `none` if it is open throughout (R74). -/
def longestOpen (l : List (Nat × Nat)) (c cyc : Nat) : Option Nat :=
  let one := clipList l cyc
  if one.all (fun e => e.1.testBit c) then none
  else
    some ((one ++ one).foldl (fun (s : Nat × Nat) e =>
      let cur := if e.1.testBit c then s.1 + e.2 else 0
      (cur, max s.2 cur)) (0, 0)).2

/-- The boundary at which tick `n` begins, for a tick after the present one, with a scheduled change of period. -/
def Time.boundaryOf (t : Time) (n : Nat) : Nat :=
  let k := (n + 2 ^ 32 - t.nextTick) % 2 ^ 32
  let a := (t.applyTick + 2 ^ 32 - t.nextTick) % 2 ^ 32
  if t.pendingChange = 1 ∧ a < k then t.nextBoundary + a * t.period16 + (k - a) * t.periodNext * 2 ^ 16
  else t.nextBoundary + k * t.period16

/-- The first tick after tick `n` whose number is a multiple of `m`; tick 0 is one, whatever came before it (R73). -/
def nextMultiple (m n : Nat) : Nat :=
  let r := n + (m - n % m)
  if 2 ^ 32 ≤ r then 0 else r

/-- The tick at whose boundary the gate cycle in force ends. -/
def EgPort.endTick (x : EgPort) (t : Time) : Nat :=
  if t.nextTick % x.mult = 0 then t.nextTick else nextMultiple x.mult t.nextTick

/-- The end of the gate cycle in force: the next boundary whose tick number is a multiple of the cycle's multiple. -/
def EgPort.cycleEnd (x : EgPort) (t : Time) : Nat := t.boundaryOf (x.endTick t)

/-- Whether class `c` stays open for `w` from the start of the gate cycle that begins with tick `n`, cycle after cycle
of multiple `m` (R73). -/
def Time.openNext (t : Time) (l : List (Nat × Nat)) (c m : Nat) : Nat → Nat → Nat → Bool
  | 0, _, w => decide (w = 0)
  | k + 1, n, w =>
    let n1 := nextMultiple m n
    let cyc := t.boundaryOf n1 - t.boundaryOf n
    let a := openRun l c 0 cyc
    decide (w ≤ a) || (decide (a = cyc) && t.openNext l c m k n1 (w - cyc))

/-- The open gates of a port now (GATE_STATE). -/
def Body.gateState (b : Body) (tm : Time) (p : Nat) : Nat :=
  if 64 < p then 255
  else (gateAt (b.gateList p true) (timeDiff tm.now (b.eg p).cycleStart).toNat).1

/-- Whether a class is open from now for `w` (R73), and whether R74 lets an overlong frame start. -/
def Body.gateAllows (b : Body) (tm : Time) (p c w : Nat) : Bool × Bool :=
  if 64 < p then (true, false)
  else
    let x := b.eg p
    let l := b.gateList p true
    let e := (timeDiff tm.now x.cycleStart).toNat
    let left := (timeDiff (x.cycleEnd tm) tm.now).toNat
    let nx := if b.fget clsEgress p FEgress.swapPending = 1 then b.gateList p false else l
    let a := openRun l c e left
    let fits := decide (w ≤ a) || (decide (a = left) &&
      tm.openNext nx c (b.fget clsEgress p FEgress.cycleMult) (w / 2 ^ 27 + 1) (x.endTick tm) (w - left))
    let past := match longestOpen l c (x.mult * tm.period16) with
      | none => false
      | some m => decide (m < w)
    (fits, past && (b.gateState tm p).testBit c)

/-- A gate cycle starts (R73, R75): the swap that waits is made and the multiple in force is read. -/
def Body.gateCycle (b : Body) (tm : Time) (p : Nat) : Body :=
  let x := b.eg p
  if tm.tickNumber % x.mult ≠ 0 then b
  else
    let b1 := b.setEg p { x with cycleStart := tm.boundary, mult := b.fget clsEgress p FEgress.cycleMult }
    if b1.fget clsEgress p FEgress.swapPending = 1 then
      let n := b1.fget clsEgress p FEgress.adminLen
      let b2 := (List.range n).foldl (fun (y : Body) k =>
        (y.fset clsEgress p (gateGates true k) (b1.fget clsEgress p (gateGates false k))).fset clsEgress p
          (gateDuration true k) (b1.fget clsEgress p (gateDuration false k))) b1
      (b2.fset clsEgress p FEgress.operLen n).fset clsEgress p FEgress.swapPending 0
    else b1

/-- Action 5 of Table 2.1 for every port. -/
def Body.gateCycles (b : Body) (tm : Time) : Body := (List.range 65).foldl (fun x p => x.gateCycle tm p) b

/-! Frames as they leave (R78, R80, R81). -/

/-- One bit of the reflected IEEE 802.3 CRC register. -/
def fcsBit (r : Nat) : Nat := if r % 2 = 1 then (r / 2) ^^^ 0xEDB88320 else r / 2
def fcsByte (r : Nat) (v : Byte) : Nat := Nat.repeat fcsBit 8 (r ^^^ v.toNat)

/-- A frame with its frame check sequence. -/
def sealFrame (l : List Byte) : List Byte := l ++ leBytes 4 ((l.foldl fcsByte 0xFFFFFFFF) ^^^ 0xFFFFFFFF)

def byteAt (l : List Byte) (k : Nat) : Nat := (l.getD k 0).toNat
def be16 (l : List Byte) (k : Nat) : Nat := 256 * byteAt l k + byteAt l (k + 1)

/-- Bytes `k` onwards replaced. -/
def putBytes (l : List Byte) (k : Nat) (v : List Byte) : List Byte := l.take k ++ v ++ l.drop (k + v.length)

/-- Where the EtherType stands after the 802.1Q tags, at most `n` of them (tag types 0x8100 and 0x88A8). -/
def afterTags (l : List Byte) : Nat → Nat → Nat
  | 0, k => k
  | n + 1, k => if be16 l k = 0x8100 ∨ be16 l k = 0x88A8 then afterTags l n (k + 4) else k

/-- The one's complement update of a checksum by the change of a sum (RFC 1624). -/
def csumUpdate (hc : Nat) (delta : Int) : Nat :=
  let s := (((65535 - hc : Nat) : Int) + delta) % 65535
  65535 - (if s = 0 then 65535 else s.toNat)

/-- The sum of the bytes from `k` on as 16-bit words. -/
def wordSum : List Byte → Int
  | [] => 0
  | [a] => 256 * a.toNat
  | a :: b :: r => 256 * a.toNat + b.toNat + wordSum r

/-- The full time of R31 in ns at a recent time: ERA counted at that time. -/
def Time.fullNs (t : Time) (x : Nat) : Nat :=
  (((t.era * 2 ^ 64 + t.now : Nat) + timeDiff x t.now) / 2 ^ 16).toNat

/-- R78 on a frame without FCS: correctionField, originTimestamp, UDP checksum. A UDP checksum of 0, which says that the
sender made none, stays 0 (DEDUCED; assumption log 118). -/
def oneStep (tm : Time) (f : EgFrame) (ts : Nat) (l : List Byte) : List Byte :=
  if bitsAt f.body 60 1 = 0 then l
  else
    let o := bitsAt f.body 96 8
    let u := bitsAt f.body 104 8
    let res := (ts + 2 ^ 64 - f.desc.ts % 2 ^ 64) % 2 ^ 64
    let cf := beNat ((l.drop (o + 8)).take 8)
    let l1 := putBytes l (o + 8) (beBytes 8 ((cf + res) % 2 ^ 64))
    let ns := tm.fullNs ts
    let l2 := if bitsAt f.body 61 1 = 1 then
        putBytes l1 (o + 34) (beBytes 6 (ns / 1000000000) ++ beBytes 4 (ns % 1000000000))
      else l1
    if u = 0 ∨ be16 l (u + 6) = 0 then l2.take l.length
    else
      let c := csumUpdate (be16 l (u + 6)) (wordSum (l2.drop u) - wordSum (l.drop u))
      (putBytes l2 (u + 6) (beBytes 2 (if c = 0 then 0xFFFF else c))).take l.length

/-- The R-TAG of a sequence (R80). -/
def rTag (seq : Nat) : List Byte := beBytes 2 0xF1C1 ++ [0, 0] ++ beBytes 2 seq

/-- The PRP trailer (R80): sequence, LAN identifier, LSDU size, suffix. The size counts the bytes after the EtherType
up to and with the trailer (assumption log 18). -/
def prpTrailer (l : List Byte) (seq : Nat) (copyB : Bool) : List Byte :=
  let k := afterTags l 8 12 + 2
  let size := (l.length - k + 6) % 4096
  beBytes 2 seq ++ beBytes 2 ((if copyB then 0xB000 else 0xA000) + size) ++ beBytes 2 0x88FB

/-- The sequence of a received frame without FCS, in its R-TAG or its trailer (R81). -/
def rTagOf (l : List Byte) : Option Nat :=
  let k := afterTags l 8 12
  if be16 l k = 0xF1C1 then some (be16 l (k + 4)) else none
def trailerOf (l : List Byte) : Option Nat :=
  let n := l.length
  let lan := be16 l (n - 4) / 4096
  if 6 ≤ n ∧ be16 l (n - 2) = 0x88FB ∧ (lan = 0xA ∨ lan = 0xB) then some (be16 l (n - 6)) else none

/-- Zero bytes up to `n` bytes: before the FCS up to the least frame of 64 bytes, and before a PRP trailer so that
the trailer stands before the FCS (assumption log 18). -/
def padTo (n : Nat) (l : List Byte) : List Byte := l ++ List.replicate (n - l.length) 0

def Body.streamFn (b : Body) (s : Nat) : Nat := b.fget clsRedund s FRedund.function

/-- The frame's bytes in its buffer, without the FCS. -/
def Body.egBytes (b : Body) (f : EgFrame) : List Byte := frameBytes (b.bufData f.buffer) f.length 0 (f.length - 4)

/-- A frame without FCS without its R-TAG, or without its trailer where `trailer` says so (R81). -/
def stripTag (trailer : Bool) (l : List Byte) : List Byte :=
  let k := afterTags l 8 12
  if trailer then l.take (l.length - 6) else l.take k ++ l.drop (k + 6)

/-- The frame as it leaves its class queue, without FCS: updates, tag or trailer added or removed (R78, R80, R81). Tag or
trailer, as R80 adds it in transmission, follows the FUNCTION that stands then: 2 a trailer, any other an R-TAG, and 4
strips a trailer, any other an R-TAG; the spec does not say what a FUNCTION rewritten while the frame waits does (DESIGN
CHOICE; assumption log 147). -/
def Body.txBody (b : Body) (tm : Time) (f : EgFrame) (ts : Nat) : List Byte :=
  let l := oneStep tm f ts (b.egBytes f)
  let k := afterTags l 8 12
  let fn := match f.stream with
    | some s => b.streamFn s
    | none => 0
  padTo 60 (match f.seq with
    | some n =>
      if fn = 2 then padTo 54 l ++ prpTrailer (padTo 54 l) n f.copyB else l.take k ++ rTag n ++ l.drop k
    | none => if f.strip then stripTag (fn == 4) l else l)

/-- The frame as transmitted with an egress time, FCS computed (R78, R311). -/
def Body.txBytes (b : Body) (tm : Time) (f : EgFrame) (ts : Nat) : List Byte := sealFrame (b.txBody tm f ts)

/-- Length as transmitted (R70). -/
def EgFrame.wireLength (f : EgFrame) : Nat :=
  match f.seq with
  | some _ => max 64 (f.length + 6)
  | none => max 64 (if f.strip then f.length - 6 else f.length)

/-! Copies and buffers (Table 12.2, R80, R84). -/

/-- The other copy of a frame learns what became of this one. -/
def Body.tellTwin (b : Body) (num : Nat) (v : Twin) : Body :=
  { b with net.egress := b.net.egress.map (fun e =>
      (e.1, { e.2 with
        queues := e.2.queues.map (fun q => (q.1, q.2.map (fun f => if f.num = num then { f with twin := v } else f)))
        sending := e.2.sending.map (fun s => if s.frame.num = num then { s with frame := { s.frame with twin := v } } else s) })) }

/-- A copy leaves: pools 6 and 7 lose a reference, pools 0 to 5 are freed once no copy remains. -/
def Body.dropCopy (b : Body) (f : EgFrame) (v : Twin) : Body :=
  let b1 := if f.twin = .waiting then b.tellTwin f.num v else b
  if pooledByRef (handlePool f.buffer) then (b1.freeBuf f.buffer .egress).2
  else if f.twin = .waiting then b1
  else (b1.freeBuf f.buffer .egress).2

/-! Link holds (R83, R84). -/

/-- The link exception queue of a tent for a port. -/
def Body.linkExcQueue (b : Body) (p t : Nat) : Nat :=
  queueBase b.nLogN t + b.fget clsPort p FPort.excOffset % (1048576 / b.tents)

/-- A frame goes to its tent's link exception queue for port `p` as a record with LINK_HELD, if a record is free. -/
def Body.linkHold (b : Body) (p : Nat) (f : EgFrame) : Option Body :=
  let d := { f.desc with flags := f.desc.flags ||| 8 }
  (if b.recordFree d.tent then b.takeRecord ⟨d, f.program⟩ else none).map (fun r =>
    let b1 := (r.2.handoff f.buffer .egress (.frame d.tent)).2
    (b1.enqueue (b1.linkExcQueue p d.tent) (.record r.1)).bump clsPort p FPort.linkHeld 1)

/-- Whether a port is down past its hold limit: HOLD_LIMIT + 1 boundaries counted (R83). -/
def Body.heldPast (b : Body) (p : Nat) : Bool :=
  decide (p ≤ 64) && !b.portUp p &&
    decide (b.fget clsPort p FPort.holdLimit + 1 ≤ b.work.tickSets - (b.eg p).downSince)

/-- Where a copy's twin stands: the port and class whose queue or transmission holds it. -/
def Body.findTwin (b : Body) (f : EgFrame) : Option (Nat × Nat) :=
  let isTwin := fun (g : EgFrame) => g.num == f.num && g.copyB != f.copyB
  b.net.egress.findSome? (fun e =>
    (e.2.queues.findSome? (fun q => if q.2.any isTwin then some (e.1, q.1) else none)).orElse (fun _ =>
      match e.2.sending with
      | some s => if isTwin s.frame then some (e.1, s.cls) else none
      | none => none))

/-- Whether a port's frames are diverted now (R83). -/
def Body.diverts (b : Body) (p : Nat) : Bool := b.heldPast p && (b.eg p).diverting

/-- Whether a frame of a diverting port goes to an exception queue, and so wants a record: not where its twin carries it or
will (R84). -/
def Body.wantsRecord (b : Body) (f : EgFrame) : Bool :=
  !f.bivouac && match f.twin with
    | .none | .removed => true
    | .sent => false
    | .waiting => match b.findTwin f with
      | some (o, _) => b.diverts o
      | none => true

/-- One frame of a port that is down past its limit: `some` new state where the frame has left its queue. -/
def Body.holdOne (b : Body) (p c : Nat) (f : EgFrame) : Option Body :=
  let out := fun (x : Body) (q k : Nat) => x.setEgQueue q k ((x.egQueue q k).filter (fun g => decide (g.num ≠ f.num)))
  let removed := fun (_ : Unit) =>
    (f.stream).map (fun s => ((out b p c).dropCopy f .removed).bump clsRedund s FRedund.heldTwin 1)
  if f.bivouac then none
  else match f.twin with
    | .none | .removed => (out b p c).linkHold p f
    | .sent => removed ()
    | .waiting =>
      match b.findTwin f with
      | some (o, k) =>
        if b.portUp o then removed ()
        else if b.diverts o then
          let x := out (out b p c) o k
          let y := if pooledByRef (handlePool f.buffer) then (x.freeBuf f.buffer .egress).2 else x
          y.linkHold (if f.copyB then o else p) { f with twin := .none }
        else none
      | none => (out b p c).linkHold p f

/-- The frames of one class that `ok` names, in queue order; a frame that waits for a record holds back the later ones of
its tent. -/
def Body.holdSome (b : Body) (ok : EgFrame → Bool) (p c : Nat) : Body :=
  (((b.egQueue p c).filter ok).foldl (fun (s : Body × List Nat) f =>
    if s.2.contains f.desc.tent then s
    else match s.1.holdOne p c f with
      | some x => (x, s.2)
      | none =>
        if !f.bivouac && !s.1.recordFree f.desc.tent then (s.1, f.desc.tent :: s.2) else s) (b, [])).1

/-- Every frame of one class, as a boundary judges them (R83, R84). -/
def Body.holdClass (b : Body) (p c : Nat) : Body := b.holdSome (fun _ => true) p c

/-- Class by class from class 7 down. -/
def Body.holdPort (b : Body) (p : Nat) : Body :=
  [7, 6, 5, 4, 3, 2, 1, 0].foldl (fun x c => x.holdClass p c) (b.setEg p { b.eg p with diverting := true })

/-! Exception records wanted (R245). -/

/-- The tents for which something waits for a record: a frame of a diverting port, or a diversion whose turn it is. -/
def Body.excTents (b : Body) : List Nat :=
  let a := b.net.egress.flatMap (fun e =>
    if e.2.diverting && !b.portUp e.1 then
      e.2.queues.flatMap (fun q => (q.2.filter b.wantsRecord).map (fun f => f.desc.tent))
    else [])
  let c := (b.work.commits.filter (fun o => o.divert.isSome &&
    (match o.item.src with | .slot _ => true | _ => false) &&
    decide (b.fget clsOutfall (0x10000 + o.item.desc.furrow) FOutFur.relSeq = o.item.desc.seq))).map (fun o => o.item.tent)
  (a ++ c).eraseDups.filter (fun t => !b.recordFree t)

/-- EXC_WAITS counts the cycles since it last did for the tents that waited, and the tents that wait are noted anew. -/
def Body.syncExc (b : Body) (tm : Time) : Body :=
  let now := b.excTents
  if b.net.exc = [] ∧ now = [] then b
  else
    let k := tm.cycle - b.net.excCycle
    let b1 := b.net.exc.foldl (fun (x : Body) t => x.bump clsOutfall (1 + t) FOut.excWaits k) b
    let b2 := if b.net.exc = [] then b1 else b1.bump clsOutfall 0 FOut.excWaits k
    { b2 with net.exc := now, net.excCycle := tm.cycle }

/-! Flow control towards the partner (R65). -/

/-- The ports with FC_TX_EN = 1, or that have sent an XOFF. -/
def Body.flowPorts (b : Body) : List Nat :=
  (List.range 65).filter (fun p => b.fget clsPort p FPort.fcTxEn == 1)

/-- A flow control frame is sent and counted. -/
def Body.sendFlow (b : Body) (p quanta : Nat) : Body :=
  let pfc := b.fget clsPort p FPort.fcMode == 1
  (b.bump clsPort p FPort.txPause 1).emit (.flow p pfc (if pfc then b.fget clsPort p FPort.pfcEnable else 255) quanta)

/-- XOFF when the free packet buffer is below XOFF_KIB, XON when it is above XON_KIB. -/
def Body.flowPort (b : Body) (tm : Time) (p : Nat) : Body :=
  let free := b.freeOnchipKib
  let x := b.eg p
  if !b.portUp p then b
  else if x.xoff.isNone && decide (free < b.fget clsPort p FPort.xoffKib) then
    (b.setEg p { x with xoff := some tm.now }).sendFlow p (b.fget clsPort p FPort.pauseQuanta)
  else if x.xoff.isSome && decide (b.fget clsPort p FPort.xonKib < free) then
    (b.setEg p { x with xoff := none }).sendFlow p 0
  else b

/-- Every port that controls its partner compares the free packet buffer with its levels. -/
def Body.flowCheck (b : Body) (tm : Time) : Body := b.flowPorts.foldl (fun x p => x.flowPort tm p) b

/-- What follows an effect that moves buffers, descriptors or records: the recirculation queues are emptied (R243), flow
control (R65) and the count of R245. -/
def Body.settle (b : Body) (tm : Time) : Body := ((b.recircTakes tm).flowCheck tm).syncExc tm

/-- An effect that moves buffers or records. -/
def onBuf (f : Time → Body → Body) (s : State) : Host.Outcome State Fault Refusal :=
  onBody (fun tm b => (f tm b).settle tm) s

/-! Enqueues (R69, R79, R80). -/

/-- A frame joins the tail of its class queue. -/
def Body.egPut (b : Body) (p c : Nat) (f : EgFrame) : Body := b.setEgQueue p c (b.egQueue p c ++ [f])

/-- On a port already diverting the frame `num` that has joined is diverted at once (R83), behind the frames that wait for
a record only; a copy that a boundary kept for its twin's sake is judged again at a later boundary, not here (R84). -/
def Body.egDivert (b : Body) (p num : Nat) : Body :=
  if (b.eg p).diverting && !b.portUp p then
    [7, 6, 5, 4, 3, 2, 1, 0].foldl (fun x c => x.holdSome (fun f => f.num == num || x.wantsRecord f) p c) b
  else b

def Body.egJoin (b : Body) (p c : Nat) (f : EgFrame) : Body := (b.egPut p c f).egDivert p f.num

/-- The absolute stream of an enqueue (R79). -/
def Body.streamOf (b : Body) (t body : Nat) : Option Nat :=
  if bitsAt body 62 1 = 1 then some (tentBase b.nLogN 4096 t + bitsAt body 64 12 % (4096 / b.tents)) else none

/-- Whether an enqueue goes to a generating stream, whose PORT is ignored (R80). -/
def Body.generates (b : Body) (t body : Nat) : Bool :=
  match b.streamOf t body with
  | some s => decide (b.streamFn s = 1 ∨ b.streamFn s = 2)
  | none => false

/-- An egress enqueue as released (R69, R80): to its port, or one copy to each port of a generating stream. The buffer
is the egress scheduler's already; the second copy takes a reference of its own, without which it is not enqueued (R316).
A frame too long to be tagged takes a sequence all the same (DESIGN CHOICE; assumption log 119). -/
def Body.egEnqueue (b : Body) (f0 : EgFrame) : Body :=
  let (k, b1) := b.tick
  let p := bitsAt f0.body 48 7
  let c := bitsAt f0.body 56 3
  let f := { f0 with num := k, stream := b.streamOf f0.desc.tent f0.body }
  match f.stream with
  | some s =>
    let fn := b1.streamFn s
    if fn = 1 ∨ fn = 2 then
      let pa := b1.fget clsRedund s FRedund.portA
      let pb := b1.fget clsRedund s FRedund.portB
      let n := b1.fget clsRedund s FRedund.nextSeq
      let b2 := b1.bumpWrap clsRedund s FRedund.nextSeq 1
      if 16383 < f.length + 6 then
        (b2.egJoin pa c { f with stream := none }).bump clsRedund s FRedund.tooLong 1
      else
        let r := if pooledByRef (handlePool f.buffer) then b2.addRef f.buffer else (stOk, b2)
        let g := { f with seq := some n, twin := .waiting }
        if r.1 = stOk then (((r.2.egPut pa c g).egPut pb c { g with copyB := true }).egDivert pa k).egDivert pb k
        else r.2.egJoin pa c { g with twin := .none }
    else if fn = 0 then b1.egJoin p c { f with stream := none }
    else b1.egJoin p c f
  | none => b1.egJoin p c f

/-! Elimination (R81). -/

def Recov.reset : Recov := { takeAny := true, hist := 0, quiet := 0, passed := false }
def Body.recov (b : Body) (s : Nat) : Recov := mapGet Recov.reset s b.net.recov
def Body.setRecov (b : Body) (s : Nat) (x : Recov) : Body := { b with net.recov := mapPut s x b.net.recov }

/-- The recovery state of R87, written with FUNCTION. -/
def Body.resetRecov (b : Body) (s : Nat) : Body := b.setRecov s Recov.reset

/-- Whether the frame passes, with the stream's new state: the procedure of R81. -/
def Body.eliminate (b : Body) (s : Nat) (tag : Option Nat) : Bool × Body :=
  let pass := fun (x : Body) => (true, x.setRecov s { x.recov s with passed := true })
  match tag with
  | none =>
    let b1 := b.bump clsRedund s FRedund.tagless 1
    if b1.fget clsRedund s FRedund.passUntagged = 1 then pass b1 else (false, b1)
  | some n =>
    let r := b.recov s
    if r.takeAny then
      pass ((b.fset clsRedund s FRedund.recovSeq n).setRecov s { r with takeAny := false, hist := 1 })
    else
      let delta := signedOf 16 (n + 2 ^ 16 - b.fget clsRedund s FRedund.recovSeq)
      let h : Int := b.fget clsRedund s FRedund.historyLen
      if h ≤ delta ∨ delta ≤ -h then (false, b.bump clsRedund s FRedund.rogue 1)
      else if delta ≤ 0 then
        let k := (-delta).toNat
        if r.hist.getLsbD k then (false, b)
        else pass ((b.setRecov s { r with hist := r.hist ||| (1#64 <<< k) }).bump clsRedund s FRedund.outOfOrder 1)
      else
        let b1 := if 1 < delta then b.bump clsRedund s FRedund.outOfOrder 1 else b
        pass ((b1.setRecov s { r with hist := (r.hist <<< delta.toNat) ||| 1#64 }).fset clsRedund s FRedund.recovSeq n)

/-- Whether a frame of an eliminating stream has yet to pass or to be discarded (R81). -/
def Body.unjudged (b : Body) (f : EgFrame) : Bool :=
  match f.stream with
  | some s => decide (b.streamFn s = 3 ∨ b.streamFn s = 4) && !f.judged
  | none => false

/-- The frame of a class queue to judge next: its head, and on port 65, where each tent takes its own frames, the first
one of a tent (R384). -/
def Body.toJudge (b : Body) (p c : Nat) : Option EgFrame :=
  let l := b.egQueue p c
  (if p = 65 then l.find? (fun f => b.unjudged f && l.find? (fun g => g.desc.tent == f.desc.tent) == some f)
   else l.head?).filter b.unjudged

/-- REDUND_ELIMINATE (R81): the head of a class queue, of an eliminating stream, passes or is discarded. -/
def execRedundEliminate (p : Nat) (cls : Nat) (s : State) : Host.Outcome State Fault Refusal :=
  onBuf (fun _ b =>
    match (b.toJudge p cls).filter (fun f => !b.bufHeld f.buffer) with
    | some f =>
      match f.stream with
      | some s =>
        let l := b.egBytes f
        let tag := if b.streamFn s = 3 then rTagOf l else trailerOf l
        let v := b.eliminate s tag
        if v.1 then
          let g := { f with judged := true, strip := tag.isSome && v.2.fget clsRedund s FRedund.strip == 1 }
          (v.2.setEgQueue p cls ((v.2.egQueue p cls).map (fun x => if x.num = f.num then g else x))).bump
            clsRedund s FRedund.passed 1
        else
          ((v.2.setEgQueue p cls ((v.2.egQueue p cls).filter (fun x => decide (x.num ≠ f.num)))).dropCopy f .removed).bump
            clsRedund s FRedund.discarded 1
      | none => b
    | none => b) s

/-- At a boundary every eliminating stream without a passing frame since the last counts towards RESET_TICKS. -/
def Body.quietStreams (b : Body) : Body :=
  { b with net.recov := b.net.recov.map (fun e =>
      (e.1, { e.2 with quiet := if e.2.passed then 0 else e.2.quiet + 1, passed := false })) }

/-- STREAM_RESET (R81): the count has reached RESET_TICKS. -/
def execStreamReset (n : Nat) (s : State) : Host.Outcome State Fault Refusal :=
  onBody (fun _ b =>
    let fn := b.streamFn n
    if (fn = 3 ∨ fn = 4) ∧ b.fget clsRedund n FRedund.resetTicks ≤ (b.recov n).quiet then
      (b.resetRecov n).bump clsRedund n FRedund.resets 1
    else b) s

/-! Gates and stops as commands. -/

/-- GATE_ENTRY_START (R73): the entry in force ends before its cycle does, and the next entry's gates take effect. -/
def execGateEntryStart (p : Nat) (s : State) : Host.Outcome State Fault Refusal :=
  onDev (fun d =>
    let x := d.b.eg p
    let e := (timeDiff d.tm.now x.cycleStart).toNat
    match (gateAt (d.b.gateList p true) e).2 with
    | some r =>
      if (d.tm.now + r : Int) < d.tm.now + timeDiff (x.cycleEnd d.tm) d.tm.now then
        let d1 := d.waitUntil ((d.tm.now + r) % 2 ^ 64)
        { d1 with b := d1.b.fset clsEgress p FEgress.gateState (d1.b.gateState d1.tm p) }
      else d
    | none => d) s

/-- PAUSE_EXPIRY (R64): the received quanta have elapsed and the class may start again. -/
def execPauseExpiry (p : Nat) (cls : Nat) (s : State) : Host.Outcome State Fault Refusal :=
  onDev (fun d =>
    match mapFind cls (d.b.eg p).pauses with
    | some t =>
      let d1 := d.waitUntil t
      let x := d1.b.eg p
      let fp := d1.b.fget clsEgress p FEgress.fcPaused
      { d1 with b := (d1.b.setEg p { x with pauses := mapDel cls x.pauses }).fset clsEgress p FEgress.fcPaused
                        (fp &&& (255 - 2 ^ cls)) }
    | none => d) s

/-! Transmission (R71, R72, R77). -/

/-- Whether the head of a class may start: not stopped, judged if its stream eliminates, its channel not frozen where it lies
in DRAM (R307), and allowed by its gate. -/
def Body.headMayStart (b : Body) (tm : Time) (p c : Nat) : Option (EgFrame × Bool) :=
  match b.egQueue p c with
  | f :: _ =>
    if (b.fget clsEgress p FEgress.fcPaused).testBit c || b.unjudged f || b.bufHeld f.buffer then none
    else
      let g := b.gateAllows tm p c (wireTime f.wireLength (b.portRate p))
      if g.1 then some (f, false) else if g.2 then some (f, true) else none
  | [] => none

/-- Intake's input queue of a port, and its limit (R89). -/
def Body.inputQueue (b : Body) (p : Nat) : List InFrame := mapGet [] p b.net.input
def Body.inputRoom (b : Body) (p : Nat) : Bool := decide ((b.inputQueue p).length < 256)
def Body.toIntake (b : Body) (f : InFrame) : Body :=
  { b with net.input := mapPut f.port (b.inputQueue f.port ++ [f]) b.net.input }

/-- A frame without FCS as an RX ring or a Bivouac slot takes it: without its tag where an eliminating stream took it off
(R81; assumption log 137). -/
def Body.handBytes (b : Body) (f : EgFrame) : List Byte :=
  let l := b.egBytes f
  if f.strip then padTo 60 (stripTag (((f.stream).map b.streamFn).getD 0 == 4) l) else l

/-- The next pass leaves port 66's egress queue for Intake, EGRESS to RX (R89, Table 12.2), in its buffer and as its
buffer holds it: the redundancy unit removes a tag as it transmits and never writes a buffer (R311), and nothing is
transmitted here (DEDUCED; assumption log 137). -/
def Body.nextPass (b : Body) (c : Nat) : Body :=
  match b.egQueue 66 c with
  | f :: r =>
    ((b.setEgQueue 66 c r).handoff f.buffer .egress .rx).2.toIntake
      ⟨f.buffer, f.length, 66, f.desc.ts, none, 0, some f.desc⟩
  | [] => b

/-- The highest class whose head may start (R71). -/
def Body.pickClass (b : Body) (tm : Time) (p : Nat) : Option (Nat × EgFrame × Bool) :=
  [7, 6, 5, 4, 3, 2, 1, 0].findSome? (fun c => (b.headMayStart tm p c).map (fun x => (c, x.1, x.2)))

/-- EGRESS_START (R71, R73, R74): a free port begins the head frame of the highest class that may start; port 66 hands
its head to Intake. Ports 65 and 67 are emptied by RX_RING_DELIVER and BIVOUAC_RX. -/
def execEgressStart (p : Nat) (s : State) : Host.Outcome State Fault Refusal :=
  onBuf (fun tm b =>
    if p = 66 then
      if b.inputRoom 66 then
        match b.pickClass tm 66 with
        | some (c, _, _) => b.nextPass c
        | none => b
      else b
    else if 64 < p ∨ ¬ b.portUp p ∨ ¬ b.crossReady (txCross p) ∨ (b.eg p).sending.isSome then b
    else match b.pickClass tm p with
      | some (c, f, past) =>
        let b1 := (b.setEgQueue p c ((b.egQueue p c).drop 1)).bufRead f.buffer 0 f.length
        let e := (tm.now + wireTime f.wireLength (b.portRate p)) % 2 ^ 64
        let b2 := b1.setEg p { b1.eg p with sending := some ⟨c, f, tm.now, e⟩ }
        if past then b2.bump clsEgress p FEgress.overruns 1 else b2
      | none => b) s

/-- The egress time of a frame: its first bit of the destination address, eight byte times after the start, plus
TX_DELAY (R63; assumption log 19). -/
def Body.egressTime (b : Body) (p start : Nat) : Nat :=
  codeOf 64 (start + bitTime16 64 (b.portRate p) + signedOf 32 (b.fget clsPort p FPort.txDelay))

/-- Whether a buffer is poisoned (R321). -/
def Body.poisoned (b : Body) (h : Nat) : Bool := ((b.buf? h).map Buf.poison).getD false

/-- TRANSMIT_COMPLETE (R77, R78): the frame has left; counters, a two-step record, and the copy's buffer. -/
def execTransmitComplete (p : Nat) (s : State) : Host.Outcome State Fault Refusal :=
  onDev (fun d =>
    match (d.b.eg p).sending with
    | some x =>
      let d1 := d.waitUntil x.ends
      let b := d1.b
      let ts := b.egressTime p x.start
      let l := b.txBytes d1.tm x.frame ts
      let e := { b.eg p with sending := none }
      let b1 := b.setEg p e
      let b2 := if bitsAt x.frame.body 59 1 = 1 then
          (if e.stamps.length < 64 then b1.setEg p { e with stamps := e.stamps ++ [(ts, bitsAt x.frame.body 80 16)] }
           else b1.bump clsPort p FPort.tsOverflow 1)
        else b1
      let b3 := ((b2.bump clsPort p FPort.txFrames 1).bump clsPort p FPort.txBytes l.length).emit
        (if b.poisoned x.frame.buffer then .spoilt p (l.take (l.length - 4)) else .frame p l)
      { d1 with b := (b3.dropCopy x.frame .sent).settle d1.tm }
    | none => d) s

/-- A frame cut off by link loss returns to the head of its class queue (R82). -/
def Body.cutFrame (b : Body) (p : Nat) : Body :=
  match (b.eg p).sending with
  | some x =>
    let b1 := b.setEg p { b.eg p with sending := none }
    ((b1.setEgQueue p x.cls (x.frame :: b1.egQueue p x.cls)).bump clsPort p FPort.linkCut 1).emit (.fragment p)
  | none => b

/-! Transmit timestamps (R77). -/

/-- A read of the low word of TX_TS latches the head record. -/
def Body.latchTxTs (b : Body) (p : Nat) : Body :=
  match (b.eg p).stamps with
  | (ts, tag) :: _ =>
    ((b.fset clsPort p FPort.txTs ts).fset clsPort p FPort.txTsTag tag).fset clsPort p FPort.txTsValid 1
  | [] => ((b.fset clsPort p FPort.txTs 0).fset clsPort p FPort.txTsTag 0).fset clsPort p FPort.txTsValid 0

/-- A read of the word that holds TX_TS_TAG removes the record that was latched. -/
def Body.popTxTs (b : Body) (p : Nat) : Body :=
  if b.fget clsPort p FPort.txTsValid = 1 ∧
      (b.eg p).stamps.head? = some (b.fget clsPort p FPort.txTs, b.fget clsPort p FPort.txTsTag) then
    b.setEg p { b.eg p with stamps := (b.eg p).stamps.drop 1 }
  else b

end Sys2Proof.Machine
end

