-- ==== Sys2Proof/Machine/Ports.lean ====
section
/-! DEFINITION. Ports on the way in: links, reception, flow control, the Bivouac's receive slots (spec/03, R56 to R66;
spec/12, R308, R309; spec/16, R402 to R404). -/

namespace Sys2Proof.Machine

/-- LINK_HOLD_EXPIRY (R83): the check at a boundary; frames of a port down past its limit are diverted. -/
def execLinkHoldExpiry (p : Nat) (s : State) : Host.Outcome State Fault Refusal :=
  onBuf (fun _ b => if b.heldPast p then b.holdPort p else b) s

/-- XOFF_REPEAT (R65): half of PAUSE_QUANTA has elapsed and free space is still below XON_KIB. -/
def execXoffRepeat (p : Nat) (s : State) : Host.Outcome State Fault Refusal :=
  onDev (fun d =>
    match (d.b.eg p).xoff with
    | some t =>
      if d.b.fget clsPort p FPort.fcTxEn = 1 ∧ d.b.portUp p then
        let q := d.b.fget clsPort p FPort.pauseQuanta
        let d1 := d.waitUntil ((t + bitTime16 (q * 256) (d.b.portRate p)) % 2 ^ 64)
        if d1.b.freeOnchipKib < d1.b.fget clsPort p FPort.xonKib then
          { d1 with b := (d1.b.setEg p { d1.b.eg p with xoff := some d1.tm.now }).sendFlow p q }
        else d1
      else d
    | none => d) s

/-! Links (R59, R60, R66). -/

/-- Whether the mode lets a port be up (Table 18.1). -/
def Body.modeAllowsPort (b : Body) (p : Nat) : Bool :=
  let m := b.modeCode
  if p = 64 then decide (2 ≤ m ∧ m ≤ 10) || (m == 11 && (b.fget clsPower 0 FPower.wakeEn / 2 % 4 != 0))
  else decide (4 ≤ m ∧ m ≤ 10)

/-- Source 128 + p is asserted while ADMIN_UP = 1 and the port is not UP (Table 14.2). -/
def Body.linkLevel (b : Body) (p : Nat) : Body :=
  b.setLevel (128 + p) (b.fget clsPort p FPort.adminUp == 1 && b.fget clsPort p FPort.operState != 3)

/-- A frame under reception when its port goes down is discarded: its buffer returns to its pool, and it is counted
unless it had no buffer and was counted for that (R60, R61). -/
def Body.spoilRx (b : Body) (p : Nat) : Body :=
  match mapFind p b.net.rx with
  | some x =>
    let b1 := { b with net.rx := mapDel p b.net.rx }
    match x.buffer with
    | some h => ((b1.freeBuf h .rx).2).bump clsPort p FPort.rxPcsErr 1
    | none => b1
  | none => b

/-- A port goes down (R60, R82): a frame under reception is discarded, one in transmission is cut. -/
def Body.linkDown (b : Body) (p : Nat) : Body :=
  let st := if b.portPresent p then 1 else 0
  if b.fget clsPort p FPort.operState = 3 then
    let b1 := (((b.fset clsPort p FPort.operState st).fset clsPort p FPort.operFec 0).fset clsPort p FPort.operSpeed
      0).bump clsPort p FPort.linkDowns 1
    let b2 := (b1.spoilRx p).cutFrame p
    (b2.setEg p { b2.eg p with downSince := b2.work.tickSets, diverting := false, xoff := none }).linkLevel p
  else (b.fset clsPort p FPort.operState st).linkLevel p

/-- Ports that the mode no longer lets up go down (Table 18.1). -/
def Body.holdPorts (b : Body) : Body :=
  (List.range 65).foldl (fun x p => if x.portUp p && !x.modeAllowsPort p then x.linkDown p else x) b

/-- Whether a port's reference clock runs and its crossings are ready (R431, R437). -/
def Body.linkReady (b : Body) (p : Nat) : Bool :=
  b.crossReady (rxCross p) && b.crossReady (txCross p) &&
    (p == 64 || !(b.fget clsClock 0 FClock.refLost).testBit (p / 4))

/-- The FEC in use (R59): what Clause 73 resolves from what the port offers under PORT.FEC and what the partner supports,
bit 0 BASE-R and bit 1 RS-FEC; without auto-negotiation what PORT.FEC names, where 0b11 is none (assumption log 75). -/
def Body.operFec (b : Body) (p : Nat) (partner : BitVec 2) : Nat :=
  let f := b.fget clsPort p FPort.fec
  let speed := modeSpeed (b.fget clsPort p FPort.mode) p
  let offers := fun (k : Nat) => decide (f = 3 ∨ f = k) && fecAllowed speed k && partner.getLsbD (k - 1)
  if p = 64 then 0
  else if b.fget clsPort p FPort.anEn = 1 then (if offers 2 then 2 else if offers 1 then 1 else 0)
  else if f = 3 then 0 else f

/-- PORT_LINK_UP (R59, R60, R66): negotiation and training are complete, or an SGMII control word shows link up.
`fec` is the FEC that the partner supports, `speed` what the control word gives. -/
def execPortLinkUp (p : Nat) (fec : BitVec 2) (speed : BitVec 3) (s : State) : Host.Outcome State Fault Refusal :=
  onBuf (fun _ b =>
    if p ≤ 64 ∧ b.portPresent p ∧ b.fget clsPort p FPort.adminUp = 1 ∧ b.modeAllowsPort p ∧ ¬ b.portUp p ∧
        b.linkReady p then
      let sgmii := p == 64 && b.fget clsPort p FPort.mode == 4
      let ok := !sgmii || (decide (1 ≤ speed.toNat) && decide (speed.toNat ≤ 3))
      if ok then
        let code := if p = 64 then (if sgmii then speed.toNat else 3)
                    else speedCode (modeSpeed (b.fget clsPort p FPort.mode) p)
        let b1 := ((b.fset clsPort p FPort.operState 3).fset clsPort p FPort.operFec (b.operFec p fec)).fset clsPort p
          FPort.operSpeed code
        let b2 := (b1.setEg p { b1.eg p with diverting := false }).linkLevel p
        if p = 64 then b2.fire 2 else b2
      else b
    else b) s

/-- PORT_LINK_DOWN (R60): the PCS reports loss of link. -/
def execPortLinkDown (p : Nat) (s : State) : Host.Outcome State Fault Refusal :=
  onBuf (fun _ b => if p ≤ 64 ∧ b.fget clsPort p FPort.operState = 3 then b.linkDown p else b) s

/-! Reception (R61 to R63, R308, R309). -/

def Body.rx? (b : Body) (p : Nat) : Option Rx := mapFind p b.net.rx
def Body.setRx (b : Body) (p : Nat) (x : Rx) : Body := { b with net.rx := mapPut p x b.net.rx }
def Body.endRx (b : Body) (p : Nat) : Body := { b with net.rx := mapDel p b.net.rx }

/-- A discard for want of a buffer of pool `k` (R309). -/
def Body.noBuffer (b : Body) (k : Nat) : Body :=
  (b.bump clsPool 0x100 FPoolDev.rxNoBuffer 1).bump clsPool k FPool.allocFails 1

/-- RX_FRAME_START (R63, R308, R309): the frame is stamped, `sof` less RX_DELAY, and takes a buffer of pool RX_FLOOR. -/
def execRxFrameStart (p : Nat) (sof : BitVec 64) (s : State) : Host.Outcome State Fault Refusal :=
  onBuf (fun _ b =>
    if p ≤ 64 ∧ b.portUp p ∧ b.crossReady (rxCross p) ∧ (b.rx? p).isNone then
      let ts := codeOf 64 (sof.toNat - signedOf 32 (b.fget clsPort p FPort.rxDelay))
      let k := b.fget clsPool 0x100 (rxFloor p)
      let take := if b.chargeFits .rx (poolSize k) then b.takeBuf k .rx .rx [] else none
      match take with
      | some (h, b1) => b1.setRx p ⟨ts, some h, []⟩
      | none => (b.noBuffer k).setRx p ⟨ts, none, []⟩
    else b) s

/-- The frame moves into a buffer of the next pool while its bytes do not fit, never past pool 6 (R308, R309). -/
def Body.grow (b : Body) (p : Nat) : Nat → Body
  | 0 => b
  | n + 1 =>
    match b.rx? p with
    | some x =>
      match x.buffer with
      | some h =>
        let k := handlePool h
        if 6 ≤ k ∨ x.got.length ≤ poolSize k then b
        else
          let fits := decide (b.charged .rx - poolSize k + poolSize (k + 1) ≤ b.quota .rx)
          match (if fits then b.takeBuf (k + 1) .rx .rx [] else none) with
          | some (h1, b1) => (((b1.freeBuf h .rx).2).setRx p { x with buffer := some h1 }).grow p n
          | none => ((((b.freeBuf h .rx).2).noBuffer (k + 1)).setRx p { x with buffer := none })
      | none => b
    | none => b

/-- Received bytes are stored; reception stops at MAX_FRAME + 1 bytes (Table 3.3). -/
def Body.receive (b : Body) (p : Nat) (got : List Byte) : Body :=
  match b.rx? p with
  | some x =>
    let l := (x.got ++ got).take (b.fget clsPort p FPort.maxFrame + 1)
    (b.setRx p { x with got := l }).grow p 8
  | none => b

/-- RX_BUFFER_GROW (R308, R309): `got` are the bytes since the last command of the frame. -/
def execRxBufferGrow (p : Nat) (got : List Byte) (s : State) : Host.Outcome State Fault Refusal :=
  onBuf (fun _ b => b.receive p got) s

/-- Whether a frame's last four bytes are its frame check sequence. -/
def goodFcs (l : List Byte) : Bool := sealFrame (l.take (l.length - 4)) == l

/-- The reason of Table 3.3 that discards a frame, as its counter. The FCS is good where the bytes match it and the MAC
found no fault that they do not show (`fcsGood`). -/
def Body.rxReason (b : Body) (p : Nat) (x : Rx) (pcsError fcsGood : Bool) : Option Fld :=
  if pcsError then some FPort.rxPcsErr
  else if x.got.length < 64 then some FPort.rxRunt
  else if b.fget clsPort p FPort.maxFrame < x.got.length then some FPort.rxOversize
  else if fcsGood && goodFcs x.got then none else some FPort.rxFcsErr

/-- A MAC control frame: PAUSE (false) or priority flow control (true), IEEE 802.3 Annex 31B and 31D. It is known by its
EtherType and opcode, whatever its destination address (DESIGN CHOICE; assumption log 120). -/
def flowKind (l : List Byte) : Option Bool :=
  if be16 l 12 = 0x8808 then
    (if be16 l 14 = 0x0001 then some false else if be16 l 14 = 0x0101 then some true else none)
  else none

/-- One class is stopped for `quanta` × 512 bit times from now; 0 lets it go (R64). -/
def Body.stopClass (b : Body) (tm : Time) (p c quanta : Nat) : Body :=
  let x := b.eg p
  let fp := b.fget clsEgress p FEgress.fcPaused
  if quanta = 0 then
    (b.setEg p { x with pauses := mapDel c x.pauses }).fset clsEgress p FEgress.fcPaused (fp &&& (255 - 2 ^ c))
  else
    (b.setEg p { x with
      pauses := mapPut c ((tm.now + bitTime16 (quanta * 512) (b.portRate p)) % 2 ^ 64) x.pauses }).fset clsEgress p
        FEgress.fcPaused (fp ||| 2 ^ c)

/-- A received flow control frame is counted and honoured with FC_RX_EN = 1 (R62, R64), whichever of the two kinds
FC_MODE selects for sending (DESIGN CHOICE; assumption log 120). -/
def Body.takeFlow (b : Body) (tm : Time) (p : Nat) (priority : Bool) (l : List Byte) : Body :=
  let b1 := b.bump clsPort p FPort.rxPause 1
  if b1.fget clsPort p FPort.fcRxEn = 0 then b1
  else if priority then
    (List.range 8).foldl (fun x c => if (be16 l 16).testBit c then x.stopClass tm p c (be16 l (18 + 2 * c)) else x) b1
  else (List.range 8).foldl (fun x c => x.stopClass tm p c (be16 l 16)) b1

/-- Whether a frame takes the direct path (R402). -/
def Body.directPath (b : Body) (p : Nat) (l : List Byte) : Bool :=
  decide (2 ≤ b.modeCode) && (b.fget clsDevice 0 FDevice.cmdPorts).testBit p &&
    beNat (l.take 6) == b.fget clsDevice 0 FDevice.cmdMac &&
    be16 l (afterTags l 2 12) == b.fget clsDevice 0 FDevice.cmdEthertype

/-- The hand-off to Intake: a full input queue discards the frame (R89). -/
def Body.macHandoff (b : Body) (f : InFrame) : Body :=
  if b.inputRoom f.port then b.toIntake f
  else ((b.freeBuf f.buffer .rx).2).bump clsIntake (0x300 + f.port) FInCnt.inputFull 1

/-- A direct-path frame passes BIV_IN, or waits until it is ready (R437). -/
def Body.toBivouac (b : Body) (f : InFrame) : Body :=
  if b.crossReady 0x24 then { b with net.bivIn := b.net.bivIn ++ [f] } else { b with net.bivWait := b.net.bivWait ++ [f] }

/-- RX_FRAME_END (R61, R62, R402): discarded with one reason, taken by flow control, or handed to the direct path or
to Intake. -/
def execRxFrameEnd (p : Nat) (got : List Byte) (pcsError : Bool) (fcsGood : Bool) (s : State) :
    Host.Outcome State Fault Refusal :=
  onBuf (fun tm b0 =>
    let b := b0.receive p got
    match b.rx? p with
    | some x =>
      let b1 := b.endRx p
      match x.buffer with
      | some h =>
        match b.rxReason p x pcsError fcsGood with
        | some c => ((b1.freeBuf h .rx).2).bump clsPort p c 1
        | none =>
          match flowKind x.got with
          | some k => ((b1.freeBuf h .rx).2).takeFlow tm p k x.got
          | none =>
            let b2 := b1.putBuf h x.got
            let b3 := (b2.bump clsPort p FPort.rxFrames 1).bump clsPort p FPort.rxBytes x.got.length
            let f : InFrame := ⟨h, x.got.length, p, x.sof, none, 0, none⟩
            if b3.directPath p x.got then
              let b4 := b3.toBivouac f
              if p = 64 then b4.fire 1 else b4
            else b3.macHandoff f
      | none => b1
    | none => b) s

/-! Receive slots of the Bivouac (R404). -/

def slotMem (x : Nat) : Nat := 0x740000 + 0x4000 * x
def rxRecord (x : Nat) : Nat := 0x7F8000 + 16 * x
def txRecord (x : Nat) : Nat := 0x7F8200 + 16 * x

/-- Whether the next receive slot in turn is free: its record has VALID = 0. -/
def Body.rxSlotFree (b : Body) : Bool := !(readLE b.mem.bmem (rxRecord b.net.rxSlot) 4).testBit 14

/-- A frame enters the next receive slot: its bytes first, then its record with VALID = 1 (Table 16.2). -/
def Body.fillRxSlot (b : Body) (classified : Bool) (port ts : Nat) (l : List Byte) : Body :=
  let k := b.net.rxSlot
  let rec0 := l.length % 2 ^ 14 + 2 ^ 14 + (if classified then 2 ^ 15 else 0) + port % 128 * 2 ^ 16
  let m1 := writeBytes b.mem.bmem (slotMem k) l
  { b with
    mem.bmem := writeLE m1 (rxRecord k) 16 (rec0 + ts % 2 ^ 64 * 2 ^ 64)
    net.rxSlot := (k + 1) % 32
    adm.arrivals := b.adm.arrivals ++ [.slot k] }

/-- BIVOUAC_RX (R403, R404): a direct-path frame, or the head of port 67's egress queues, goes to the next slot; with
that slot busy the first is discarded and the second waits. -/
def execBivouacRx (direct : Bool) (s : State) : Host.Outcome State Fault Refusal :=
  onBuf (fun tm b =>
    if ¬ b.crossReady 0x24 then b
    else if direct then
      match b.net.bivIn with
      | f :: r =>
        let b1 := { b with net.bivIn := r }
        let b2 := if b1.rxSlotFree then
            b1.fillRxSlot false f.port f.ts (frameBytes (b1.bufData f.buffer) f.length 0 f.length)
          else b1.bump clsDevice 0 FDevice.cmdDropped 1
        (b2.freeBuf f.buffer .rx).2
      | [] => b
    else if b.rxSlotFree then
      match b.pickClass tm 67 with
      | some (c, f, _) =>
        let b1 := b.setEgQueue 67 c ((b.egQueue 67 c).drop 1)
        (b1.fillRxSlot true f.desc.port f.desc.ts (b1.txBytes tm f tm.now)).dropCopy f .sent
      | none => b
    else b) s

end Sys2Proof.Machine
end

