-- ==== Sys2Proof/Machine/Bivouac.lean ====
section
/-! DEFINITION. The Bivouac cores as units: traps, resets, interrupts, watchdogs, and the frames they send
(spec/16, R397 to R405). -/

namespace Sys2Proof.Machine

/-- Whether the BIV clock runs (R398, R454): a Bivouac core executes. -/
def Body.bivRuns (b : Body) : Bool := decide (b.sys.base ≠ .cold) && !b.asleep

/-- Master number of Bivouac core `j`. -/
def bivHart (j : Nat) : Nat := 1024 + j

/-- A Bivouac core is reset (R401). Its timers and outstanding lock requests go as a thread reset makes them go. -/
def Body.bivReset (b : Body) (tm : Time) (j : Nat) : Body :=
  let h := bivHart j
  let b1 := (b.abandon (.biv j)).abandon (.thread h)
  let b2 := if b1.coreHolds j then
      (b1.fset clsIrq (irqCore j) FIrqDev.holds 0).irqComplete (b1.fget clsIrq (irqCore j) FIrqDev.claimed)
    else b1
  let b3 := (b2.fset clsIrq (irqCore j) FIrqDev.request 0).modHart h (fun x =>
    { x with
      regs := [], pc := 0, flags := Hart.reset.flags, inTrap := false, block := .none, pendingIe := none, staging := []
      timer := none, taskTimer := none
      reqs := x.reqs.filter (fun r => match r.kind with | .lock _ => false | .sem _ => false | _ => true) })
  let b4 := (b3.fset clsDevice (1 + j) FBiv.ie 0).bump clsDevice (1 + j) FBiv.resets 1
  { b4 with adm.kicks := mapPut j tm.now b4.adm.kicks }

/-- A trap of a Bivouac core (R399): the record and TVEC, or a reset within a handler. -/
def Body.trapBiv (b : Body) (tm : Time) (h cause insn addr : Nat) : Body :=
  let x := b.hart h
  if x.inTrap then b.bivReset tm (h - 1024)
  else
    b.setHart h { x with
      inTrap := true, trapCause := cause, trapPc := x.pc, trapInsn := insn, trapAddr := addr, block := .none
      pc := b.fget clsDevice (bivInst h) FBiv.tvec }

/-- BIVOUAC_INTERRUPT (R400): IPC takes the next instruction's address, IE clears, and the core goes on at IVEC. -/
def execBivouacInterrupt (j : Nat) (s : State) : Host.Outcome State Fault Refusal :=
  onBody (fun _ b =>
    let i := 1 + j
    let x := b.hart (bivHart j)
    if j < 4 ∧ b.bivRuns ∧ b.coreRequest j ∧ b.fget clsDevice i FBiv.ie = 1 ∧ ¬ x.inTrap then
      ((b.fset clsDevice i FBiv.ipc x.pc).fset clsDevice i FBiv.ie 0).setHart (bivHart j)
        { x with pc := b.fget clsDevice i FBiv.ivec, block := .none }
    else b) s

/-- BIVOUAC_WATCHDOG (R401): WDOG_US microseconds after the last KICK the core is reset. -/
def execBivouacWatchdog (j : Nat) (s : State) : Host.Outcome State Fault Refusal :=
  onDev (fun d =>
    if j < 4 ∧ d.b.bivRuns then
      let t := mapGet 0 j d.b.adm.kicks + d.b.fget clsDevice (1 + j) FBiv.wdogUs * 1000 * 2 ^ 16
      let d1 := d.waitUntil (t % 2 ^ 64)
      { d1 with b := d1.b.bivReset d1.tm j }
    else d) s

/-- The watchdog of core `j` starts anew. -/
def Body.kick (b : Body) (tm : Time) (j : Nat) : Body := { b with adm.kicks := mapPut j tm.now b.adm.kicks }

/-! Frames from the Bivouac (R405). -/

/-- A frame of the Bivouac is sent (R405): to class `c` of port `p`, or into Intake on port 67. Its status with it. -/
def Body.sendBiv (b : Body) (via : Bool) (p c : Nat) (data : List Byte) : Nat × Body :=
  let n := data.length + 4
  match smallestPool n with
  | none => (stOutOfRange, b)
  | some k =>
    if !b.chargeFits .bivouac (poolSize k) then (stRefusedShare, b)
    else match b.takeBuf k .bivouac .bivouac (sealFrame data) with
      | none => (stRefusedShare, b)
      | some (h, b1) =>
        if via then (stOk, ((b1.handoff h .bivouac .rx).2).macHandoff ⟨h, n, 67, 0, none, 0, none⟩)
        else
          let f : EgFrame := ⟨0, h, n, ⟨h, n, 67, 0, 0, 0, 0, 0, c, 0, 0, 0⟩, 0, true, p * 2 ^ 48 + c * 2 ^ 56, none, false,
            none, .none, false, false⟩
          (stOk, ((b1.handoff h .bivouac .egress).2).egEnqueue f)

/-- Words of Bivouac memory. -/
def Body.bmemWord (b : Body) (a : Nat) : Nat := readLE b.mem.bmem a 4
def Body.setBmemWord (b : Body) (a v : Nat) : Body := { b with mem.bmem := writeLE b.mem.bmem a 4 v }

/-- The device acts on word 0 of transmit record `x` if GO is set (R405, Table 16.2). A LENGTH or PORT outside the
table's range sends nothing and STATUS says OUT_OF_RANGE (assumption log 25). -/
def Body.txRecordAct (b : Body) (x : Nat) : Body :=
  let w := b.bmemWord (txRecord x)
  if w.testBit 14 then
    let n := w % 2 ^ 14
    let via := w.testBit 15
    let p := bitsAt w 16 7
    let r :=
      if n < 60 ∨ 16379 < n ∨ (64 < p ∧ ¬ via) then (stOutOfRange, b)
      else b.sendBiv via p (bitsAt w 23 3) (readBytes b.mem.bmem (slotMem (32 + x)) n)
    let b1 := r.2.setBmemWord (txRecord x) (w - 2 ^ 14)
    b1.setBmemWord (txRecord x + 4) (b1.bmemWord (txRecord x + 4) / 2 ^ 16 * 2 ^ 16 + r.1)
  else b

/-- TX_RECORD_GO (R405): the firmware's write of word 0 of a transmit record. -/
def execTxRecordGo (x : Nat) (w : Word) (s : State) : Host.Outcome State Fault Refusal :=
  onBuf (fun _ b => if x < 12 ∧ b.bivRuns then (b.setBmemWord (txRecord x) w.toNat).txRecordAct x else b) s

end Sys2Proof.Machine
end

