-- ==== Sys2Proof/Machine/Flags.lean ====
section
/-! DEFINITION. The flags word and every flag computation (spec/07, R176, R177, R179 to R181, R184, R194). -/

namespace Sys2Proof.Machine

/-- The flags word (Table 7.3). -/
def Flags.toNat (f : Flags) : Nat :=
  f.n.toNat + 2 * f.z.toNat + 4 * f.c.toNat + 8 * f.v.toNat + 16 * f.dz.toNat + 32 * f.eom.toNat + 64 * f.lf.toNat

/-- The flags that bits 6:0 of a word give (MTF, R205). -/
def Flags.ofNat (x : Nat) : Flags :=
  ⟨x.testBit 0, x.testBit 1, x.testBit 2, x.testBit 3, x.testBit 4, x.testBit 5, x.testBit 6⟩

/-- N and Z from the value written. -/
def Flags.nz (f : Flags) (r : Word) : Flags := { f with n := r.msb, z := decide (r = 0) }

/-- N, Z and V. -/
def Flags.nzv (f : Flags) (r : Word) (v : Bool) : Flags := { f.nz r with v := v }

/-- N, Z, C and V of a sum (R179). -/
def Flags.sum (f : Flags) (a b : Word) : Flags :=
  { f.nzv (a + b) (decide (a.msb = b.msb) && decide ((a + b).msb ≠ a.msb)) with
    c := decide (2 ^ 32 ≤ a.toNat + b.toNat) }

/-- N, Z, C and V of a difference (R179): C is no borrow. -/
def Flags.difference (f : Flags) (a b : Word) : Flags :=
  { f.nzv (a - b) (decide (a.msb ≠ b.msb) && decide ((a - b).msb ≠ a.msb)) with
    c := decide (b.toNat ≤ a.toNat) }

/-- A signed value saturated to 32 bits, with V (R179). -/
def saturate32 (x : Int) : Word × Bool :=
  if 0x7FFFFFFF < x then (0x7FFFFFFF, true)
  else if x < -2 ^ 31 then (0x80000000, true)
  else (BitVec.ofInt 32 x, false)

/-- Quotient and remainder of a signed divide, with V and DZ (R180). -/
def divSigned (a b : Word) : Word × Word × Bool × Bool :=
  if b = 0 then ((if a.msb then 0x80000000 else 0x7FFFFFFF), a, false, true)
  else if a = 0x80000000 ∧ b = 0xFFFFFFFF then (0x80000000, 0, true, false)
  else (BitVec.ofInt 32 (a.toInt.tdiv b.toInt), BitVec.ofInt 32 (a.toInt.tmod b.toInt), false, false)

/-- Quotient and remainder of an unsigned divide, with V and DZ (R180). -/
def divUnsigned (a b : Word) : Word × Word × Bool × Bool :=
  if b = 0 then (0xFFFFFFFF, a, false, true)
  else (BitVec.ofNat 32 (a.toNat / b.toNat), BitVec.ofNat 32 (a.toNat % b.toNat), false, false)

/-- N, Z, V and DZ of a divide. -/
def Flags.divide (f : Flags) (r : Word) (v dz : Bool) : Flags := { f.nzv r v with dz := dz }

/-- A shift or rotate by kind (0 SHL, 1 SHR, 2 SAR, 3 ROL, 4 ROR) and amount (R181). -/
def shiftBy (kind : Nat) (a : Word) (s : Nat) : Word :=
  match kind with
  | 0 => a <<< s
  | 1 => a >>> s
  | 2 => a.sshiftRight s
  | 3 => a.rotateLeft (s % 32)
  | _ => a.rotateRight (s % 32)

/-- The conditions of Table 7.6; `none` for an undefined one. -/
def Flags.holds (f : Flags) : Nat → Option Bool
  | 0 => some f.z
  | 1 => some !f.z
  | 2 => some f.c
  | 3 => some !f.c
  | 4 => some f.n
  | 5 => some !f.n
  | 6 => some f.v
  | 7 => some !f.v
  | 8 => some (f.c && !f.z)
  | 9 => some (!f.c || f.z)
  | 10 => some (f.n == f.v)
  | 11 => some (f.n != f.v)
  | 12 => some (!f.z && f.n == f.v)
  | 13 => some (f.z || f.n != f.v)
  | 14 => some true
  | 15 => some f.eom
  | 16 => some !f.eom
  | 17 => some f.dz
  | 18 => some f.lf
  | _ => none

end Sys2Proof.Machine
end

