-- ==== Sys2Proof/Machine/Dram.lean ====
section
/-! DEFINITION. The external memory controller (spec/13, R334 to R350). -/

namespace Sys2Proof.Machine

/-- The age of a request in ns: 2/3 ns to the core cycle (R339, R426). -/
def Body.dramAge (b : Body) (r : DramReq) : Nat := (b.clock - r.arrival) * 2 / 3

/-- The urgency of a request (R339). -/
def Body.urgency (b : Body) (r : DramReq) : Nat :=
  let t := b.fget clsDram (portInst r.port) FReqPort.targetNs
  if r.port = 7 then 0 else if t ≤ b.dramAge r then 2 else if t ≤ 2 * b.dramAge r then 1 else 0

/-- A command joins a channel's history, newest first, sixteen kept; the history of a frozen channel stands (R350). -/
def Body.note (b : Body) (tm : Time) (c cmd sub rank bg ba place : Nat) : Body :=
  let i := chanInst c
  let old := (List.range 16).map (fun j => b.fget clsDram i (dramHistory j))
  let e := cmd + sub % 2 * 16 + rank % 2 * 32 + bg % 8 * 64 + ba % 4 * 512 + place % 2 ^ 18 * 2048 +
    tm.now / 2 ^ 16 % 2 ^ 32 * 2 ^ 32
  if b.frozen c then b else ((e :: old).take 16).zipIdx.foldl (fun (x : Body) p => x.fset clsDram i (dramHistory p.2) p.1) b

/-- The command of a line's bank joins the history. -/
def Body.noteLine (b : Body) (tm : Time) (c cmd a place : Nat) : Body :=
  b.note tm c cmd (b.lineSub a) (b.lineRank a) (lineBg a) (lineBa a) place

/-- The open row of a line's bank. -/
def Body.rowKey (b : Body) (c a : Nat) : Nat := 256 * c + b.lineBank a
def Body.openRow (b : Body) (c a : Nat) : Option Nat := mapFind (b.rowKey c a) b.drm.rows

/-- The next command of a request (Table 13.7): PRE where another row is open, ACT where none is, RD or WR; a
read-modify-write reads first (R337). -/
def Body.nextCmd (b : Body) (c : Nat) (r : DramReq) : Nat :=
  match b.openRow c r.addr with
  | none => 0
  | some row => if row = lineRow r.addr then (if r.write && !r.modify then 2 else 1) else 3

/-- Whether a queued request is among those that R340 lets a subchannel choose from: no write of urgency 0 unless the
channel drains writes, no MAINT request while another is queued. -/
def Body.mayChoose (b : Body) (c sub : Nat) (r : DramReq) : Bool :=
  !r.issued && b.lineSub r.addr == sub && (!r.write || decide (0 < b.urgency r) || b.drm.draining.contains c) &&
    (r.port != 7 || (b.dramQueue c).all (fun x => x.port == 7))

/-- Whether `x` goes before `r` for the same command of the same bank, which meets the DDR5 timings for both or for
neither: the higher urgency, then the older request, then the lower port (R340). -/
def Body.goesBefore (b : Body) (c : Nat) (x r : DramReq) : Bool :=
  b.lineBank x.addr == b.lineBank r.addr && b.nextCmd c x == b.nextCmd c r &&
    (decide (b.urgency r < b.urgency x) || (decide (b.urgency r = b.urgency x) &&
      (decide (x.arrival < r.arrival) || (decide (x.arrival = r.arrival) && decide (x.port < r.port)))))

/-- The next command of request `i` is issued; its column command makes it issued, but for the read of a
read-modify-write. -/
def Body.issueCmd (b : Body) (tm : Time) (c i : Nat) (r : DramReq) : Body :=
  let k := b.rowKey c r.addr
  match b.nextCmd c r with
  | 0 => { b with drm.rows := mapPut k (lineRow r.addr) b.drm.rows }.noteLine tm c 0 r.addr (lineRow r.addr)
  | 3 => { b with drm.rows := mapDel k b.drm.rows }.noteLine tm c 3 r.addr 0
  | m =>
    let r1 := if r.modify then { r with modify := false } else { r with issued := true }
    (b.setDramQueue c ((b.dramQueue c).set i r1)).noteLine tm c m r.addr (lineCol r.addr)

/-- The keys of a rank, and of a rank in a subchannel. -/
def rankKey (c rank : Nat) : Nat := 2 * c + rank % 2
def bankKey (c sub rank : Nat) : Nat := 4 * c + 2 * (sub % 2) + rank % 2

/-- Whether the devices take commands: not unpowered, nor refreshing themselves (R341). -/
def Body.dramAwake (b : Body) : Bool := b.sys.base != .cold && b.sys.base != .dormant

/-- A due same-bank refresh is issued, to the bank whose turn it is in every bank group (R341; assumption log 154). -/
def Body.issueRefresh (b : Body) (tm : Time) (c sub rank : Nat) : Body :=
  let k := bankKey c sub rank
  let ba := mapGet 0 k b.drm.refBank
  { b with
    drm.due := mapPut k (mapGet 0 k b.drm.due - 1) b.drm.due
    drm.refBank := mapPut k ((ba + 1) % 4) b.drm.refBank }.note tm c 5 sub rank 0 ba 0

/-- SUBCHANNEL_COMMAND (R340): a due refresh, or the next command of a request that the rules of R340 let it choose. Which
of the candidates meet the DDR5 timings is the sender's word: it names the one that the subchannel chooses
(assumption log 15). A frozen channel issues only refresh (R345), and a rank's commands wait while it is retrained
(R342). -/
def execSubchannelCommand (ch : Nat) (sub : Nat) (c : DdrCommand) (s : State) : Host.Outcome State Fault Refusal :=
  onDev (fun d =>
    match c with
    | .refresh rank =>
      if 0 < mapGet 0 (bankKey ch sub rank) d.b.drm.due ∧ d.b.dramAwake then
        let d1 := d.waitCycle (mapGet 0 (rankKey ch rank) d.b.drm.rankBusy)
        { d1 with b := d1.b.issueRefresh d1.tm ch sub rank }
      else d
    | .access i =>
      match (d.b.dramQueue ch)[i]? with
      | some r =>
        if !d.b.frozen ch && d.b.dramAwake && d.b.mayChoose ch sub r &&
            !(d.b.dramQueue ch).any (fun x => d.b.mayChoose ch sub x && d.b.goesBefore ch x r) then
          let d1 := d.waitCycle (mapGet 0 (rankKey ch (d.b.lineRank r.addr)) d.b.drm.rankBusy)
          { d1 with b := d1.b.issueCmd d1.tm ch i r }
        else d
      | none => d) s

/-- Core cycles of the refresh interval of 3.9 µs, and of half of it (R341). -/
def refreshCycles (hot : Bool) : Nat := if hot then 2925 else 5850

/-- DRAM_REFRESH (R341): the refresh interval of a populated rank expires, and a same-bank refresh
becomes due in each subchannel. Whether a
device of the rank reports a temperature above 85 °C, which halves the interval, is a free value. In Dormant the
devices refresh themselves. -/
def execDramRefresh (ch : Nat) (rank : Nat) (s : State) : Host.Outcome State Fault Refusal :=
  onDev (fun d =>
    if d.b.fget clsDram (chanInst ch) FChan.present = 1 ∧ rank ≤ d.b.fget clsDram 0 FDram.ranksM1 ∧
        d.b.dramAwake then
      let k := rankKey ch rank
      let hot := d.b.fresh
      let t := mapGet 0 k d.b.drm.refreshed + refreshCycles (decide (hot.1 % 2 = 1))
      let d1 := Dev.waitCycle ⟨d.tm, hot.2⟩ t
      { d1 with b := { d1.b with
        drm.due := [0, 1].foldl (fun m sub =>
          mapPut (bankKey ch sub rank) (mapGet 0 (bankKey ch sub rank) m + 1) m) d1.b.drm.due
        drm.refreshed := mapPut k d1.tm.cycle d1.b.drm.refreshed } }
    else d) s

/-- Core cycles of 32 ms, and of 300 ns. -/
def retrainCycles : Nat := 48000000
def retrainBusy : Nat := 450

/-- DQS_RETRAIN (R342): 32 ms after the last time, a rank's interval oscillator is read in service with a mode register
read in each subchannel, and its commands wait, for how long up to 300 ns is a free value. The adjusted write timing is
inside the controller (assumption log 15). -/
def execDqsRetrain (ch : Nat) (rank : Nat) (s : State) : Host.Outcome State Fault Refusal :=
  onDev (fun d0 =>
    if d0.b.fget clsDram (chanInst ch) FChan.present = 1 ∧ rank ≤ d0.b.fget clsDram 0 FDram.ranksM1 ∧ d0.b.runs ∧
        ¬ d0.b.frozen ch then
      let k := rankKey ch rank
      let x := d0.b.fresh
      let d := Dev.waitCycle ⟨d0.tm, x.2⟩ (mapGet 0 k d0.b.drm.retrained + retrainCycles)
      { d with b := (({ d.b with
          drm.retrained := mapPut k d.tm.cycle d.b.drm.retrained
          drm.rankBusy := mapPut k (d.tm.cycle + x.1 % (retrainBusy + 1)) d.b.drm.rankBusy }.note d.tm ch 7 0 rank 0 0
            0).note d.tm ch 7 1 rank 0 0 0) }
    else d0) s

/-- Lines of a channel, the address of one of them, and the core cycles of a scrub period. -/
def Body.channelLines (b : Body) : Nat := b.dramCapacity / b.dramChannels / 64
def Body.channelLine (b : Body) (c k : Nat) : Nat := (k / 4 * b.dramChannels + c) * 256 + 64 * (k % 4)
def Body.scrubCycles (b : Body) : Nat := b.fget clsDram 0 FDram.scrubHours * 3600 * 1500000000

/-- Whether a scrub read of a channel is under way. -/
def Body.scrubbing (b : Body) (c : Nat) : Bool :=
  let is := fun (r : DramReq) => decide (r.port = 7 ∧ b.dramChannel r.addr = c)
  (b.dramQueue c).any is || b.drm.waiting.any is

/-- SCRUB_READ (R343): the MAINT port asks for the channel's next line; a pass starts no earlier than one period of
SCRUB_HOURS hours after the start of the last. -/
def execScrubRead (ch : Nat) (corrected : Bool) (s : State) : Host.Outcome State Fault Refusal :=
  onDev (fun d =>
    if d.b.fget clsDram (chanInst ch) FChan.present = 1 ∧ 0 < d.b.fget clsDram 0 FDram.scrubHours ∧ ¬ d.b.frozen ch ∧
        d.b.dramAwake ∧ ¬ d.b.scrubbing ch then
      let n := mapGet 0 ch d.b.drm.scrub
      let d1 := if n = 0 then d.waitCycle (mapGet 0 ch d.b.drm.scrubFrom) else d
      let b1 := if n = 0 then
          { d1.b with drm.scrubFrom := mapPut ch (d1.tm.cycle + d1.b.scrubCycles) d1.b.drm.scrubFrom } else d1.b
      { d1 with b := b1.dramSend 7 0 (b1.channelLine ch n) 64 false (.scrub corrected) [] }
    else d) s

/-- A scrub read has completed: the next line is the channel's next, and a full pass counts. -/
def Body.scrubbed (b : Body) (c : Nat) : Body :=
  let n := mapGet 0 c b.drm.scrub + 1
  if n < b.channelLines then { b with drm.scrub := mapPut c n b.drm.scrub }
  else { b with drm.scrub := mapPut c 0 b.drm.scrub }.bump clsDram (chanInst c) FChan.scrubPasses 1

/-! Freeze and thaw (R345 to R347). -/

/-- The level of source 36 and the overlay's transitions follow the channels (R345, R347, R444). -/
def Body.freezeChanged (b : Body) (before : Bool) : Body :=
  let b1 := b.setLevel 36 b.anyFrozen
  if before != b.anyFrozen && b1.sys.base.freezable then (b1.bump clsPower 0 FPower.modeChanges 1).holdPorts else b1

/-- A channel freezes with its capture. The coordinates, the syndromes and the raw line come from the device
(assumption log 13). -/
def Body.freezeChannel (b : Body) (tm : Time) (c : Nat) (f : FreezeInfo) : Body :=
  let i := chanInst c
  let was := b.anyFrozen
  let line := f.addr / 64 * 64
  let (raw, b0) := b.fresh
  let b1 := ((b0.fset clsDram i FChan.frozen 1).bump clsDram i FChan.freezes 1).fset clsDram i FChan.frzCause f.cause
  let b2 := (b1.fset clsDram i FChan.frzAddr line).fset clsDram i FChan.frzTime tm.now
  let b3 := (b2.fset clsDram i FChan.frzSyndrome f.syndrome.toNat).fset clsDram i FChan.captureData raw
  let b4 := (((b3.fset clsDram i FChan.frzPort f.port).fset clsDram i FChan.frzSubch (b.lineSub line)).fset clsDram i FChan.frzRank
    (b.lineRank line)).fset clsDram i FChan.frzBg (lineBg line)
  let b5 := ((b4.fset clsDram i FChan.frzBa (lineBa line)).fset clsDram i FChan.frzCol (lineCol line)).fset clsDram i
    FChan.frzRow (lineRow line)
  let b6 := if f.cause = 3 then b5.bump clsDram i FChan.caParity 1 else b5.bump clsDram i FChan.uncorrectable 1
  b6.freezeChanged was

/-- Whether request `i` of a queue may complete: its column command is issued, its channel runs, and no earlier request
of its port to its line is queued (R337). -/
def Body.dramReady (b : Body) (c i : Nat) (r : DramReq) : Bool :=
  r.issued && !b.frozen c && !((b.dramQueue c).take i).any (fun x => x.port == r.port && x.addr == r.addr)

/-- What a completed request of channel `c` brings: the next line of a scrub; the words of a thread's DRD, or the answer
of a host's access, with the last of its lines. -/
def Body.dramAnswer (b : Body) (c : Nat) (r : DramReq) : Body :=
  match r.use with
  | .posted => b
  | .writeBack => b
  | .scrub _ => b.scrubbed c
  | .thread h num =>
    if b.dramPending r.group then b
    else b.modHart h (fun x => { x with
      reqs := x.reqs.map (fun q => if q.num = num then { q with reply := some (wordsOf (r.data.map (fun e => e.2))) } else q) })
  | .aperture write =>
    if b.dramPending r.group then b
    else if write then b.answer stOk
    else b.answerWords stOk (wordsOf (r.data.map (fun e => e.2)))

/-- A read has had an error corrected: it counts, and the controller writes the line back (R344). -/
def Body.dramFixed (b : Body) (c : Nat) (r : DramReq) : Body :=
  let b1 := b.bump clsDram (chanInst c) FChan.corrected 1
  if r.write then b1
  else b1.tick.2.setDramQueue c (b1.dramQueue c ++ [⟨b1.tick.1, b1.tick.1, r.port, r.tent, r.addr, true, .writeBack, b1.clock,
    false, false, 0, []⟩])

/-- The cause of a freeze at a request's data (Table 13.6). -/
def DramReq.cause (r : DramReq) : Nat :=
  match r.use with
  | .scrub _ => 4
  | _ => 1

/-- A request completes: out of its queue, counted for its port unless the controller made it itself. -/
def Body.dramEnds (b : Body) (c i : Nat) (r : DramReq) : Body :=
  let b1 := b.setDramQueue c ((b.dramQueue c).eraseIdx i)
  if r.use = .writeBack then b1 else b1.dramDone r.port (b.dramAge r)

/-- DRAM_COMPLETE (R337, R339, R344): request `i` completes. A corrected error counts and is written back; a write whose
CRC the device reports as failing is issued again, at most 4 times. -/
def execDramComplete (ch : Nat) (i : Nat) (e : BeatError) (s : State) : Host.Outcome State Fault Refusal :=
  onBody (fun tm b =>
    match (b.dramQueue ch)[i]? with
    | some r =>
      let (syn, b0) := b.fresh
      if !b.dramReady ch i r then b
      else
        match e with
        | .uncorrectable => b0.freezeChannel tm ch ⟨r.cause, r.port, r.addr, BitVec.ofNat 128 syn⟩
        | .writeCrc =>
          if !r.write then b
          else if 4 ≤ r.tries then b0.freezeChannel tm ch ⟨2, r.port, r.addr, BitVec.ofNat 128 syn⟩
          else (b.setDramQueue ch ((b.dramQueue ch).set i { r with tries := r.tries + 1, issued := false })).bump clsDram
            (chanInst ch) FChan.wcrcRetries 1
        | _ =>
          let b1 := b.dramEnds ch i r
          let b2 := if decide (e ≠ .good) || r.use == .scrub true then b1.dramFixed ch r else b1
          (b2.dramAnswer ch r).admitDram
    | none => b) s

/-- CHANNEL_FREEZE (R345). -/
def execChannelFreeze (ch : Nat) (f : FreezeInfo) (s : State) : Host.Outcome State Fault Refusal :=
  onBody (fun tm b =>
    if b.fget clsDram (chanInst ch) FChan.present = 1 ∧ ¬ b.frozen ch then b.freezeChannel tm ch f else b) s

/-- After a parity error (R347): every bank is precharged, and the commands that the error leaves uncertain, those of the
requests already issued, are issued again, oldest first. -/
def Body.reissue (b : Body) (tm : Time) (c : Nat) : Body :=
  let b1 := { b with drm.rows := b.drm.rows.filter (fun e => decide (e.1 / 256 ≠ c)) }
  let b2 := (List.range (b.fget clsDram 0 FDram.ranksM1 + 1)).foldl (fun (x : Body) k =>
    (x.note tm c 4 0 k 0 0 0).note tm c 4 1 k 0 0 0) b1
  ((b.dramQueue c).filter (fun r => r.issued)).foldl (fun (x : Body) r =>
    let y := if x.openRow c r.addr = some (lineRow r.addr) then x
      else { x with drm.rows := mapPut (x.rowKey c r.addr) (lineRow r.addr) x.drm.rows }.noteLine tm c 0 r.addr
        (lineRow r.addr)
    y.noteLine tm c (if r.write then 2 else 1) r.addr (lineCol r.addr)) b2

/-- The requests of a channel for a line, queued or at their port, in order of arrival. -/
def Body.lineReqs (b : Body) (c line : Nat) : List DramReq :=
  sortBy (fun x y => decide (x.num ≤ y.num)) ((b.dramQueue c ++ b.drm.waiting).filter (fun r => decide (r.addr = line)))

/-- A line that REPAIR has written: the requests that wait for it act on it in order, each write with its bytes, and what a
thread's or host's read returns is read anew (R347). -/
def Body.replay (b : Body) (c line : Nat) : Body :=
  (b.lineReqs c line).foldl (fun (x : Body) r =>
    if r.write then { x with mem.dram := r.data.foldl (fun m e => writeByte m e.1 e.2) x.mem.dram }
    else x.mapReqs (fun q => if q.group = r.group ∧ !q.write then
        { q with data := q.data.map (fun e => if e.1 / 64 * 64 = line then (e.1, readByte x.mem.dram e.1) else e) } else q)) b

/-- A thaw (R347): status and state. REPAIR writes the captured line, then the writes that waited are made. `retryFails`
is what the retry of the failing request meets; a request that froze its channel is still queued, and the completion of
its retry is a DRAM_COMPLETE. -/
def Body.thawChannel (b : Body) (tm : Time) (c : Nat) (retryFails : Option FreezeInfo) : Nat × Body :=
  let i := chanInst c
  if !b.frozen c then (stNotInMode, b)
  else
    let b0 := b.fset clsDram i FChan.frozen 0
    let a := b.fget clsDram i FChan.frzAddr
    let line := (leBytes 64 (b.fget clsDram i FChan.repairData)).take (b.dramCapacity - a)
    let b1 := if b.fget clsDram i FChan.repair = 1 then
        { b0 with mem.dram := writeBytes b0.mem.dram a line }.replay c a else b0
    let b2 := b1.dramLate c
    let b3 := ((if b.fget clsDram i FChan.frzCause = 3 then b2.reissue tm c else b2).freezeChanged true).admitDram
    match retryFails with
    | some f => (stOk, b3.freezeChannel tm c f)
    | none => (stOk, b3)

end Sys2Proof.Machine
end

