-- ==== Sys2Proof/Machine/Basin.lean ====
section
/-! DEFINITION. The Basin: slots, input queue, application, cuts, rings and snapshots (spec/11, R288 to R303). -/

namespace Sys2Proof.Machine

/-! Slots and configuration records. -/

/-- Slots of each tent, and the absolute number of a tent-relative slot (R288). -/
def Body.slotShare (b : Body) : Nat := 1048576 / b.tents
def Body.slotAbs (b : Body) (t s : Nat) : Nat := tentBase b.nLogN 1048576 t + s
def slotInst (a : Nat) : Nat := 0x100000 + a
def listInst (l : Nat) : Nat := 0x10000 + l
def ringInst (t r : Nat) : Nat := 0x1000 + 16 * t + r

def Body.bslot (b : Body) (a : Nat) : BSlot :=
  let g := fun f => b.fget clsBasin (slotInst a) f
  ⟨g FSlot.value, g FSlot.quality, g FSlot.tick, g FSlot.subTick, g FSlot.filter, g FSlot.ref, g FSlot.valid == 1,
   g FSlot.forced == 1, g FSlot.hi == 1, g FSlot.lo == 1, g FSlot.stale == 1, g FSlot.pending == 1, g FSlot.cfgIndex⟩

def Body.setBslot (b : Body) (a : Nat) (x : BSlot) : Body :=
  [(FSlot.value, x.value), (FSlot.quality, x.quality), (FSlot.tick, x.tick), (FSlot.subTick, x.sub),
   (FSlot.filter, x.filter), (FSlot.ref, x.ref), (FSlot.valid, bit x.valid), (FSlot.forced, bit x.forced),
   (FSlot.hi, bit x.hi), (FSlot.lo, bit x.lo), (FSlot.stale, bit x.stale), (FSlot.pending, bit x.pending),
   (FSlot.cfgIndex, x.cfg)].foldl (fun (y : Body) e => y.fset clsBasin (slotInst a) e.1 e.2) b

/-- The slot flags, bit 0 being VALID (R289). -/
def BSlot.flags (x : BSlot) : Nat :=
  bit x.valid + 2 * bit x.forced + 4 * bit x.hi + 8 * bit x.lo + 16 * bit x.stale + 32 * bit x.pending

/-- The four words of a slot (R299). -/
def BSlot.words (x : BSlot) : List Nat :=
  [x.value + x.quality * 2 ^ 10 + x.tick % 2 ^ 16 * 2 ^ 16, x.tick / 2 ^ 16 + x.sub * 2 ^ 16, x.filter,
   x.ref + x.flags * 2 ^ 10 + x.cfg * 2 ^ 16]

/-- The address of a configuration record. -/
def Body.cfgAddr (b : Body) (t i : Nat) : Nat := b.fget clsBasin (1 + t) FBasinTent.cfgBase + 32 * i

/-- The configuration record of a tent's index, `none` where it is bad (R291). -/
def Body.basinCfg (b : Body) (t i : Nat) : Option BasinCfg :=
  if b.fget clsBasin (1 + t) FBasinTent.cfgCount ≤ i then none
  else
    let r := leNat (b.dramBytes (b.cfgAddr t i) 32)
    let g := bitsAt r
    if g 0 2 = 3 ∨ g 2 14 ≠ 0 ∨ g 42 6 ≠ 0 ∨ g 58 6 ≠ 0 ∨ g 74 6 ≠ 0 ∨ g 92 4 ≠ 0 ∨ g 120 8 ≠ 0 ∨ g 149 107 ≠ 0 then none
    else some ⟨g 0 2, g 16 16, g 32 10, g 48 10, g 64 10, g 80 10, g 90 1 == 1, g 91 1 == 1, g 96 16, g 112 4, g 116 4,
      g 128 20, g 148 1 == 1⟩

/-- Whether a configuration record lies behind a frozen channel, and its read by the BASIN port (R346, Table 13.3). -/
def Body.cfgHeld (b : Body) (t i : Nat) : Bool :=
  decide (i < b.fget clsBasin (1 + t) FBasinTent.cfgCount) && b.dramHeld (b.cfgAddr t i) 32
def Body.cfgRead (b : Body) (t i : Nat) : Body :=
  if i < b.fget clsBasin (1 + t) FBasinTent.cfgCount then b.dramPost 2 0 (b.cfgAddr t i) 32 false else b

/-- A code in the record's format: U10 or S10. -/
def BasinCfg.code (c : BasinCfg) (x : Nat) : Int := if c.mode = 1 then signedOf 10 x else (x % 1024 : Nat)

/-! Rings and events (R297, R302). -/

/-- A record of 16 bytes joins a ring that is enabled. -/
def Body.ringPut (b : Body) (t r rec : Nat) : Body :=
  let i := ringInst t r
  if b.fget clsBasin i FRing.enable = 1 then
    let w := b.fget clsBasin i FRing.writeIndex
    let a := b.fget clsBasin i FRing.base + 16 * (w % 2 ^ b.fget clsBasin i FRing.lenLog2)
    (b.dramWrite 2 0 a (leBytes 16 rec)).bumpWrap clsBasin i FRing.writeIndex 1
  else b

/-- A ring record (Table 11.5). -/
def ringRecord (s : Nat) (x : BSlot) (ev tick : Nat) : Nat :=
  s + x.value * 2 ^ 20 + x.quality * 2 ^ 30 + x.flags * 2 ^ 36 + ev * 2 ^ 42 + tick % 2 ^ 32 * 2 ^ 64 + x.sub * 2 ^ 96

/-- Events of a slot, in order: the event ring, and flag 7 of the alarm queue. -/
def Body.basinEvents (b : Body) (tm : Time) (t s : Nat) (x : BSlot) (c : BasinCfg) (evs : List Nat) : Body :=
  evs.foldl (fun (y : Body) ev =>
    let y1 := y.ringPut t 0 (ringRecord s x ev tm.tickNumber)
    if c.alarmEn && decide (c.alarmQueue < 1048576 / y1.tents) then
      y1.setFlags (queueBase y1.nLogN t + c.alarmQueue) 0x80
    else y1) b

/-- One alarm: enabled, its state, its set and clear conditions, its set event (the clear event is the next code). -/
def judge (en old set clear : Bool) (ev : Nat) : Bool × List Nat :=
  let new := if !en then false else if set then true else if clear then false else old
  (new, if new && !old then [ev] else if old && !new then [ev + 1] else [])

/-! Application of an entry (R292, R296, R299, R300). -/

/-- A slot with HIST_RING in its record joins the pending list. -/
def Body.markPending (b : Body) (a : Nat) (x : BSlot) (c : BasinCfg) : BSlot × Body :=
  if c.histRing ≠ 0 ∧ ¬ x.pending then ({ x with pending := true }, { b with bas.pend := b.bas.pend ++ [a] }) else (x, b)

/-- TICK and SUB_TICK of a time (R293). -/
def Body.tickOf (b : Body) (tm : Time) (time : Nat) : (Nat × Nat) × Body :=
  let g := tm.gridOf (tm.fullOf time)
  (g.1.tickOf (tm.fullOf time), if g.2 then b.bump clsBasin 0 FBasin.gridExtended 1 else b)

/-- A write judged and not superseded, on a signal slot; `first` where it is judged as a first write. -/
def Body.writeSignal (b : Body) (tm : Time) (t s a : Nat) (x0 : BSlot) (c : BasinCfg) (first : Bool) (value q T S : Nat) : Body :=
  let xc := c.code value
  let y := if first ∨ c.alpha = 0 then xc * 2 ^ 21
    else signedOf 32 x0.filter + ((xc * 2 ^ 21 - signedOf 32 x0.filter) * c.alpha + 2 ^ 15) / 2 ^ 16
  let v := (y + 2 ^ 20) / 2 ^ 21
  let sig := decide (first ∨ q ≠ x0.quality ∨ (c.deadband : Int) < (v - c.code x0.ref).natAbs)
  let x1 := { x0 with value := codeOf 10 v, quality := q, tick := T, sub := S, filter := codeOf 32 y }
  let m := if sig then b.markPending a { x1 with ref := codeOf 10 v } c else (x1, b)
  let hi := judge c.hiEn x0.hi (decide (c.code c.hiLimit ≤ v)) (decide (v < c.code c.hiLimit - c.hyst)) 0
  let lo := judge c.loEn x0.lo (decide (v ≤ c.code c.loLimit)) (decide (c.code c.loLimit + c.hyst < v)) 2
  let evs := (if x0.stale then [5] else []) ++ hi.2 ++ lo.2
  let x2 := { m.1 with stale := false, hi := hi.1, lo := lo.1, valid := true }
  let b1 := m.2.setBslot a x2
  let b2 := { b1 with bas.deadlines :=
    if c.staleTicks ≠ 0 then mapPut a ((T + c.staleTicks) % 2 ^ 32) b1.bas.deadlines else mapDel a b1.bas.deadlines }
  b2.basinEvents tm t s x2 c evs

/-- A committed write (R291, R296): counted and ignored with a bad record or on a forced slot, counted as superseded
where it is older than the slot. -/
def Body.basinWrite (b : Body) (tm : Time) (t s value q time : Nat) : Body :=
  let a := b.slotAbs t s
  let x := b.bslot a
  match b.basinCfg t x.cfg with
  | none => b.bump clsBasin 0 FBasin.cfgBad 1
  | some c =>
    if x.forced then b.bump clsBasin 0 FBasin.forcedIgnored 1
    else
      let (ts, b1) := b.tickOf tm time
      let first := !x.valid || b1.bas.reseed.contains a
      let d := tickDiff ts.1 x.tick
      if !first && (decide (d < 0) || (decide (d = 0) && decide (ts.2 < x.sub))) then
        b1.bump clsBasin 0 FBasin.superseded 1
      else
        let b2 := { b1 with bas.reseed := b1.bas.reseed.filter (fun k => decide (k ≠ a)) }
        if c.mode = 2 then
          b2.setBslot a { x with value := value % 1024, quality := q, tick := ts.1, sub := ts.2, valid := true }
        else b2.writeSignal tm t s a x c first value q ts.1 ts.2

/-- The reply of a BATOM or BRD is ready (R299). -/
def Body.basinReply (b : Body) (h num : Nat) (ws : List Word) : Body :=
  b.modHart h (fun x => { x with reqs := x.reqs.map (fun r => if r.num = num then { r with reply := some ws } else r) })

/-- A BATOM (R195, R299): performed on word 2 of a user slot, every other one refused; the old value of the word named is
the reply. -/
def Body.basinAtom (b : Body) (t s h num minor word : Nat) (val cmp : Word) : Body :=
  if b.slotShare ≤ s then (b.bump clsBasin 0 FBasin.batomRefused 1).basinReply h num [0]
  else
    let a := b.slotAbs t s
    let x := b.bslot a
    let old : Word := BitVec.ofNat 32 (x.words.getD word 0)
    let b1 := match b.basinCfg t x.cfg with
      | none => (b.bump clsBasin 0 FBasin.cfgBad 1).bump clsBasin 0 FBasin.batomRefused 1
      | some c =>
        if c.mode = 2 ∧ word = 2 then
          let new := if minor = 0 then old + val else if minor = 1 then val else if old = cmp then val else old
          b.setBslot a { x with filter := new.toNat }
        else b.bump clsBasin 0 FBasin.batomRefused 1
    b1.basinReply h num [old]

/-- A BRD (R299): the four words of the slot. -/
def Body.basinRead (b : Body) (t s h num : Nat) : Body :=
  if b.slotShare ≤ s then (b.bump clsBasin 0 FBasin.batomRefused 1).basinReply h num [0, 0, 0, 0]
  else b.basinReply h num ((b.bslot (b.slotAbs t s)).words.map (BitVec.ofNat 32))

/-- A force (R300). -/
def Body.basinForce (b : Body) (tm : Time) (t s value q time : Nat) : Body :=
  let a := b.slotAbs t s
  let x := b.bslot a
  let (ts, b1) := b.tickOf tm time
  let x1 := { x with value := value, quality := q, valid := true, forced := true, tick := ts.1, sub := ts.2, ref := value }
  let m := match b1.basinCfg t x.cfg with
    | some c => if c.mode = 2 then (x1, b1) else b1.markPending a x1 c
    | none => (x1, b1)
  ({ m.2 with bas.reseed := m.2.bas.reseed.filter (fun k => decide (k ≠ a)) }).setBslot a m.1

/-- An unforce (R300): the next applied write is judged as a first write. -/
def Body.basinUnforce (b : Body) (t s : Nat) : Body :=
  let a := b.slotAbs t s
  let x := b.bslot a
  if x.forced then
    { b.setBslot a { x with forced := false } with bas.reseed := a :: b.bas.reseed.filter (fun k => decide (k ≠ a)) }
  else b

/-- A write of CFG_INDEX (R292): the slot is seeded afresh, with no event. -/
def Body.basinCfgWrite (b : Body) (t s i : Nat) : Body :=
  let a := b.slotAbs t s
  let b1 := b.setBslot a
    { b.bslot a with cfg := i, valid := false, hi := false, lo := false, stale := false, pending := false }
  { b1 with
    bas.pend := b1.bas.pend.filter (fun k => decide (k ≠ a))
    bas.deadlines := mapDel a b1.bas.deadlines }

/-- Whether an entry consults the configuration record of its slot. -/
def Body.consults (b : Body) (e : BasinEntry) : Bool :=
  decide (e.slot < b.slotShare) && (match e.op with
    | .write _ _ _ | .batom _ _ _ _ _ _ | .force _ _ _ => true
    | _ => false)
def Body.entryCfg (b : Body) (e : BasinEntry) : Nat := (b.bslot (b.slotAbs e.tent e.slot)).cfg

/-- One entry is applied. -/
def Body.basinApply (b : Body) (tm : Time) (e : BasinEntry) : Body :=
  let b0 := if b.consults e then b.cfgRead e.tent (b.entryCfg e) else b
  let b1 := b0.bump clsBasin 0 FBasin.applied 1
  match e.op with
  | .write v q time => b1.basinWrite tm e.tent e.slot v q time
  | .batom h num minor word val cmp => b1.basinAtom e.tent e.slot h num minor word val cmp
  | .brd h num => b1.basinRead e.tent e.slot h num
  | .force v q time => b1.basinForce tm e.tent e.slot v q time
  | .unforce => b1.basinUnforce e.tent e.slot
  | .cfg i => b1.basinCfgWrite e.tent e.slot i

/-! The input queue (R294, R295). -/

/-- Entries that the queue holds at most, the spill included. -/
def Body.basinCap (b : Body) : Nat := basinOnchip + b.fget clsBasin 0 FBasin.spillMib * 2 ^ 20 / 32

/-- Whether the queue has room for `n` entries once every operation that waits has entered. -/
def Body.basinRoom (b : Body) (n : Nat) : Bool := decide (b.bas.queue.length + b.bas.waiting.length + n ≤ b.basinCap)

/-- The order of entries of one cycle (R294): releases, threads in rising number, object writes. -/
def BasinEntry.before (e x : BasinEntry) : Bool := decide (e.cyc = x.cyc) && decide (e.rank < x.rank)

/-- Entries that the spill holds at most, and the DRAM address of its `k`th entry: a ring in queue order (R295). -/
def Body.spillCap (b : Body) : Nat := b.fget clsBasin 0 FBasin.spillMib * 2 ^ 20 / 32
def Body.spillAddr (b : Body) (k : Nat) : Nat := b.fget clsBasin 0 FBasin.spillBase + 32 * (k % b.spillCap)
def Body.spilledNow (b : Body) : Nat := b.bas.queue.length - basinOnchip

/-- An entry goes to the spill: 32 bytes whose layout the spec does not give (assumption log 134), charged to its tent
(R314). -/
def Body.spillEntry (b : Body) (t : Nat) : Body :=
  let b1 := if b.chargeFits (.frame t) 32 then b else b.bump clsPool (0x200 + t) FPoolTent.forcedOver 1
  let b2 := b1.fresh.2.dramWrite 2 0 (b.spillAddr b.bas.spillNext) (leBytes 32 b1.fresh.1)
  { b2 with bas.spillNext := b2.bas.spillNext + 1 }

/-- An entry joins the queue, past what the chip holds by way of the spill. -/
def Body.basinEnter (b : Body) (e : BasinEntry) : Body :=
  let b1 := if basinOnchip ≤ b.bas.queue.length then b.spillEntry e.tent else b
  let b2 := { b1 with bas.queue := insertBy BasinEntry.before e b1.bas.queue }
  b2.raise clsBasin 0 FBasin.queueHigh b2.bas.queue.length

/-- A BATOM or BRD of thread `h` reaches the Basin's input: it enters, or waits for room. -/
def Body.basinAsk (b : Body) (h t s : Nat) (op : BasinOp) : Body :=
  let e : BasinEntry := ⟨b.clock, 1 + h, t, s, op⟩
  if b.basinRoom 1 then b.basinEnter e else { b with bas.waiting := insertBy BasinEntry.before e b.bas.waiting }

/-- Room that frees goes to the operations that wait, in order. -/
def Body.basinAdmit (b : Body) : Body :=
  let n := b.basinCap - b.bas.queue.length
  (b.bas.waiting.take n).foldl (fun (x : Body) e => x.basinEnter e) { b with bas.waiting := b.bas.waiting.drop n }

/-- The oldest spilled entry comes back on chip as an entry leaves the queue. -/
def Body.refillRead (b : Body) : Body :=
  if basinOnchip < b.bas.queue.length then b.dramPost 2 0 (b.spillAddr (b.bas.spillNext - b.spilledNow)) 32 false else b

/-- Whether applying the first `n` entries needs a frozen channel (R346). -/
def Body.basinHeld (b : Body) (n : Nat) : Bool :=
  b.anyFrozen && ((b.bas.queue.take n).any (fun e => b.consults e && b.cfgHeld e.tent (b.entryCfg e)) ||
    decide (basinOnchip < b.bas.queue.length ∧ 0 < n) && b.dramHeld (b.spillAddr (b.bas.spillNext - b.spilledNow)) (32 * min n b.spilledNow))

/-- The first `n` entries are applied. -/
def Body.applyEntries (b : Body) (tm : Time) : Nat → Body
  | 0 => b
  | n + 1 =>
    match b.bas.queue with
    | e :: r => (({ b.refillRead with bas.queue := r }).basinApply tm e).applyEntries tm n
    | [] => b

/-! The cut (R298, R301, R303). -/

/-- Step 2: the signal slots whose deadline has come, in rising order of slots (assumption log 21). -/
def Body.staleSlots (b : Body) (tick : Nat) : List (Nat × BasinCfg) :=
  b.bas.deadlines.filterMap (fun e =>
    let x := b.bslot e.1
    match b.basinCfg (tentOf b.nLogN 1048576 e.1) x.cfg with
    | some c => if 0 ≤ tickDiff tick e.2 ∧ x.valid ∧ ¬ x.forced ∧ c.mode ≠ 2 then some (e.1, c) else none
    | none => none)

def Body.markStale (b : Body) (tm : Time) (a : Nat) (c : BasinCfg) : Body :=
  let x := { b.bslot a with stale := true }
  let b0 := b.cfgRead (tentOf b.nLogN 1048576 a) x.cfg
  let b1 := { b0.setBslot a x with bas.deadlines := mapDel a b0.bas.deadlines }
  b1.basinEvents tm (tentOf b.nLogN 1048576 a) (a % b.slotShare) x c [4]

/-- Step 3: the history record of a pending slot. -/
def Body.writeHistory (b : Body) (a : Nat) : Body :=
  let x := { b.bslot a with pending := false }
  let t := tentOf b.nLogN 1048576 a
  let b1 := (b.cfgRead t x.cfg).setBslot a x
  match b1.basinCfg t x.cfg with
  | some c => if c.histRing = 0 then b1 else b1.ringPut t c.histRing (ringRecord (a % b1.slotShare) x 0 x.tick)
  | none => b1

/-- A snapshot record (Table 11.7). -/
def snapRecord (off tick : Nat) (x : BSlot) : List Byte :=
  let age := tickDiff tick x.tick
  beBytes 2 off ++ beBytes 2 (x.value * 64 + x.quality) ++ beBytes 1 x.flags ++
    beBytes 1 (if age < 0 then 0 else min age.toNat 255) ++ beBytes 2 x.sub

/-- The offsets of a list's slots: those of its own tent, which a list kept across a re-pitch may reach beyond. -/
def Body.listSlots (b : Body) (l : SnapList) : List Nat :=
  (List.range l.span).filter (fun k => decide (l.first + k < b.slotShare))

/-- A snapshot reads the configuration record of every slot of its list (R292). -/
def Body.readMembers (b : Body) (l : SnapList) : Body :=
  (b.listSlots l).foldl (fun (x : Body) k => x.cfgRead l.tent (x.bslot (x.slotAbs l.tent (l.first + k))).cfg) b

/-- The records of a list's members, in increasing slot number. -/
def Body.members (b : Body) (l : SnapList) (tick : Nat) : List (List Byte) :=
  (b.listSlots l).filterMap (fun k =>
    let x := b.bslot (b.slotAbs l.tent (l.first + k))
    let g := match b.basinCfg l.tent x.cfg with
      | some c => c.group
      | none => 0
    if l.groupMask.testBit g then some (snapRecord k tick x) else none)

/-- The frames of an emission (R303), and the members that each holds. -/
def snapFrames (l : SnapList) (tick boundary : Nat) (recs : List (List Byte)) : List (Nat × List Byte) :=
  let n := max 1 (ceilDiv recs.length l.seg)
  (List.range n).map (fun i =>
    let part := (recs.drop (i * l.seg)).take l.seg
    (part.length,
     padTo 60 (l.template ++ [1] ++ beBytes 1 l.tent ++ beBytes 2 l.num ++ beBytes 4 tick ++ beBytes 8 boundary ++
       beBytes 2 i ++ beBytes 2 n ++ beBytes 2 part.length ++ [0, 0] ++ beBytes 4 l.first ++ part.flatten)))

/-- The lists due at a tick, as they stand. -/
def Body.dueLists (b : Body) (tick : Nat) : List SnapList :=
  let on := (b.fields.filter (fun e => decide (e.1 / 2 ^ 40 = clsBasin ∧ 0x10000 ≤ e.1 / 2 ^ 16 % 2 ^ 24 ∧
    e.1 / 2 ^ 16 % 2 ^ 24 < 0x11000 ∧ e.1 % 2 ^ 16 = FList.enable.lo ∧ e.2 = 1))).map (fun e => e.1 / 2 ^ 16 % 2 ^ 24)
  (on.filter (fun i => tick % b.fget clsBasin i FList.period == b.fget clsBasin i FList.phase)).map (fun i =>
    let g := fun f => b.fget clsBasin i f
    ⟨i - 0x10000, tentOf b.nLogN 4096 (i - 0x10000), g FList.groupMask, g FList.firstSlot, g FList.span, g FList.port,
     g FList.cls, g FList.furrow, g FList.segRecords, (leBytes 22 (g FList.template)).take (g FList.templateLen)⟩)

/-- The emissions of the lists due, with the cycles of their frames from the start of step 4. -/
def Body.emissionsOf (b : Body) (c : Cut) : Nat → List SnapList → List Emission × Nat
  | start, [] => ([], start)
  | start, l :: r =>
    let fs := snapFrames l c.tick c.boundary (b.members l c.tick)
    let paced := fs.foldl (fun (p : List (Nat × List Byte) × Nat) f =>
      (p.1 ++ [(start + ceilDiv (p.2 + f.1) 4, f.2)], p.2 + f.1)) ([], 0)
    let rest := b.emissionsOf c (start + ceilDiv paced.2 4) r
    (⟨l, c.tick, c.boundary, paced.1⟩ :: rest.1, rest.2)

/-- Slots and lists that `p` names take their reset values. -/
def Body.resetBasin (b : Body) (p : Nat → Nat → Bool) : Body :=
  let b1 := b.resetWhere (fun c i => c == clsBasin && decide (0x10000 ≤ i) && p c i)
  let keep := fun (a : Nat) => !p clsBasin (slotInst a)
  { b1 with
    bas.pend := b1.bas.pend.filter keep
    bas.deadlines := b1.bas.deadlines.filter (fun e => keep e.1)
    bas.reseed := b1.bas.reseed.filter keep }

/-- Slots and lists whose owner changes are reset once the cut of a re-pitch boundary ends (R395). -/
def Body.cutPitch (b : Body) : Body :=
  if b.bas.cutBefore = b.bas.cutAfter then b
  else
    { b.resetBasin (pitchChanges b.bas.cutBefore.val b.bas.cutAfter.val) with bas.cutBefore := b.bas.cutAfter }

/-- Steps 1 to 3 of a cut, and the start of step 4, with N as it stood before the boundary. -/
def Body.cutSteps (b : Body) (tm : Time) (c : Cut) : Body :=
  let start := max tm.cycle b.bas.ends
  let b1 := (b.applyEntries tm c.entries).basinAdmit
  let st := b1.staleSlots c.tick
  let b2 := st.foldl (fun (x : Body) e => x.markStale tm e.1 e.2) b1
  let hs := b2.bas.pend
  let b3 := hs.foldl (fun (x : Body) a => x.writeHistory a) { b2 with bas.pend := [] }
  let at4 := start + ceilDiv c.entries 4 + 1 + ceilDiv st.length 4 + ceilDiv hs.length 4
  let em := b3.emissionsOf c at4 c.due
  { c.due.foldl (fun (x : Body) l => x.readMembers l) b3 with
    bas.emissions := em.1, bas.cutCycle := c.cycle, bas.ends := em.2, bas.cutBefore := c.before
    bas.cutAfter := c.after }

/-- Whether a cut needs a frozen channel: for the entries that it applies, for the configuration records of the slots that
it judges, and for those of its lists' members (R346). -/
def Body.cutHeld (b : Body) (c : Cut) : Bool :=
  let x : Body := { b with sys.nLog := c.before }
  let slotHeld := fun a => x.cfgHeld (tentOf x.nLogN 1048576 a) (x.bslot a).cfg
  x.anyFrozen && (x.basinHeld c.entries || x.bas.deadlines.any (fun e => slotHeld e.1) || x.bas.pend.any slotHeld ||
    c.due.any (fun l => (x.listSlots l).any (fun k => slotHeld (x.slotAbs l.tent (l.first + k)))))

/-- A cut runs; one that sends nothing has ended. -/
def Body.runCut (b : Body) (tm : Time) (c : Cut) : Body :=
  let b1 : Body := { ({ b with sys.nLog := c.before } : Body).cutSteps tm c with sys := b.sys }
  if b1.bas.emissions = [] then (b1.fset clsBasin 0 FBasin.cutLag (b1.bas.ends - c.cycle)).cutPitch else b1

/-- The cuts that wait run one after the other, up to one that sends frames or needs a frozen channel (R298). -/
def Body.nextCuts (b : Body) (tm : Time) : Nat → Body
  | 0 => b
  | n + 1 =>
    match b.bas.emissions, b.bas.cuts with
    | [], c :: r => if b.cutHeld c then b else (({ b with bas.cuts := r }).runCut tm c).nextCuts tm n
    | _, _ => b
def Body.goCuts (b : Body) (tm : Time) : Body := b.nextCuts tm b.bas.cuts.length

/-- The cut in progress has ended: CUT_LAG, and the cuts that follow it at once. -/
def Body.cutEnds (b : Body) (tm : Time) : Body :=
  if b.bas.emissions = [] then
    let ends := max tm.cycle b.bas.ends
    { b.fset clsBasin 0 FBasin.cutLag (ends - b.bas.cutCycle) with bas.ends := ends }.cutPitch.goCuts tm
  else b

/-- A list due again abandons what is left of its previous emission. -/
def Body.overrun (b : Body) (l : Nat) : Body :=
  (b.bump clsBasin (listInst l) FList.overrun 1).bump clsBasin 0 FBasin.snapOverrun 1

/-- The lists due at a tick, by N as it stood before the boundary. -/
def Body.dueBefore (b : Body) (n : Fin 7) (tick : Nat) : List SnapList :=
  ({ b with sys.nLog := n } : Body).dueLists tick

/-- What the lists due again were still to send is abandoned; `true` where there was something. -/
def Body.abandonLists (b : Body) (due : List SnapList) : Bool × Body :=
  let again := fun (l : SnapList) => due.any (fun d => d.num == l.num)
  let lost := (b.bas.emissions.filter (fun e => again e.list)).map (fun e => e.list.num) ++
    b.bas.cuts.flatMap (fun c => (c.due.filter again).map (fun l => l.num))
  let b1 := { b with
    bas.emissions := b.bas.emissions.filter (fun e => !again e.list)
    bas.cuts := b.bas.cuts.map (fun c => { c with due := c.due.filter (fun l => !again l) }) }
  (lost ≠ [], lost.foldl (fun (x : Body) l => x.overrun l) b1)

/-- BASIN_CUT (R298): the cut of the boundary that has just been made; `before` is log2 N before it. Where no cut runs,
what a re-pitch resets is reset at once. -/
def Body.basinCut (b : Body) (tm : Time) (before : Fin 7) : Body :=
  if b.runs then
    let due := b.dueBefore before tm.tickNumber
    let r := b.abandonLists due
    let b2 := r.2
    let ahead := (b2.bas.cuts.map (fun c => c.entries)).sum
    let entered := b2.bas.queue.countP (fun e => decide (e.cyc < tm.cycle))
    let c : Cut := ⟨tm.tickNumber, tm.boundary, tm.cycle, entered - ahead, due, before, b2.sys.nLog⟩
    let b3 := { b2 with bas.cuts := b2.bas.cuts ++ [c] }
    if b.bas.emissions ≠ [] then b3.cutEnds tm else b3.goCuts tm
  else b.resetBasin (pitchChanges before.val b.sys.nLog.val)

/-- BASIN_APPLY (R294, R296): the next entry of the input queue is applied, from the cycle after its own; entries wait until
step 4 of a cut ends, and a cut that a frozen channel held goes first. -/
def execBasinApply (s : State) : Host.Outcome State Fault Refusal :=
  onDev (fun d =>
    if d.b.bas.emissions = [] ∧ d.b.bas.cuts ≠ [] then { d with b := (d.b.goCuts d.tm).settle d.tm }
    else if d.b.bas.emissions = [] ∧ ¬ d.b.basinHeld 1 then
      match d.b.bas.queue with
      | e :: _ =>
        let d1 := d.waitCycle (max d.b.bas.ends (e.cyc + 1))
        { d1 with b := ((d1.b.applyEntries d1.tm 1).basinAdmit).settle d1.tm }
      | [] => d
    else d) s

/-- The descriptor of a snapshot frame (R301). -/
def snapDesc (e : Emission) (h len : Nat) : Desc :=
  ⟨h, len, 67, e.list.furrow, 0, e.list.tent, 0, 0, 0, 0, e.boundary, e.list.num % 4096⟩

/-- The next frame of an emission is enqueued; `none` while no buffer is free. -/
def Body.emitFrame (b : Body) (e : Emission) (data : List Byte) : Option Body :=
  match b.takeForced e.list.tent (data.length + 4) data with
  | some (h, b1) =>
    let f : EgFrame := ⟨0, h, data.length + 4, snapDesc e h (data.length + 4), 0, false,
      e.list.port * 2 ^ 48 + e.list.cls * 2 ^ 56, none, false, none, .none, false, false⟩
    some ((b1.egEnqueue f).bump clsBasin 0 FBasin.snapFrames 1)
  | none => none

/-- SNAPSHOT_FRAME (R301): the Basin takes a buffer for the next segment of the emission in turn and enqueues the
frame; without a free buffer it waits. -/
def execSnapshotFrame (s : State) : Host.Outcome State Fault Refusal :=
  onDev (fun d =>
    match d.b.bas.emissions with
    | e :: rest =>
      match e.frames with
      | (c, data) :: fs =>
        let d1 := d.waitCycle c
        match d1.b.emitFrame e data with
        | some b1 =>
          let b2 :=
            if fs = [] then
              (({ b1 with bas.emissions := rest }).bump clsBasin (listInst e.list.num) FList.emitted 1).fset clsBasin
                (listInst e.list.num) FList.lastTick e.tick
            else { b1 with bas.emissions := { e with frames := fs } :: rest }
          { d1 with b := (b2.cutEnds d1.tm).settle d1.tm }
        | none => d1
      | [] => d
    | [] => d) s

/-! Object writes that enter the queue (R292, R294, R300). -/

/-- The tent and tent-relative number of an absolute slot. -/
def Body.slotTent (b : Body) (a : Nat) : Nat := tentOf b.nLogN 1048576 a
def Body.slotRel (b : Body) (a : Nat) : Nat := a % b.slotShare

/-- An object write enters an operation on slot `a`: BUSY while the queue is full. -/
def Body.basinObject (b : Body) (a : Nat) (op : BasinOp) : Nat × Body :=
  if b.basinRoom 1 then (stOk, b.basinEnter ⟨b.clock, 2000, b.slotTent a, b.slotRel a, op⟩) else (stBusy, b)

/-- A force of the slot's FORCE_VALUE and FORCE_QUALITY. -/
def Body.forceOp (b : Body) (tm : Time) (a : Nat) : BasinOp :=
  .force (b.fget clsBasin (slotInst a) FForce.forceValue) (b.fget clsBasin (slotInst a) FForce.forceQuality) tm.now

/-- A thaw (R347), after which the Basin's cuts that waited for the channel go on. -/
def Body.thaw (b : Body) (tm : Time) (c : Nat) (retryFails : Option FreezeInfo) : Nat × Body :=
  let r := b.thawChannel tm c retryFails
  (r.1, if r.1 = stOk then r.2.goCuts tm else r.2)

end Sys2Proof.Machine
end

