-- ==== Sys2Proof/Machine/Tables.lean ====
section
/-! DEFINITION. The table engine: where entries live, hashing, lookup, insertion, prefixes, learning
(spec/10, R256 to R284). The commands over requests are in Machine/TableCmds.lean. -/

namespace Sys2Proof.Machine

/-- The storage of an instance: in DRAM, in single lines or in pairs of lines; whether it is an index table or holds
prefixes (`len` in the second line of IPv6); first line or byte, entries, entries per bucket, seeds. -/
structure Geo where
  dram : Bool
  wide : Bool
  index : Bool
  pfx : Bool
  base : Nat
  entries : Nat
  slots : Nat
  seed0 : Nat
  seed1 : Nat
  deriving DecidableEq, Repr

/-- An entry: key, prefix length of an IPv6 prefix, result. -/
structure Ent where
  key : Nat
  len : Nat
  res : Nat
  deriving DecidableEq, Repr

/-- The storage of a TABLE instance by its kind (Table 10.1, R259). -/
def Body.tableGeo (b : Body) (n : Nat) : Geo :=
  let k := b.fget clsTable n FTable.kind
  let z := 2 ^ b.fget clsTable n FTable.sizeLog2
  { dram := k == 2, wide := k == 1, index := k == 3, pfx := false, base := b.fget clsTable n FTable.base
    entries := if k = 1 then z / 2 else z, slots := if k = 1 ∨ k = 2 then 2 else 4
    seed0 := b.fget clsTable n FTable.seed0, seed1 := b.fget clsTable n FTable.seed1 }

/-- The bucket array of a PREFIX instance (R281). -/
def Body.prefixGeo (b : Body) (n : Nat) : Geo :=
  let v6 := b.fget clsPrefix n FPrefix.family == 1
  let z := 2 ^ b.fget clsPrefix n FPrefix.sizeLog2
  { dram := false, wide := v6, index := false, pfx := true, base := b.fget clsPrefix n FPrefix.base
    entries := if v6 then z / 2 else z, slots := if v6 then 2 else 4
    seed0 := b.fget clsPrefix n FPrefix.seed0, seed1 := b.fget clsPrefix n FPrefix.seed1 }

def Body.geo (b : Body) (pfx : Bool) (n : Nat) : Geo := if pfx then b.prefixGeo n else b.tableGeo n

/-! Lines and entries. -/

def Body.line? (b : Body) (n : Nat) : Option Line := mapFind n b.tab.lines
def Body.setLine (b : Body) (n v : Nat) : Body := { b with tab.lines := mapPut n ⟨v, false⟩ b.tab.lines }
def Body.delLine (b : Body) (n : Nat) : Body := { b with tab.lines := mapDel n b.tab.lines }

/-- The data of a valid line without a double-bit error (R274). -/
def Body.lineData (b : Body) (n : Nat) : Option Nat := (b.line? n).bind (fun l => if l.bad then none else some l.data)

/-- The entry at a position, `none` where it is free. -/
def Body.entAt (b : Body) (g : Geo) (p : Nat) : Option Ent :=
  if g.dram then
    let l := b.dramBytes (g.base + 32 * p) 32
    if (l.getD 24 0).toNat % 2 = 1 then some ⟨leNat (l.take 16), 0, leNat ((l.drop 16).take 8)⟩ else none
  else if g.wide then
    match b.lineData (g.base + 2 * p), b.lineData (g.base + 2 * p + 1) with
    | some k, some r => some ⟨k, if g.pfx then bitsAt r 64 8 else 0, r % 2 ^ 64⟩
    | _, _ => none
  else
    match b.lineData (g.base + p) with
    | some d => some ⟨if g.index then 0 else d / 2 ^ 64 * 2 ^ 64, 0, d % 2 ^ 64⟩
    | none => none

/-- A position takes an entry or becomes free. -/
def Body.setEnt (b : Body) (g : Geo) (p : Nat) (e : Option Ent) : Body :=
  if g.dram then
    b.dramWrite 1 0 (g.base + 32 * p) (match e with
      | some x => leBytes 16 x.key ++ leBytes 8 x.res ++ (1 :: List.replicate 7 0)
      | none => List.replicate 32 0)
  else if g.wide then
    match e with
    | some x => (b.setLine (g.base + 2 * p) x.key).setLine (g.base + 2 * p + 1) (x.res + x.len * 2 ^ 64)
    | none => (b.delLine (g.base + 2 * p)).delLine (g.base + 2 * p + 1)
  else
    match e with
    | some x => b.setLine (g.base + p) (if g.index then x.res else x.key / 2 ^ 64 * 2 ^ 64 + x.res)
    | none => b.delLine (g.base + p)

/-! Hashing (R260, R281). -/

/-- The length that enters the seeds of a prefix. -/
def Ent.length (g : Geo) (e : Ent) : Nat := if g.pfx then (if g.wide then e.len else bitsAt e.key 64 8) else 0

def Geo.hash (g : Geo) (j : Nat) (e : Ent) : Nat :=
  crc32c (((if j = 0 then g.seed0 else g.seed1) + e.length g) % 2 ^ 32) (beBytes 16 e.key)

/-- The candidate bucket `j` of an entry's key. -/
def Geo.bucket (g : Geo) (j : Nat) (e : Ent) : Nat := g.hash j e % (g.entries / g.slots)

/-- The positions of a bucket, and those of both candidate buckets in order. -/
def Geo.slotsOf (g : Geo) (k : Nat) : List Nat := (List.range g.slots).map (fun i => k * g.slots + i)
def Geo.candidates (g : Geo) (e : Ent) : List Nat :=
  if g.bucket 0 e = g.bucket 1 e then g.slotsOf (g.bucket 0 e)
  else g.slotsOf (g.bucket 0 e) ++ g.slotsOf (g.bucket 1 e)

/-- Whether two entries have one key. -/
def Ent.same (e x : Ent) : Bool := e.key == x.key && e.len == x.len

/-- The position that stores a key (R261). -/
def Body.findEnt (b : Body) (g : Geo) (e : Ent) : Option Nat :=
  (g.candidates e).find? (fun p => match b.entAt g p with
    | some x => x.same e
    | none => false)

/-- A kind 2 lookup or update reads both candidate buckets at once (R337, Table 13.3). -/
def Body.readBuckets (b : Body) (g : Geo) (e : Ent) : Body :=
  let x := b.dramPost 1 0 (g.base + 64 * g.bucket 0 e) 64 false
  if g.bucket 0 e = g.bucket 1 e then x else x.dramPost 1 0 (g.base + 64 * g.bucket 1 e) 64 false

/-- Whether a lookup of the key needs a frozen channel (R259). -/
def Body.tableHeld (b : Body) (g : Geo) (ps : List Nat) : Bool :=
  g.dram && ps.any (fun p => b.dramHeld (g.base + 32 * p) 32)

/-! Insertion (R264). -/

/-- The private copy of the plan: changed positions, latest first, over the table. -/
def planAt (b : Body) (g : Geo) (o : List (Nat × Ent)) (p : Nat) : Option Ent :=
  match mapFind p o with
  | some e => some e
  | none => b.entAt g p

/-- The lowest free slot of a bucket in the plan. -/
def planFree (b : Body) (g : Geo) (o : List (Nat × Ent)) (k : Nat) : Option Nat :=
  (g.slotsOf k).find? (fun p => (planAt b g o p).isNone)

/-- The relocation loop: the changed positions and the number of moves, `none` past 32 moves. -/
def planMoves (b : Body) (g : Geo) : Nat → List (Nat × Ent) → Ent → Nat → Nat → Option (List (Nat × Ent) × Nat)
  | 0, _, _, _, _ => none
  | n + 1, o, x, k, moves =>
    let p := k * g.slots + (g.hash 0 x / 2 ^ 24 + moves) % g.slots
    match planAt b g o p with
    | some y =>
      let o1 := (p, x) :: o
      let a := if g.bucket 0 y = k then g.bucket 1 y else g.bucket 0 y
      match planFree b g o1 a with
      | some q => some ((q, y) :: o1, moves + 1)
      | none => planMoves b g n o1 y a (moves + 1)
    | none => some ((p, x) :: o, moves)

/-- The buckets that the relocation loop of R264 reads beyond the candidate buckets. -/
def planVisits (b : Body) (g : Geo) : Nat → List (Nat × Ent) → Ent → Nat → Nat → List Nat
  | 0, _, _, _, _ => []
  | n + 1, o, x, k, moves =>
    let p := k * g.slots + (g.hash 0 x / 2 ^ 24 + moves) % g.slots
    match planAt b g o p with
    | some y =>
      let o1 := (p, x) :: o
      let a := if g.bucket 0 y = k then g.bucket 1 y else g.bucket 0 y
      match planFree b g o1 a with
      | some _ => [a]
      | none => a :: planVisits b g n o1 y a (moves + 1)
    | none => []

/-- The buckets of the relocation, for a key whose candidate buckets are full of other keys. -/
def Body.relocations (b : Body) (g : Geo) (e : Ent) : List Nat :=
  if (b.findEnt g e).isNone && (planFree b g [] (g.bucket 0 e)).isNone && (planFree b g [] (g.bucket 1 e)).isNone then
    planVisits b g 32 [] e (g.bucket 0 e) 0 else []

/-- The positions that an insertion of a key reads or writes: its candidate buckets, and where they are full of other
keys the buckets of the relocation (R259, R264). -/
def Body.insertReads (b : Body) (g : Geo) (e : Ent) : List Nat :=
  g.candidates e ++ (b.relocations g e).flatMap g.slotsOf

/-- The final content of each changed position, latest-changed first. -/
def finalPlan : List (Nat × Ent) → List (Nat × Ent)
  | [] => []
  | e :: r => e :: (finalPlan r).filter (fun x => decide (x.1 ≠ e.1))

/-- What R264 does for a key that is absent: the positions to write and the moves, `none` for TABLE_FULL. -/
def Body.planInsert (b : Body) (g : Geo) (e : Ent) : Option (List (Nat × Ent) × Nat) :=
  match planFree b g [] (g.bucket 0 e) with
  | some p => some ([(p, e)], 0)
  | none => match planFree b g [] (g.bucket 1 e) with
    | some p => some ([(p, e)], 0)
    | none => (planMoves b g 32 [] e (g.bucket 0 e) 0).map (fun r => (finalPlan r.1, r.2))

/-- The writes of a plan. -/
def Body.writePlan (b : Body) (g : Geo) (l : List (Nat × Ent)) : Body :=
  l.foldl (fun x w => x.setEnt g w.1 (some w.2)) b

/-! Lookups by Intake's stages (R97, R261 to R263, R283). -/

def Body.tableOn (b : Body) (n : Nat) : Bool := b.fget clsTable n FTable.enable == 1
def Body.tableClearing (b : Body) (n : Nat) : Bool := b.fget clsTable n FTable.clearing == 1
def Body.prefixOn (b : Body) (n : Nat) : Bool := decide (n < 256) && b.fget clsPrefix n FPrefix.enable == 1
def Body.prefixClearing (b : Body) (n : Nat) : Bool := b.fget clsPrefix n FPrefix.clearing == 1

/-- The result of a key in a hashed TABLE instance; a narrow table misses a key with low bits (R258). -/
def Body.exactLookup (b : Body) (n key : Nat) : Option Nat :=
  let g := b.tableGeo n
  if b.tableClearing n || (!g.dram && !g.wide && decide (key % 2 ^ 64 ≠ 0)) then none
  else ((b.findEnt g ⟨key, 0, 0⟩).bind (b.entAt g)).map (fun e => e.res)

/-- The result of an index (R262). -/
def Body.indexLookup (b : Body) (n i : Nat) : Option Nat :=
  let g := b.tableGeo n
  if b.tableClearing n || decide (g.entries ≤ i) then none else (b.entAt g i).map (fun e => e.res)

/-- A filter line (Table 10.10); a line never written is empty. -/
def emptyFilter : Nat := ((List.range 8).map (fun k => 0x7F * 2 ^ (72 + 7 * k))).sum
def Body.filterLine (b : Body) (n v : Nat) : Nat :=
  (b.lineData (b.fget clsPrefix n FPrefix.filterBase + v)).getD emptyFilter
def filterCodes (f : Nat) : List Nat := (List.range 8).map (fun k => bitsAt f (72 + 7 * k) 7)

/-- An address masked to `l` bits, and the stored entry of a prefix of it. -/
def maskTo (a l : Nat) : Nat := a / 2 ^ (128 - l) * 2 ^ (128 - l)
def prefixEnt (v6 : Bool) (a l : Nat) : Ent :=
  if v6 then ⟨maskTo a l, l, 0⟩ else ⟨maskTo a l + l * 2 ^ 64, 0, 0⟩

/-- The longest prefix that covers an address: result and length (R283). -/
def Body.prefixLookup (b : Body) (n a0 : Nat) : Option (Nat × Nat) :=
  let v6 := b.fget clsPrefix n FPrefix.family == 1
  let a := if v6 then a0 else a0 / 2 ^ 96 * 2 ^ 96
  if b.prefixClearing n then none
  else
    let g := b.prefixGeo n
    let f := b.filterLine n (a / 2 ^ 112)
    match (filterCodes f).findSome? (fun c =>
        if c = 0x7F then none
        else ((b.findEnt g (prefixEnt v6 a (17 + c))).bind (b.entAt g)).map (fun e => (e.res, 17 + c))) with
    | some r => some r
    | none => if f.testBit 69 then some (f % 2 ^ 64, bitsAt f 64 5) else none

/-! Learn counts (R277, R280). -/

/-- COUNT of a port changes. -/
def Body.learnUp (b : Body) (p : Nat) : Body := b.bump clsLearn (1 + p) FLearnPort.count 1
def Body.learnDown (b : Body) (p : Nat) : Body := b.drop clsLearn (1 + p) FLearnPort.count 1

/-- Fields of a learn result (Table 10.6). -/
def learnRes (port : Nat) (static : Bool) (tick seen : Nat) : Nat :=
  port % 128 + (if static then 128 else 0) + tick % 2 ^ 32 * 2 ^ 8 + seen % 2 ^ 24 * 2 ^ 40
def resPort (r : Nat) : Nat := r % 128
def resStatic (r : Nat) : Bool := r.testBit 7
def resTick (r : Nat) : Nat := bitsAt r 8 32
def resSeen (r : Nat) : Nat := bitsAt r 40 24

/-- SEEN of a tick number. -/
def seenOf (t : Nat) : Nat := bitsAt t 4 24

/-- The removed entry of a learn table no longer counts for its port, if it was dynamic. -/
def Body.uncount (b : Body) (learn : Bool) (e : Ent) : Body :=
  if learn && !resStatic e.res then b.learnDown (resPort e.res) else b

/-! Requests (R266, R267). -/

/-- The outcome of a request: status, HIT, OUTCOME, DETAIL, result or number, the entry found. -/
structure Ans where
  st : Nat
  hit : Bool
  outcome : Nat
  detail : Nat
  val : Nat
  found : Option (Ent × Nat)
  deriving DecidableEq, Repr

def Ans.ok (hit : Bool) : Ans := ⟨stOk, hit, 0, 0, 0, none⟩
def Ans.fail (st : Nat) : Ans := ⟨st, false, 0, 0, 0, none⟩

/-- The reply word (Table 10.4). -/
def Ans.word (a : Ans) : Nat :=
  a.st % 2 ^ 16 + (if a.hit then 2 ^ 16 else 0) + a.outcome % 8 * 2 ^ 17 + a.detail % 256 * 2 ^ 20

def rqOp (k : Nat) : Nat := bitsAt k 0 4
def rqPfx (k : Nat) : Bool := k.testBit 6
def rqLen (k : Nat) : Nat := bitsAt k 8 8
def rqInst (k : Nat) : Nat := bitsAt k 16 12
def rqArg (k : Nat) : Nat := bitsAt k 32 32
def rqResult (k : Nat) : Nat := bitsAt k 64 64
def rqKey (k : Nat) : Nat := bitsAt k 128 128

/-- KIND of a request's TABLE instance; a prefix request has none. -/
def Body.rqKind (b : Body) (k : Nat) : Nat := if rqPfx k then 7 else b.fget clsTable (rqInst k) FTable.kind

/-- A nonzero reserved field (Table 10.2). -/
def Body.rqReserved (b : Body) (k : Nat) : Bool :=
  let op := rqOp k
  let kind := b.rqKind k
  let port := decide (op = 4 ∨ ((op = 5 ∨ op = 0) ∧ kind = 4))
  let idx := decide (kind = 3 ∧ (op = 0 ∨ op = 2 ∨ op = 3))
  let arg := if op = 1 then false else if port then decide (128 ≤ rqArg k) else if idx then false else decide (rqArg k ≠ 0)
  let len := decide (rqLen k ≠ 0) && !(rqPfx k && decide (1 ≤ op ∧ op ≤ 3))
  let res := decide (rqResult k ≠ 0) && !decide (op = 1 ∨ op = 2)
  k.testBit 7 || decide (bitsAt k 28 4 ≠ 0) || arg || len || res

/-- The named instance is disabled, absent or of another tent. -/
def Body.rqNoObject (b : Body) (t : Option Nat) (k : Nat) : Bool :=
  let n := rqInst k
  let own := fun (u : Nat) => match t with
    | some x => x == u
    | none => true
  if rqPfx k then !(b.prefixOn n && own (b.fget clsPrefix n FPrefix.tent))
  else !(b.tableOn n && own (b.fget clsTable n FTable.tent))

/-- A value or an operation that is out of range for the kind (R258, R262, R267, R276, R284). -/
def Body.rqOutOfRange (b : Body) (o : ReqFrom) (k : Nat) : Bool :=
  let op := rqOp k
  let kind := b.rqKind k
  let n := rqInst k
  let port := decide (op = 4 ∨ ((op = 5 ∨ op = 0) ∧ kind = 4))
  let path := match o with
    | .thread _ _ _ => decide (2 ≤ op)
    | .staged _ _ _ => decide (op < 2)
    | .window _ => false
  let allowed :=
    if op < 4 then true
    else if rqPfx k then false
    else if op = 4 then kind == 4 || b.fget clsTable n FTable.portEn == 1
    else kind == 4
  let narrow := decide ((kind = 0 ∧ op = 2 ∧ rqKey k % 2 ^ 64 ≠ 0) ∨
    (kind = 4 ∧ (op = 2 ∨ op = 5) ∧ rqKey k % 2 ^ 68 ≠ 0))
  let static := decide (kind = 4 ∧ op = 2) && (!resStatic (rqResult k) || decide (67 < resPort (rqResult k)))
  let idx := decide (kind = 3 ∧ op = 2 ∧ (b.tableGeo n).entries ≤ rqArg k)
  let pfx := rqPfx k && decide (op = 2 ∨ op = 3) &&
    (let l := rqLen k
     let v6 := b.fget clsPrefix n FPrefix.family == 1
     if v6 then decide (128 < l ∨ maskTo (rqKey k) l ≠ rqKey k)
     else decide (32 < l ∨ maskTo (rqKey k) l / 2 ^ 96 ≠ rqKey k / 2 ^ 96))
  path || !allowed || (port && decide (67 < rqArg k)) || narrow || static || idx || pfx

/-- The first refusal of R267 before TABLE_FULL. -/
def Body.rqRefusal (b : Body) (o : ReqFrom) (t : Option Nat) (k : Nat) : Option Nat :=
  if 6 ≤ rqOp k then some stUnknownOpcode
  else if b.rqReserved k then some stReservedField
  else if b.rqNoObject t k then some stNoSuchObject
  else if b.rqOutOfRange o k then some stOutOfRange
  else none

/-! The operations. -/

/-- MOVES of a PREFIX instance, which its object does not show but a NEXT reply carries (R268, R272). -/
def pfxMoves : Fld := Fld.mk 4096 32 .ro 0 0 none 0
def Body.movesOf (b : Body) (k : Nat) : Nat :=
  if rqPfx k then b.fget clsPrefix (rqInst k) pfxMoves else b.fget clsTable (rqInst k) FTable.moves
def Body.addMoves (b : Body) (pfx : Bool) (n m : Nat) : Body :=
  if pfx then b.bumpWrap clsPrefix n pfxMoves m else b.bumpWrap clsTable n FTable.moves m

/-- SEARCH (R261, R262, R279, R283). -/
def Body.rqSearch (b : Body) (k : Nat) : Ans :=
  let n := rqInst k
  if rqPfx k then
    match b.prefixLookup n (rqKey k) with
    | some (r, l) => { Ans.ok true with val := r, detail := l }
    | none => Ans.ok false
  else
    let r := if b.rqKind k = 3 then b.indexLookup n (rqArg k) else b.exactLookup n (rqKey k)
    let d :=
      if b.rqKind k = 4 then
        let p := 1 + rqArg k
        (if b.fget clsLearn p FLearnPort.limit ≤ b.fget clsLearn p FLearnPort.count then 1 else 0) +
          2 * b.fget clsLearn p FLearnPort.excess
      else 0
    match r with
    | some v => { Ans.ok true with val := v, detail := d }
    | none => { Ans.ok false with detail := d }

/-- The position that NEXT reports, in steps of the geometry: the line offset of an IPv6 prefix, else the entry number
(R271), and the first entry at or after a cursor. -/
def Geo.step (g : Geo) : Nat := if g.pfx && g.wide then 2 else 1
def Body.nextEnt (b : Body) (g : Geo) (c : Nat) : Option (Nat × Ent) :=
  let ps :=
    if g.dram then
      (b.mem.dram.filter (fun x => decide (g.base ≤ x.1 ∧ x.1 < g.base + 32 * g.entries ∧ (x.1 - g.base) % 32 = 24))).map
        (fun x => (x.1 - g.base) / 32)
    else
      let w := if g.wide then 2 else 1
      (b.tab.lines.filter (fun x => decide (g.base ≤ x.1 ∧ x.1 < g.base + w * g.entries ∧ (x.1 - g.base) % w = 0))).map
        (fun x => (x.1 - g.base) / w)
  (ps.filter (fun p => decide (c ≤ p * g.step))).findSome? (fun p => (b.entAt g p).map (fun e => (p * g.step, e)))

def Body.rqNext (b : Body) (k : Nat) : Ans :=
  match b.nextEnt (b.geo (rqPfx k) (rqInst k)) (rqArg k) with
  | some (p, e) => { Ans.ok true with found := some (e, p) }
  | none => Ans.ok false

/-- A filter line with codes and counts replaced, codes in descending order (R282, R284). -/
def Body.prefixCounts (b : Body) (n v : Nat) : List Nat :=
  (List.range 8).map (fun k => leNat (b.dramBytes (b.fget clsPrefix n FPrefix.countBase + 32 * v + 4 * k) 4))
def Body.setFilter (b : Body) (n v f : Nat) : Body := b.setLine (b.fget clsPrefix n FPrefix.filterBase + v) f
def withCodes (f : Nat) (cs : List Nat) : Nat :=
  f % 2 ^ 72 + ((List.range 8).map (fun k => cs.getD k 0x7F * 2 ^ (72 + 7 * k))).sum

/-- The codes and counts of a line with length code `c` counted once more (`true`) or once less. -/
def countCode (l : List (Nat × Nat)) (c : Nat) (up : Bool) : List (Nat × Nat) :=
  if up then
    if l.any (fun e => e.1 == c) then l.map (fun e => if e.1 = c then (c, e.2 + 1) else e)
    else (l.filter (fun e => decide (c < e.1))) ++ (c, 1) :: (l.filter (fun e => decide (e.1 < c)))
  else (l.map (fun e => if e.1 = c then (c, e.2 - 1) else e)).filter (fun e => decide (0 < e.2))

/-- The lengths and counts under a filter line, empty codes left out. -/
def Body.codesOf (b : Body) (n v : Nat) : List (Nat × Nat) :=
  ((filterCodes (b.filterLine n v)).zip (b.prefixCounts n v)).filter (fun e => decide (e.1 ≠ 0x7F))

/-- A prefix of length 17 or more enters or leaves its filter line. -/
def Body.countPrefix (b : Body) (n v c : Nat) (up : Bool) : Body :=
  let l := countCode (b.codesOf n v) c up
  let b1 := (b.dramPost 1 0 (b.fget clsPrefix n FPrefix.countBase + 32 * v) 32 false).dramWrite 1 0 (b.fget clsPrefix n FPrefix.countBase + 32 * v)
    ((List.range 8).flatMap (fun k => leBytes 4 ((l.getD k (0, 0)).2)))
  b1.setFilter n v (withCodes (b.filterLine n v) (l.map (fun e => e.1)))

/-- The short part of a filter line. -/
def withShort (f : Nat) (s : Option (Nat × Nat)) : Nat :=
  f / 2 ^ 70 * 2 ^ 70 + (match s with
    | some (r, l) => r % 2 ^ 64 + l % 32 * 2 ^ 64 + 2 ^ 69
    | none => 0)

/-- A short prefix of length `l` covers lines `v` to `v + 2^(16 - l) - 1`. -/
def coveredLines (a l : Nat) : List Nat := (List.range (2 ^ (16 - l))).map (fun i => a / 2 ^ 112 + i)

/-- The longest stored prefix of length `l` or less that covers a line's first address. -/
def Body.shorter (b : Body) (g : Geo) (v6 : Bool) (v : Nat) : Nat → Option (Nat × Nat)
  | 0 => ((b.findEnt g (prefixEnt v6 (v * 2 ^ 112) 0)).bind (b.entAt g)).map (fun e => (e.res, 0))
  | l + 1 =>
    match (b.findEnt g (prefixEnt v6 (v * 2 ^ 112) (l + 1))).bind (b.entAt g) with
    | some e => some (e.res, l + 1)
    | none => b.shorter g v6 v l

/-- The filter after a short prefix has been written (`some` result) or removed (R284). -/
def Body.shortPrefix (b : Body) (n a l : Nat) (r : Option Nat) : Body :=
  let g := b.prefixGeo n
  let v6 := b.fget clsPrefix n FPrefix.family == 1
  (coveredLines a l).foldl (fun (x : Body) v =>
    let f := x.filterLine n v
    let valid := f.testBit 69
    let len := bitsAt f 64 5
    match r with
    | some res => if !valid || decide (len ≤ l) then x.setFilter n v (withShort f (some (res, l))) else x
    | none =>
      if valid && len == l then
        x.setFilter n v (withShort f (if l = 0 then none else x.shorter g v6 v (l - 1)))
      else x) b

/-- All prefixes stored in the prefix engine. -/
def Body.allPrefixes (b : Body) : Nat := ((List.range 256).map (fun n => b.fget clsPrefix n FPrefix.prefixes)).sum

/-- INSERT of a prefix (R284). -/
def Body.prefixInsert (b : Body) (k : Nat) : Ans × Body :=
  let n := rqInst k
  let g := b.prefixGeo n
  let v6 := b.fget clsPrefix n FPrefix.family == 1
  let l := rqLen k
  let a := maskTo (if v6 then rqKey k else rqKey k / 2 ^ 96 * 2 ^ 96) l
  let e := { prefixEnt v6 a l with res := rqResult k }
  let v := a / 2 ^ 112
  let full := fun (x : Body) => (Ans.fail stTableFull, x.bump clsPrefix n FPrefix.insertFails 1)
  match b.findEnt g e with
  | some p =>
    if k.testBit 4 then (Ans.ok true, b)
    else
      let b1 := b.setEnt g p (some e)
      (Ans.ok true, if l ≤ 16 then b1.shortPrefix n a l (some e.res) else b1)
  | none =>
    let cs := b.codesOf n v
    if 2097152 ≤ b.allPrefixes then full b
    else if 17 ≤ l ∧ ¬ cs.any (fun x => x.1 == l - 17) ∧ 8 ≤ cs.length then
      full (b.bump clsPrefix n FPrefix.lengthFull 1)
    else match b.planInsert g e with
      | some (w, m) =>
        let b1 := ((b.writePlan g w).addMoves true n m).bump clsPrefix n FPrefix.prefixes 1
        let b2 := if 17 ≤ l then b1.countPrefix n v (l - 17) true else b1.shortPrefix n a l (some e.res)
        ({ Ans.ok false with detail := m }, b2)
      | none => full b

/-- INSERT (R264, R276, R284). -/
def Body.rqInsert (b : Body) (tm : Time) (k : Nat) : Ans × Body :=
  if rqPfx k then b.prefixInsert k
  else
    let n := rqInst k
    let g := b.tableGeo n
    let learn := b.rqKind k == 4
    let res := if learn then learnRes (resPort (rqResult k)) true tm.tickNumber (seenOf tm.tickNumber) else rqResult k
    if g.index then
      let p := rqArg k
      match b.entAt g p with
      | some _ => if k.testBit 4 then (Ans.ok true, b) else (Ans.ok true, b.setEnt g p (some ⟨0, 0, res⟩))
      | none => (Ans.ok false, (b.setEnt g p (some ⟨0, 0, res⟩)).bump clsTable n FTable.entries 1)
    else
      let e : Ent := ⟨rqKey k, 0, res⟩
      match b.findEnt g e with
      | some p =>
        if k.testBit 4 then (Ans.ok true, b)
        else match b.entAt g p with
          | some old => (Ans.ok true, (b.setEnt g p (some e)).uncount learn old)
          | none => (Ans.ok true, b)
      | none =>
        match b.planInsert g e with
        | some (w, m) =>
          ({ Ans.ok false with detail := m },
            ((b.writePlan g w).addMoves false n m).bump clsTable n FTable.entries 1)
        | none => (Ans.fail stTableFull, b.bump clsTable n FTable.insertFails 1)

/-- One entry leaves a TABLE instance. -/
def Body.removeEnt (b : Body) (n : Nat) (g : Geo) (learn : Bool) (p : Nat) : Body :=
  match b.entAt g p with
  | some e => ((b.setEnt g p none).drop clsTable n FTable.entries 1).uncount learn e
  | none => b

/-- DELETE (R262, R280, R284). -/
def Body.rqDelete (b : Body) (k : Nat) : Ans × Body :=
  let n := rqInst k
  if rqPfx k then
    let g := b.prefixGeo n
    let v6 := b.fget clsPrefix n FPrefix.family == 1
    let l := rqLen k
    let a := maskTo (if v6 then rqKey k else rqKey k / 2 ^ 96 * 2 ^ 96) l
    match b.findEnt g (prefixEnt v6 a l) with
    | some p =>
      let b1 := (b.setEnt g p none).drop clsPrefix n FPrefix.prefixes 1
      (Ans.ok true, if 17 ≤ l then b1.countPrefix n (a / 2 ^ 112) (l - 17) false else b1.shortPrefix n a l none)
    | none => (Ans.ok false, b)
  else
    let g := b.tableGeo n
    let learn := b.rqKind k == 4
    let at? := if g.index then (if rqArg k < g.entries then some (rqArg k) else none) else b.findEnt g ⟨rqKey k, 0, 0⟩
    match at? with
    | some p => if (b.entAt g p).isSome then (Ans.ok true, b.removeEnt n g learn p) else (Ans.ok false, b)
    | none => (Ans.ok false, b)

/-- The counter of a learn outcome (Table 10.7). -/
def learnCounter (o : Nat) : Fld :=
  [FLearn.new, FLearn.refreshed, FLearn.moved, FLearn.contested, FLearn.limited, FLearn.staticKept].getD o FLearn.new

/-- LEARN (R277, R278). -/
def Body.rqLearn (b : Body) (tm : Time) (k : Nat) : Ans × Body :=
  let n := rqInst k
  let g := b.tableGeo n
  let p := rqArg k
  let t := tm.tickNumber
  let full := decide (b.fget clsLearn (1 + p) FLearnPort.limit ≤ b.fget clsLearn (1 + p) FLearnPort.count)
  let out := fun (hit : Bool) (o : Nat) (x : Body) =>
    ({ Ans.ok hit with outcome := o }, x.bump clsLearn 0 (learnCounter o) 1)
  let limited := fun (hit : Bool) => out hit 4 (b.bump clsLearn (1 + p) FLearnPort.limited 1)
  match b.findEnt g ⟨rqKey k, 0, 0⟩ with
  | none =>
    if full then limited false
    else
      match b.planInsert g ⟨rqKey k, 0, learnRes p false t (seenOf t)⟩ with
      | some (w, m) =>
        out false 0 ((((b.writePlan g w).addMoves false n m).bump clsTable n FTable.entries 1).learnUp p)
      | none => (Ans.fail stTableFull, b.bump clsTable n FTable.insertFails 1)
  | some q =>
    match b.entAt g q with
    | none => (Ans.ok false, b)
    | some e =>
      if resStatic e.res then out true 5 b
      else if resPort e.res = p then
        out true 1 (b.setEnt g q (some { e with res := learnRes p false (resTick e.res) (seenOf t) }))
      else if (t + 2 ^ 32 - resTick e.res) % 2 ^ 32 < b.fget clsLearn 0 FLearn.window then
        let b1 := (b.fset clsLearn 0 FLearn.lastContestKey (rqKey k / 2 ^ 64)).fset clsLearn 0 FLearn.lastContestHeld
          (resPort e.res)
        let b2 := (b1.fset clsLearn 0 FLearn.lastContestFrom p).fset clsLearn 0 FLearn.lastContestTick t
        out true 3 ((b2.bump clsLearn (1 + p) FLearnPort.contested 1).ring 98)
      else if full then limited true
      else
        out true 2 (((b.learnDown (resPort e.res)).learnUp p).setEnt g q
          (some { e with res := learnRes p false t (seenOf t) }))

end Sys2Proof.Machine
end

