-- ==== Sys2Proof/Machine/TableCmds.lean ====
section
/-! DEFINITION. The table engine's commands: requests and their replies, flushing, enabling, the shadow walker and the
ager (spec/10, R256, R266 to R275, R280, R286, R287). -/

namespace Sys2Proof.Machine

/-! Replies (R268, R271, R287). -/

/-- A block `now` after a NEXT that the request `k` asked for: KEY, RESULT, LEN and ARG are written, the other fields
stay as they are (R271). -/
def Body.nextBlock (b : Body) (k now : Nat) (a : Ans) : Nat :=
  match a.found with
  | some (e, p) =>
    let g := b.geo (rqPfx k) (rqInst k)
    let key := if rqPfx k && !g.wide then e.key / 2 ^ 96 * 2 ^ 96 else e.key
    let k1 := setBits (setBits (setBits now 128 128 key) 64 64 e.res) 32 32 (p + 1)
    if rqPfx k then setBits k1 8 8 (e.length g) else k1
  | none => setBits now 32 32 0xFFFFFFFF

/-- The words of a TREQ's reply, as many as its OP gives (R268). -/
def Body.treqWords (b : Body) (k : Nat) (a : Ans) : List Word :=
  let w := BitVec.ofNat 32 a.word
  if rqOp k = 0 then [w, BitVec.ofNat 32 a.val, BitVec.ofNat 32 (a.val / 2 ^ 32)]
  else if rqOp k = 1 then [w, BitVec.ofNat 32 (if a.st = stOk then b.movesOf k else 0)]
  else [w]

/-- A scratchpad byte address of a cluster. -/
def spadAddr (cluster a : Nat) : Nat := cluster * 0x100000 + a % 0x100000

/-- A request completes, on the way it came. -/
def Body.finishReq (b : Body) (r : TabReq) (a : Ans) : Body :=
  let k := r.block
  match r.origin with
  | .thread h num addr =>
    let b1 := if rqOp k = 1 ∧ a.st = stOk then
        (if h < 1024 then
          let x := lmemAddr (coreOf h) addr
          { b with mem.lmem := writeLE b.mem.lmem x 32 (b.nextBlock k (readLE b.mem.lmem x 32) a) }
         else { b with mem.bmem := writeLE b.mem.bmem addr 32 (b.nextBlock k (readLE b.mem.bmem addr 32) a) })
      else b
    b1.modHart h (fun x => { x with
      reqs := x.reqs.map (fun q => if q.num = num then { q with reply := some (b.treqWords k a) } else q) })
  | .staged c addr notify =>
    let m := writeLE b.mem.spad (spadAddr c addr) 4 a.word
    let m1 := if rqOp k = 4 then writeLE m (spadAddr c addr + 4) 4 a.val else m
    let b1 := { b with mem.spad := m1 }
    match notify with
    | some q => b1.setFlags q 0x20
    | none => b1
  | .window n =>
    let v := if rqOp k = 1 then b.movesOf k else a.val
    let b1 := ((b.fset clsTable n FTable.cmdReply a.word).fset clsTable n FTable.cmdData v).fset clsTable n
      FTable.cmdBusy 0
    if rqOp k = 1 ∧ a.st = stOk then b1.fset clsTable n FTable.cmdBlock (b.nextBlock k (b.fget clsTable n FTable.cmdBlock) a)
    else b1

/-- Arrival order (R269): by the cycle, and within one staged requests before window requests. -/
def TabReq.window (r : TabReq) : Bool :=
  match r.origin with
  | .window _ => true
  | _ => false
def TabReq.before (r x : TabReq) : Bool := decide (r.cyc < x.cyc) || (decide (r.cyc = x.cyc) && !r.window && x.window)

/-- A request that arrives now joins those that wait, in order of arrival (R269). -/
def Body.askTable (b : Body) (o : ReqFrom) (t : Option Nat) (block : Nat) : Body :=
  let (k, b1) := b.tick
  { b1 with tab.reqs := insertBy TabReq.before ⟨k, b.clock, o, t, block⟩ b1.tab.reqs }

/-- A TREQ's request with the number of the thread's request. -/
def Body.treqAsk (b : Body) (h num addr : Nat) (t : Option Nat) (block : Nat) : Body :=
  b.askTable (.thread h num addr) t block

/-! When a request is performed (R259, R269, R286). -/

def isUpdate (op : Nat) : Bool := decide (2 ≤ op ∧ op ≤ 5)

/-- Whether a request is an update of an instance. -/
def TabReq.updates (r : TabReq) (pfx : Bool) (n : Nat) : Bool :=
  rqInst r.block == n && rqPfx r.block == pfx && isUpdate (rqOp r.block)

/-- How many entries a NEXT of a kind 2 table reads: from its cursor to the first valid one. -/
def Body.nextReads (b : Body) (g : Geo) (c : Nat) : Nat :=
  match b.nextEnt g c with
  | some (p, _) => p + 1 - c
  | none => g.entries - c

/-- Whether a request needs a frozen DRAM channel (R259); a FLUSH_BY_PORT only starts a walk, whose steps need them. -/
def Body.rqHeld (b : Body) (k : Nat) : Bool :=
  let n := rqInst k
  let g := b.geo (rqPfx k) n
  if rqPfx k ∧ (rqOp k = 2 ∨ rqOp k = 3) ∧ 17 ≤ rqLen k then
    b.dramHeld (b.fget clsPrefix n FPrefix.countBase + 32 * (rqKey k / 2 ^ 112)) 32
  else if !g.dram then false
  else if rqOp k = 1 then b.dramHeld (g.base + 32 * rqArg k) (32 * b.nextReads g (rqArg k))
  else if rqOp k = 4 then false
  else if rqOp k = 2 then b.tableHeld g (b.insertReads g ⟨rqKey k, 0, 0⟩)
  else b.tableHeld g (g.candidates ⟨rqKey k, 0, 0⟩)

/-- Whether a request's turn has come: its instance is not clearing (R286), and unless it is refused no earlier update
of the instance waits before an update (R269) and its DRAM channels run. -/
def Body.rqReady (b : Body) (r : TabReq) : Bool :=
  let k := r.block
  let n := rqInst k
  let clearing := if rqPfx k then b.prefixClearing n else b.tableClearing n
  let earlier := (b.tab.reqs.takeWhile (fun x => decide (x.num ≠ r.num))).any (fun x => x.updates (rqPfx k) n)
  !clearing && ((b.rqRefusal r.origin r.tent k).isSome || !((isUpdate (rqOp k) && earlier) || b.rqHeld k))

def Body.dropReq (b : Body) (r : TabReq) : Body := { b with tab.reqs := b.tab.reqs.filter (fun x => decide (x.num ≠ r.num)) }

/-- A request is taken from those that wait, in the cycle after its arrival or later: refused, or performed by `f`. -/
def Body.takeReq (b : Body) (r : TabReq) (f : Body → Nat → Ans × Body) : Body :=
  let b1 := b.dropReq r
  match b1.rqRefusal r.origin r.tent r.block with
  | some st => b1.finishReq r (Ans.fail st)
  | none => let p := f b1 r.block; p.2.finishReq r p.1

/-- The core cycle in which a request is performed: after its arrival, and a kind 2 search in its slot (R340). -/
def Dev.reqCycle (d : Dev) (r : TabReq) : Nat :=
  let c := max d.tm.cycle (r.cyc + 1)
  if rqOp r.block = 0 ∧ d.b.rqKind r.block = 2 then d.b.rateSlot c else c

/-- The reads of DRAM that a kind 2 request makes: the entries that a NEXT passes, else the candidate buckets, and for an
INSERT those of the relocation (R264). -/
def Body.readFor (b : Body) (k : Nat) : Body :=
  let g := b.tableGeo (rqInst k)
  let e : Ent := ⟨rqKey k, 0, 0⟩
  if b.rqKind k ≠ 2 then b
  else if rqOp k = 1 then
    if rqArg k < g.entries then b.dramPost 1 0 (g.base + 32 * rqArg k) (32 * b.nextReads g (rqArg k)) false else b
  else (if rqOp k = 2 then b.relocations g e else []).foldl (fun (x : Body) v =>
    x.dramPost 1 0 (g.base + 64 * v) 64 false) (b.readBuckets g e)

/-- Request `i` of those that wait, if its OP is one that the command performs and its turn has come. -/
def Dev.runReq (d : Dev) (i : Nat) (ops : List Nat) (f : Time → Body → TabReq → Body) : Dev :=
  match d.b.tab.reqs[i]? with
  | some r =>
    let d1 := d.waitCycle (d.reqCycle r)
    if ops.contains (rqOp r.block) && d1.b.rqReady r then { d1 with b := f d1.tm d1.b r } else d
  | none => d

/-- TABLE_SEARCH (R261): also answers an OP that does not exist (R267). -/
def execTableSearch (i : Nat) (s : State) : Host.Outcome State Fault Refusal :=
  onDev (fun d =>
    d.runReq i [0, 6, 7, 8, 9, 10, 11, 12, 13, 14, 15] (fun _ b r => b.takeReq r (fun x k =>
      let y := if x.rqKind k = 2 then x.rateLookup (max d.tm.cycle (r.cyc + 1)) else x
      (y.rqSearch k, y.readFor k)))) s

/-- TABLE_NEXT (R271). -/
def execTableNext (i : Nat) (s : State) : Host.Outcome State Fault Refusal :=
  onDev (fun d => d.runReq i [1] (fun _ b r => b.takeReq r (fun x k => (x.rqNext k, x.readFor k)))) s

/-- TABLE_INSERT (R264, R284). -/
def execTableInsert (i : Nat) (s : State) : Host.Outcome State Fault Refusal :=
  onDev (fun d => d.runReq i [2] (fun tm b r => b.takeReq r (fun x k => (x.readFor k).rqInsert tm k))) s

/-- TABLE_DELETE (R284). -/
def execTableDelete (i : Nat) (s : State) : Host.Outcome State Fault Refusal :=
  onDev (fun d => d.runReq i [3] (fun _ b r => b.takeReq r (fun x k => (x.readFor k).rqDelete k))) s

/-- LEARN (R277). -/
def execLearn (i : Nat) (s : State) : Host.Outcome State Fault Refusal :=
  onDev (fun d => d.runReq i [5] (fun tm b r => b.takeReq r (fun x k => x.rqLearn tm k))) s

/-- A FLUSH_BY_PORT starts its walk once the table's previous one has ended. -/
def Body.startWalk (b : Body) (r : TabReq) : Body :=
  match b.rqRefusal r.origin r.tent r.block with
  | some st => (b.dropReq r).finishReq r (Ans.fail st)
  | none =>
    if mapHas (rqInst r.block) b.tab.walks then b
    else { b.dropReq r with tab.walks := mapPut (rqInst r.block) ⟨r, 0, 0⟩ b.tab.walks }

/-- FLUSH_BY_PORT (R273). -/
def execFlushByPort (i : Nat) (s : State) : Host.Outcome State Fault Refusal :=
  onDev (fun d => d.runReq i [4] (fun _ b r => b.startWalk r)) s

/-- Whether an entry matches a flush (R273). -/
def Body.flushMatch (b : Body) (n : Nat) (k : Nat) (e : Ent) : Bool :=
  if b.fget clsTable n FTable.kind = 4 then
    resPort e.res == rqArg k && (k.testBit 5 || !resStatic e.res)
  else bitsAt e.res (b.fget clsTable n FTable.portLsb) 7 == rqArg k

/-- The positions of a step of the walk: a bucket, or a line of an index table. -/
def Geo.walkSlots (g : Geo) (k : Nat) : List Nat := if g.index then [k] else g.slotsOf k
def Geo.walkSteps (g : Geo) : Nat := if g.index then g.entries else g.entries / g.slots

/-- FLUSH_STEP (R273): the walk of TABLE instance `n` takes its next bucket or line, and replies when it ends. -/
def execFlushStep (n : Nat) (s : State) : Host.Outcome State Fault Refusal :=
  onBody (fun _ b =>
    match mapFind n b.tab.walks with
    | some w =>
      let g := b.tableGeo n
      let learn := b.fget clsTable n FTable.kind == 4
      let ps := g.walkSlots w.next
      if b.tableHeld g ps || !b.tableOn n || b.tableClearing n then b
      else
        let hit := ps.filter (fun p => match b.entAt g p with
          | some e => b.flushMatch n w.req.block e
          | none => false)
        let b0 := if g.dram then b.dramPost 1 0 (g.base + 64 * w.next) 64 false else b
        let b1 := hit.foldl (fun x p => x.removeEnt n g learn p) b0
        let w1 := { w with next := w.next + 1, removed := w.removed + hit.length }
        if w1.next < g.walkSteps then { b1 with tab.walks := mapPut n w1 b1.tab.walks }
        else
          { b1 with tab.walks := mapDel n b1.tab.walks }.finishReq w1.req { Ans.ok false with val := w1.removed }
    | none => b) s

/-! Enabling (R256, R257, R286). -/

/-- The ranges of lines of an instance: first line and count. -/
def Body.lineRanges (b : Body) (pfx : Bool) (n : Nat) : List (Nat × Nat) :=
  if pfx then
    [(b.fget clsPrefix n FPrefix.filterBase, 65536),
     (b.fget clsPrefix n FPrefix.base, 2 ^ b.fget clsPrefix n FPrefix.sizeLog2)]
  else if b.fget clsTable n FTable.kind = 2 then []
  else [(b.fget clsTable n FTable.base, 2 ^ b.fget clsTable n FTable.sizeLog2)]

/-- The enabled instances. -/
def Body.enabledTables (b : Body) : List Nat := (List.range 4096).filter (fun n => b.tableOn n)
def Body.enabledPrefixes (b : Body) : List Nat := (List.range 256).filter (fun n => b.prefixOn n)

def overlaps (x y : Nat × Nat) : Bool := decide (x.1 < y.1 + y.2 ∧ y.1 < x.1 + x.2)

/-- The checks of an ENABLE write: the total of R257 (R478), then R256's in its order; a PREFIX instance is refused at
N = 32 and 64 (R281), and an instance of a tent that is no more has no lines of its own. -/
def Body.enableCheck (b : Body) (pfx : Bool) (n : Nat) : Nat :=
  let t := if pfx then b.fget clsPrefix n FPrefix.tent else b.fget clsTable n FTable.tent
  let share := 2097152 / b.tents
  let rs := b.lineRanges pfx n
  let z := 2 ^ b.fget clsTable n FTable.sizeLog2
  let dram := !pfx && b.fget clsTable n FTable.kind == 2
  let mine := (b.enabledTables.filter (fun m => b.fget clsTable m FTable.kind == 2 && b.fget clsTable m FTable.tent == t)).map
    (fun m => 2 ^ b.fget clsTable m FTable.sizeLog2)
  let others := b.enabledTables.flatMap (fun m => b.lineRanges false m) ++
    b.enabledPrefixes.flatMap (fun m => b.lineRanges true m)
  let learned := (b.enabledTables.filter (fun m => b.fget clsTable m FTable.kind == 4)).map
    (fun m => 2 ^ b.fget clsTable m FTable.sizeLog2)
  if ¬ pfx ∧ b.fget clsTable n FTable.kind = 4 ∧ 1048576 < learned.sum + z then stOutOfRange
  else if b.tents ≤ t ∨ (pfx ∧ 32 ≤ b.tents) then stRefusedShare
  else if rs.any (fun r => decide (r.1 < t * share ∨ (t + 1) * share < r.1 + r.2)) then stRefusedShare
  else if dram ∧ 268435456 / b.tents < mine.sum + z then stRefusedShare
  else if rs.any (fun r => others.any (fun o => overlaps r o)) then stOutOfRange
  else stOk

/-- Every line of the instance is free. -/
def Body.freeEntries (b : Body) (pfx : Bool) (n : Nat) : Body :=
  let rs := b.lineRanges pfx n
  { b with tab.lines := b.tab.lines.filter (fun e => !rs.any (fun r => decide (r.1 ≤ e.1 ∧ e.1 < r.1 + r.2))) }

/-- Every position of a kind 2 table becomes free, by writes of the TABLE port. -/
def Body.clearDram (b : Body) (n : Nat) : Body :=
  let g := b.tableGeo n
  { b with mem.dram := b.mem.dram.filter (fun c =>
      !decide (g.base ≤ c.1 ∧ c.1 < g.base + 32 * g.entries ∧ (c.1 - g.base) % 32 = 24)) }.dramPost 1 0 g.base
    (32 * g.entries) true

/-- A disabled learn table's dynamic entries no longer count. -/
def Body.uncountAll (b : Body) (n : Nat) : Body :=
  let g := b.tableGeo n
  if b.fget clsTable n FTable.kind = 4 then
    ((b.tab.lines.filter (fun e => decide (g.base ≤ e.1 ∧ e.1 < g.base + g.entries))).map
      (fun e => e.1 - g.base)).foldl (fun (x : Body) p => match x.entAt g p with
        | some e => x.uncount true e
        | none => x) b
  else b

/-- A flush walk of an instance that is disabled ends with the entries removed so far (assumption log 133). -/
def Body.endWalk (b : Body) (n : Nat) : Body :=
  match mapFind n b.tab.walks with
  | some w => { b with tab.walks := mapDel n b.tab.walks }.finishReq w.req { Ans.ok false with val := w.removed }
  | none => b

/-- A write of ENABLE (R286): status and state. -/
def Body.tableEnable (b : Body) (pfx : Bool) (n : Nat) (on : Bool) : Nat × Body :=
  let cls := if pfx then clsPrefix else clsTable
  let was := b.fget cls n FTable.enable == 1
  if on == was then (stOk, b)
  else if on then
    let st := b.enableCheck pfx n
    if st ≠ stOk then (st, b)
    else (stOk, ((b.freeEntries pfx n).fset cls n FTable.enable 1).fset cls n FTable.clearing 1)
  else
    let b1 := if pfx then (b.freeEntries true n).fset clsPrefix n FPrefix.prefixes 0
      else
        let x := (b.endWalk n).uncountAll n
        let y := x.freeEntries false n
        { y.fset clsTable n FTable.entries 0 with
          tab.shadows := mapDel n y.tab.shadows
          tab.ager := y.tab.ager.map (fun e => if e.1 = n then (n, (0, e.2.2)) else e) }
    (stOk, (b1.fset cls n FTable.enable 0).fset cls n FTable.clearing 0)

/-- CLEARING_DONE (R286): the instance is clear; one in DRAM waits for the channels that it needs (R346). -/
def execClearingDone (prefixClass : Bool) (n : Nat) (s : State) : Host.Outcome State Fault Refusal :=
  onBody (fun _ b =>
    if prefixClass then b.fset clsPrefix n FTable.clearing 0
    else
      let g := b.tableGeo n
      if g.dram && b.tableClearing n then
        if b.dramHeld g.base (32 * g.entries) then b else (b.clearDram n).fset clsTable n FTable.clearing 0
      else b.fset clsTable n FTable.clearing 0) s

/-! The shadow walker (R275). -/

/-- The record of a position. -/
def entRecord : Option Ent → List Byte
  | some e => beBytes 16 e.key ++ beBytes 8 e.res ++ (1 :: List.replicate 7 0)
  | none => List.replicate 32 0

/-- The CRC of a block of 256 positions. -/
def Body.blockCrc (b : Body) (g : Geo) (k : Nat) : Nat :=
  crc32c 0xFFFFFFFF ((List.range 256).flatMap (fun i =>
    entRecord (if 256 * k + i < g.entries then b.entAt g (256 * k + i) else none)))

/-- Whether a block differs from its word of the list. -/
def Body.blockDiffers (b : Body) (n k : Nat) : Bool :=
  b.blockCrc (b.tableGeo n) k != leNat (b.dramBytes (b.fget clsTable n FTable.shadowBase + 4 * k) 4)

/-- The DRAM reads of a block: its word of the list, and its positions where the table lies in DRAM. -/
def Body.shadowRead (b : Body) (n k : Nat) : Body :=
  let g := b.tableGeo n
  let x := b.dramPost 1 0 (b.fget clsTable n FTable.shadowBase + 4 * k) 4 false
  if g.dram then x.dramPost 1 0 (g.base + 8192 * k) (min 8192 (32 * (g.entries - 256 * k))) false else x

def Body.shadow (b : Body) (n : Nat) : Shadow := mapGet ⟨0, 0, 0, []⟩ n b.tab.shadows
def Body.setShadow (b : Body) (n : Nat) (x : Shadow) : Body := { b with tab.shadows := mapPut n x b.tab.shadows }

/-- The DRAM that a shadow read of a block needs runs. -/
def Body.shadowHeld (b : Body) (n k : Nat) : Bool :=
  let g := b.tableGeo n
  b.dramHeld (b.fget clsTable n FTable.shadowBase + 4 * k) 4 || (g.dram && b.dramHeld (g.base + 8192 * k) 8192)

/-- SHADOW_BLOCK_CHECK (R275): the walker of TABLE instance `n` reads its next block, SHADOW_RATE blocks per tick. -/
def execShadowBlockCheck (n : Nat) (s : State) : Host.Outcome State Fault Refusal :=
  onBody (fun _ b =>
    let x0 := b.shadow n
    let x := if x0.tick = b.work.tickSets then x0 else { x0 with tick := b.work.tickSets, done := 0 }
    if b.tableOn n && !b.tableClearing n && b.fget clsTable n FTable.shadowEn == 1 &&
        decide (x.done < b.fget clsTable n FTable.shadowRate) && !b.shadowHeld n x.next then
      let again := if b.blockDiffers n x.next then x.again ++ [(x.next, b.work.tickSets)] else x.again
      let last := ceilDiv (b.tableGeo n).entries 256 ≤ x.next + 1
      let b1 := b.shadowRead n x.next
      let b2 := b1.setShadow n { x with next := if last then 0 else x.next + 1, done := x.done + 1, again := again }
      if last then b2.bump clsTable n FTable.shadowPasses 1 else b2
    else b) s

/-- SHADOW_RECHECK (R275): at the second boundary after its first read a block is read again; one that still differs is
counted, recorded and raises source 97. -/
def execShadowRecheck (n : Nat) (s : State) : Host.Outcome State Fault Refusal :=
  onBody (fun _ b =>
    let x := b.shadow n
    match x.again with
    | (k, t) :: r =>
      if t + 2 ≤ b.work.tickSets ∧ ¬ b.shadowHeld n k then
        let b1 := (b.shadowRead n k).setShadow n { x with again := r }
        if b1.blockDiffers n k then
          ((b1.bump clsTable n FTable.mismatches 1).fset clsTable n FTable.lastMismatch k).ring 97
        else b1
      else b
    | [] => b) s

/-! The ager (R280). -/

/-- AGER_SCAN (R280): once a tick, AGE_RATE buckets of learn table `n`, cycling, after every update that has arrived
(R269). -/
def execAgerScan (n : Nat) (s : State) : Host.Outcome State Fault Refusal :=
  onDev (fun d0 =>
    let d := d0.wait 1
    let b := d.b
    let st := mapGet (0, 0) n b.tab.ager
    let g := b.tableGeo n
    if b.tableOn n && !b.tableClearing n && b.fget clsTable n FTable.kind == 4 && b.fget clsLearn 0 FLearn.ageEn == 1 &&
        decide (st.2 < b.work.tickSets) && !b.tab.reqs.any (fun x => x.updates false n) then
      let buckets := g.entries / g.slots
      let rate := min (b.fget clsLearn 0 FLearn.ageRate) buckets
      let old := (b.tab.lines.filter (fun e => decide (g.base ≤ e.1 ∧ e.1 < g.base + g.entries) &&
          decide (((e.1 - g.base) / g.slots + buckets - st.1) % buckets < rate))).map (fun e => e.1 - g.base)
      let gone := old.filter (fun p => match b.entAt g p with
        | some e => !resStatic e.res &&
            decide (b.fget clsLearn 0 FLearn.ageUnits ≤ (seenOf d.tm.tickNumber + 2 ^ 24 - resSeen e.res) % 2 ^ 24)
        | none => false)
      let b1 := gone.foldl (fun x p => (x.removeEnt n g true p).lower clsLearn 0 FLearn.aged 1) b
      { d with b := { b1 with tab.ager := mapPut n ((st.1 + rate) % buckets, b1.work.tickSets) b1.tab.ager } }
    else d0) s

end Sys2Proof.Machine
end

