-- ==== Sys2Proof/Machine/Intake.lean ====
section
/-! DEFINITION. Intake: parsing, keys, stages, actions, edits, spreading, epochs (spec/04, R88 to R111, R479). -/

namespace Sys2Proof.Machine

/-! Parsing (R92 to R94). -/

/-- A recorded header instance: type, offset, length, and whether a POP has removed it. -/
structure Inst where
  htype : Nat
  off : Nat
  len : Nat
  gone : Bool
  deriving DecidableEq, Repr

/-- A byte of a frame of `len` bytes as parsing and keys see it: 0 at or beyond LENGTH - 4 or byte 256. -/
def seenByte (l : List Byte) (len k : Nat) : Nat := if k + 4 < len ∧ k < 256 then byteAt l k else 0
def seenBe32 (l : List Byte) (len k : Nat) : Nat :=
  ((seenByte l len k * 256 + seenByte l len (k + 1)) * 256 + seenByte l len (k + 2)) * 256 + seenByte l len (k + 3)

def nodeInst (e n : Nat) : Nat := 0x100 + 64 * e + n
def profileInst (e p : Nat) : Nat := 0x200 + 128 * e + p
def inCnt (p : Nat) : Nat := 0x300 + p
def hashInst (e h : Nat) : Nat := 0x400 + 16 * e + h
def actionInst (e a : Nat) : Nat := 0x1000 + 4096 * e + a
def indirInst (t i : Nat) : Nat := 0x40000 + 4096 * t + i
def stageInst (e s : Nat) : Nat := 8 * e + s

/-- The node that follows: the first valid transition on the selector, else DEFAULT_NEXT. -/
def Body.nextNode (b : Body) (i sel : Nat) : Nat :=
  match (List.range 8).find? (fun k => b.fget clsIntake i (FNode.transValid k) == 1 &&
      b.fget clsIntake i (FNode.transValue k) == sel) with
  | some k => b.fget clsIntake i (FNode.transNext k)
  | none => b.fget clsIntake i FNode.defaultNext

/-- The walk of the header graph: instances recorded, and the status of Table 4.2. -/
def Body.parse (b : Body) (e : Nat) (l : List Byte) (len : Nat) : Nat → Nat → Nat → List Inst → List Inst × Nat
  | 0, _, _, acc => (acc, 2)
  | n + 1, node, h, acc =>
    let i := nodeInst e node
    let lenfield := seenByte l len (h + b.fget clsIntake i FNode.lenOff) / 2 ^ b.fget clsIntake i FNode.lenBitpos %
      2 ^ b.fget clsIntake i FNode.lenWidth
    let hlen := b.fget clsIntake i FNode.fixedLen + lenfield * 2 ^ b.fget clsIntake i FNode.lenShift
    if 256 < h + hlen ∨ len < h + hlen + 4 then (acc, 1)
    else
      let acc1 := acc ++ [⟨b.fget clsIntake i FNode.htype, h, hlen, false⟩]
      let sel := seenBe32 l len (h + b.fget clsIntake i FNode.selOff) / 2 ^ b.fget clsIntake i FNode.selShift &&&
        b.fget clsIntake i FNode.selMask
      let nx := b.nextNode i sel
      if 64 ≤ nx then (acc1, 0)
      else if n = 0 then (acc1, 2)
      else b.parse e l len n nx (h + hlen) acc1

/-- Parsing of a frame from its port profile's FIRST_NODE. -/
def Body.parseFrame (b : Body) (e p : Nat) (l : List Byte) (len : Nat) : List Inst × Nat :=
  b.parse e l len 16 (b.fget clsIntake (profileInst e p) FProfile.firstNode) 0 []

/-! Keys (R95, R96). -/

/-- The index of the instance of a type with an occurrence, 15 for the last. -/
def findInst (l : List Inst) (htype occur : Nat) : Option Nat :=
  let ix := (l.zipIdx.filter (fun p => p.1.htype == htype)).map (fun p => p.2)
  if occur = 15 then ix.getLast? else ix[occur]?

/-- What a key can read of a pass: its bytes, instances and attribute block. -/
structure View where
  data : List Byte
  len : Nat
  insts : List Inst
  attrs : List Nat
  metadata : Nat
  deriving DecidableEq, Repr

/-- The attribute block (Table 4.3). -/
def attrBlock (x : Pass) (status n : Nat) : List Nat :=
  [x.frame.port, if x.frame.port = 65 then x.frame.tent else 0xFF, x.pass, x.epoch, status, n,
    x.frame.length / 256 % 256, x.frame.length % 256]

/-- The bytes of a segment whose descriptor is the word `w` (Table 4.13). -/
def View.segment (v : View) (w : Nat) : List Nat :=
  let src := bitsAt w 0 2
  let off := bitsAt w 16 8
  let n := bitsAt w 24 5
  (List.range (if src = 0 then 0 else n)).map (fun k =>
    if src = 1 then
      match (findInst v.insts (bitsAt w 8 8) (bitsAt w 4 4)).bind (fun i => v.insts[i]?) with
      | some x => seenByte v.data v.len (x.off + off + k)
      | none => 0
    else if src = 2 then (if off + k < 8 then bitsAt v.metadata (8 * (7 - (off + k))) 8 else 0)
    else v.attrs.getD (off + k) 0)

/-- A segment descriptor of an object as a word. -/
def Body.segWord (b : Body) (cls inst bit : Nat) : Nat :=
  b.fget cls inst (segSrc bit) + b.fget cls inst (segOccur bit) * 2 ^ 4 + b.fget cls inst (segHtype bit) * 2 ^ 8 +
    b.fget cls inst (segOffset bit) * 2 ^ 16 + b.fget cls inst (segLength bit) * 2 ^ 24

/-- Segments 0 to 7 of an object, concatenated. -/
def Body.keyBytes (b : Body) (cls inst : Nat) (bit : Nat → Nat) (v : View) : List Nat :=
  (List.range 8).flatMap (fun k => v.segment (b.segWord cls inst (bit k)))

/-- The key of a stage: the first byte in bits 127:120, ANDed with KEY_MASK (R95). -/
def Body.stageKey (b : Body) (si : Nat) (v : View) : Nat :=
  let l := (b.keyBytes clsStage si stageSegBit v).take 16
  ((l.zipIdx.map (fun p => p.1 * 2 ^ (120 - 8 * p.2))).sum) &&& b.fget clsStage si FStage.keyMask

/-! Stages (R97, R98, R263). -/

/-- Whether a stage looks up a DRAM-resident table. -/
def Body.stageInDram (b : Body) (si : Nat) : Bool :=
  let n := b.fget clsStage si FStage.tableId
  b.fget clsStage si FStage.stageType == 1 && decide (n < 4096) && b.tableOn n && b.fget clsTable n FTable.kind == 2

/-- The lookup of a stage: the result of a hit. -/
def Body.stageLookup (b : Body) (si key : Nat) : Option Nat :=
  let n := b.fget clsStage si FStage.tableId
  match b.fget clsStage si FStage.stageType with
  | 1 =>
    let k := b.fget clsTable n FTable.kind
    if n < 4096 ∧ b.tableOn n ∧ k ≠ 3 then b.exactLookup n key else none
  | 2 =>
    if b.prefixOn n ∧ b.fget clsPrefix n FPrefix.family = b.fget clsStage si FStage.family then
      (b.prefixLookup n key).map (fun r => r.1)
    else none
  | 3 =>
    if n < 4096 ∧ b.tableOn n ∧ b.fget clsTable n FTable.kind = 3 then
      b.indexLookup n (key / 2 ^ (128 - b.fget clsStage si FStage.indexBits))
    else none
  | _ => none

/-! Actions (R99, Table 4.5). -/

/-- One action word with the stage's ARG; `none` is DROP. -/
def Pass.act (x : Pass) (w arg : Nat) : Option Pass :=
  let imm := bitsAt w 32 32
  match bitsAt w 0 4 with
  | 1 => some { x with edits := x.edits ++ [(w, arg)] }
  | 2 => some { x with edits := x.edits ++ [(w, arg)] }
  | 3 => some { x with edits := x.edits ++ [(w, arg)] }
  | 4 => some { x with
      metadata := setBits x.metadata (bitsAt w 4 6) (bitsAt w 10 6 + 1) (if w.testBit 16 then arg else imm) }
  | 5 => some { x with furrow := some (if w.testBit 4 then arg % 2 ^ 16 else bitsAt w 32 16) }
  | 6 => some { x with cls := if w.testBit 4 then arg % 8 else bitsAt w 32 3 }
  | 7 => some { x with
      program := some ⟨bitsAt w 4 8, w.testBit 12, bitsAt w 13 4, bitsAt w 32 12, bitsAt w 44 12 + 1⟩ }
  | 8 => some { x with recirculate := true }
  | 9 => none
  | 10 => some { x with command := true }
  | _ => some x

/-- The four words of an action set in order. -/
def Body.actSet (b : Body) (x : Pass) (set arg : Nat) : Option Pass :=
  (List.range 4).foldl (fun (m : Option Pass) j =>
    m.bind (fun y => y.act (b.fget clsIntake (actionInst x.epoch set) (actionWord j)) arg)) (some x)

/-- Where classification stands: dropped, at an end, or before a stage. -/
inductive Cls
  | dropped
  | ended (x : Pass)
  | atStage (x : Pass)
  deriving DecidableEq, Repr

/-- What keys see of a pass. -/
def Body.view (b : Body) (x : Pass) : View :=
  let l := b.bufData x.frame.buffer
  let p := b.parseFrame x.epoch x.frame.port l x.frame.length
  ⟨l, x.frame.length, p.1, attrBlock x p.2 p.1.length, x.metadata⟩

/-- One stage: key, lookup, action set, next stage (R97). -/
def Body.runStage (b : Body) (tm : Time) (x : Pass) : Cls × Body :=
  let si := stageInst x.epoch x.stage
  let key := b.stageKey si (b.view x)
  let hit := b.stageLookup si key
  let tb := b.fget clsStage si FStage.tableId
  let b0 := if b.stageInDram si then (b.rateLookup tm.cycle).readBuckets (b.tableGeo tb) ⟨key, 0, 0⟩ else b
  let b1 := b0.bump clsStage si FStage.lookups 1
  let b2 := if hit.isSome then b1.bump clsStage si FStage.hits 1 else b1
  let r := hit.getD (b.fget clsStage si FStage.missResult)
  match b.actSet x (bitsAt r 0 12) (bitsAt r 16 48) with
  | none => (.dropped, b2)
  | some y =>
    let nx := bitsAt r 12 3
    if r.testBit 15 ∨ nx ≤ x.stage then (.ended y, b2) else (.atStage { y with stage := nx }, b2)

/-- Stages run until an end, a drop or a DRAM-resident stage. -/
def Body.runStages (b : Body) (tm : Time) : Nat → Pass → Cls × Body
  | 0, x => (.ended x, b)
  | n + 1, x =>
    if b.stageInDram (stageInst x.epoch x.stage) then (.atStage x, b)
    else match b.runStage tm x with
      | (.atStage y, b1) => b1.runStages tm n y
      | r => r

/-! Edits (R100). -/

/-- The frame under edit: bytes without FCS, instances, pushes made, edits skipped, whether one has taken effect. -/
structure Edit where
  data : List Byte
  insts : List Inst
  pushes : Nat
  skipped : Nat
  changed : Bool
  deriving DecidableEq, Repr

/-- Instances from index `i` on, moved by `d` bytes. -/
def shiftInsts (l : List Inst) (i : Nat) (d : Int) : List Inst :=
  l.zipIdx.map (fun p => if i ≤ p.2 then { p.1 with off := (p.1.off + d).toNat } else p.1)

/-- The value bytes of a REWRITE. -/
def rewriteBytes (w arg : Nat) : List Byte :=
  beBytes (bitsAt w 24 3) (if w.testBit 27 then arg else bitsAt w 32 32)

/-- One recorded edit; `none` is a limit that discards the frame. -/
def Edit.apply (e : Edit) (w arg : Nat) : Option Edit :=
  match (findInst e.insts (bitsAt w 4 8) (bitsAt w 12 4)).bind (fun i => (e.insts[i]?).map (fun x => (i, x))) with
  | none => some { e with skipped := e.skipped + 1 }
  | some (i, x) =>
    if x.gone then some { e with skipped := e.skipped + 1 }
    else match bitsAt w 0 4 with
      | 1 =>
        let off := bitsAt w 16 8
        let v := rewriteBytes w arg
        if x.len < off + v.length then some { e with skipped := e.skipped + 1 }
        else
          let d1 := putBytes e.data (x.off + off) v
          let d2 :=
            if w.testBit 28 ∧ 12 ≤ x.len then
              let hdr := fun (l : List Byte) => (l.drop x.off).take x.len
              putBytes d1 (x.off + 10)
                (beBytes 2 (csumUpdate (be16 d1 (x.off + 10)) (wordSum (hdr d1) - wordSum (hdr e.data))))
            else d1
          some { e with data := d2, changed := true }
      | 2 =>
        let vsrc := bitsAt w 17 2
        let imm := bitsAt w 32 32
        let v := if vsrc = 0 then imm else if vsrc = 1 then arg % 2 ^ 32 else imm / 2 ^ 16 * 2 ^ 16 + arg % 2 ^ 16
        let at0 := if w.testBit 16 then x.off + x.len else x.off
        if 3 ≤ e.pushes ∨ 16383 < e.data.length + 8 then none
        else some { e with
          data := e.data.take at0 ++ beBytes 4 v ++ e.data.drop at0
          insts := shiftInsts e.insts (if w.testBit 16 then i + 1 else i) 4
          pushes := e.pushes + 1, changed := true }
      | _ =>
        some { e with
          data := e.data.take x.off ++ e.data.drop (x.off + x.len)
          insts := shiftInsts (e.insts.set i { x with gone := true }) (i + 1) (-(x.len : Int))
          changed := true }

/-- The edits in order, up to one that passes a limit (`false`). -/
def applyEdits (e : Edit) (l : List (Nat × Nat)) : Edit × Bool :=
  l.foldl (fun (m : Edit × Bool) w =>
    if m.2 then (match m.1.apply w.1 w.2 with
      | some x => (x, true)
      | none => (m.1, false))
    else m) (e, true)

/-! Discards and drafts (R99 to R107, R479). -/

/-- A pass is discarded before acceptance: counted, its buffer freed, its epoch's count lowered, a TX entry's outcome
known. -/
def Body.discardPass (b : Body) (x : Pass) (port : Nat) (c : Fld) (reason : Nat) : Body :=
  (((b.bump clsIntake (inCnt port) c 1).releaseBuf x.frame.buffer).addFlight x.epoch (-1)).noteOutcome x.frame.ring reason

/-- The queue of a draft and the round-robin counter (R103 to R106); the hash key reads the frame as received (R95). -/
def Body.spread (b : Body) (x : Pass) (v : View) (f t : Nat) : Nat × Body :=
  let n := 1048576 / b.tents
  if x.recirculate then (queueBase b.nLogN t + b.fget clsIntake 0 FIntake.recircOffset % n, b)
  else
    let p := x.program.getD ⟨0, false, 0, 0, 1⟩
    if p.roundRobin then
      let c := mapGet 0 f b.net.rr
      let e := (p.first + c % p.count) % 4096
      (queueBase b.nLogN t + b.fget clsIntake (indirInst t e) FIndir.queueOffset % n,
        { b with net.rr := mapPut f ((c + 1) % 4096) b.net.rr })
    else
      let i := hashInst x.epoch p.profile
      let key := (b.keyBytes clsIntake i hashSegBit v).take 48
      let e := crc32c (b.fget clsIntake i hashSeed) (key.map (BitVec.ofNat 8)) % 4096
      (queueBase b.nLogN t + b.fget clsIntake (indirInst t e) FIndir.queueOffset % n, b)

/-- An edited frame takes a buffer that holds it (R310): `none` where none can be taken, with the pool. -/
def Body.rebuffer (b : Body) (h : Nat) (data : List Byte) : Except Nat (Nat × Body) :=
  if data.length ≤ poolSize (handlePool h) then
    .ok (h, b.putBuf h data)
  else
    let k := (smallestPool data.length).getD 6
    let old := match b.buf? h with
      | some y => if y.charge = .rx then poolSize (handlePool h) else 0
      | none => 0
    match (if b.charged .rx - old + poolSize k ≤ b.quota .rx then b.takeBuf k .rx .rx data else none) with
    | some (h1, b1) => .ok (h1, b1.releaseBuf h)
    | none => .error k

/-- The descriptor of a draft. -/
def Pass.desc (x : Pass) (h len f t : Nat) : Desc :=
  { buffer := h, length := len, port := x.frame.port, furrow := f, seq := 0, tent := t, epoch := x.epoch, pass := x.pass
    cls := x.cls, flags := (if x.internal then 2 else 0) + (if x.command then 16 else 0), ts := x.ts
    metadata := x.metadata }

/-- The end of classification without DROP: the discards of R479, edits, spreading, hand-off. -/
def Body.endPass (b : Body) (x : Pass) : Body :=
  match x.furrow with
  | none => b.discardPass x x.frame.port FInCnt.unclassified 0x22
  | some f =>
    let t := furrowTent b.nLogN f
    if x.program.isNone ∧ ¬ x.recirculate ∨ b.tents ≤ t then b.discardPass x x.frame.port FInCnt.unclassified 0x22
    else if x.frame.port = 65 ∧ x.frame.tent ≠ t then b.discardPass x 65 FInCnt.crossTent 0x23
    else if x.pass = 3 ∧ x.recirculate then b.discardPass x 66 FInCnt.passLimit 0x22
    else
      let v := b.view x
      let whole := frameBytes v.data v.len 0 v.len
      let e0 : Edit := ⟨whole.take (v.len - 4), v.insts, 0, 0, false⟩
      let r := applyEdits e0 x.edits
      let e := r.1
      let b1 := b.bump clsIntake (inCnt x.frame.port) FInCnt.editSkipped e.skipped
      if !r.2 then b1.discardPass x x.frame.port FInCnt.editOver 0x24
      else
        let data := if e.changed then padTo 60 e.data ++ whole.drop (v.len - 4) else whole
        match (if e.changed then b1.rebuffer x.frame.buffer data else .ok (x.frame.buffer, b1)) with
        | .error k =>
          (((b1.bump clsPool 0x100 FPoolDev.editNoBuffer 1).bump clsPool k FPool.allocFails 1).releaseBuf
            x.frame.buffer).addFlight x.epoch (-1) |>.noteOutcome x.frame.ring 0x25
        | .ok (h, b2) =>
          let q := b2.spread x v f t
          q.2.handDraft ⟨x.desc h data.length f t, (x.program.map (fun p => p.number)).getD 0, q.1, x.frame.ring, q.2.clock⟩

def Body.passes (b : Body) (p : Nat) : List Waiting := mapGet [] p b.net.waiting
def Body.setPasses (b : Body) (p : Nat) (l : List Waiting) : Body :=
  { b with net.waiting := if l = [] then mapDel p b.net.waiting else mapPut p l b.net.waiting }

/-- Passes whose classification has ended are handed on in the order of their port, up to one whose stage has not
answered (R90), or whose frame lies in a frozen channel (R346). -/
def Body.goesOn (b : Body) (w : Waiting) : Bool := w.ended && !b.bufHeld w.pass.frame.buffer
def Body.flushPasses (b : Body) (p : Nat) : Body :=
  let l := b.passes p
  (l.takeWhile b.goesOn).foldl (fun (x : Body) w => x.endPass w.pass) (b.setPasses p (l.dropWhile b.goesOn))

/-- A pass takes its place behind the earlier frames of its port: dropped at once, or handed on in its turn. -/
def Body.placePass (b : Body) (p : Nat) : Cls → Pass → Body
  | .dropped, x => b.discardPass x p FInCnt.dropped 0x21
  | .ended y, _ => (b.setPasses p (b.passes p ++ [⟨y, true⟩])).flushPasses p
  | .atStage y, _ => b.setPasses p (b.passes p ++ [⟨y, false⟩])

/-- A frame enters Intake (R88, R91, R107 to R109): its pass begins. -/
def Body.enterIntake (b : Body) (tm : Time) (f : InFrame) : Body :=
  let b1 := b.bump clsIntake (inCnt f.port) FInCnt.framesIn 1
  let own := decide (f.port = 65 ∨ f.port = 67)
  let active := b.fget clsIntake 0 FIntake.activeEpoch
  let x0 : Pass :=
    match f.prior with
    | some d => { frame := f, epoch := d.epoch, pass := d.pass + 1, internal := d.flags.testBit 1, ts := d.ts, stage := 0
                  metadata := 0, furrow := none, cls := 0, program := none, recirculate := false, command := false
                  edits := [] }
    | none => { frame := f, epoch := active, pass := 0, internal := own, ts := if own then tm.now else f.ts, stage := 0
                metadata := 0, furrow := none, cls := 0, program := none, recirculate := false, command := false
                edits := [] }
  if 3 < x0.pass then b1.discardPass x0 66 FInCnt.passLimit 0x22
  else
    let b2 := if f.prior.isNone then b1.addFlight active 1 else b1
    let pi := profileInst x0.epoch f.port
    let x := { x0 with
      stage := b2.fget clsIntake pi FProfile.firstStage, metadata := b2.fget clsIntake pi FProfile.initMeta }
    let b3 := if (b2.parseFrame x.epoch f.port (b2.bufData f.buffer) f.length).2 = 0 then b2
              else b2.bump clsIntake (inCnt f.port) FInCnt.parseIncomplete 1
    let r := b3.runStages tm 8 x
    r.2.placePass f.port r.1 x

/-- INTAKE_ENTRY (R88): the head of a port's input queue enters Intake, unless the CORE domain stands still (R454) or its
frame lies in a frozen channel (R346). -/
def execIntakeEntry (p : Nat) (s : State) : Host.Outcome State Fault Refusal :=
  onBuf (fun tm b =>
    match b.inputQueue p with
    | f :: r => if b.asleep || b.bufHeld f.buffer then b else { b with net.input := mapPut p r b.net.input }.enterIntake tm f
    | [] => b) s

/-- Whether the stage that a pass waits for needs a frozen channel (R259). -/
def Body.stageHeld (b : Body) (x : Pass) : Bool :=
  let si := stageInst x.epoch x.stage
  let g := b.tableGeo (b.fget clsStage si FStage.tableId)
  b.stageInDram si && b.tableHeld g (g.candidates ⟨b.stageKey si (b.view x), 0, 0⟩)

/-- The stage that a pass waits for answers, and classification goes on. -/
def Body.resumeStage (b : Body) (tm : Time) (x : Pass) : Cls × Body :=
  match b.runStage tm x with
  | (.atStage y, b1) => b1.runStages tm 8 y
  | r => r

/-- The device in the cycle in which a kind 2 lookup may start (R340); TABLE_RATE_WAITS counts one that waits for it. -/
def Dev.lookupSlot (d : Dev) : Dev :=
  let k := d.b.rateSlot d.tm.cycle
  let d1 := d.waitCycle k
  if d.tm.cycle < k then { d1 with b := d1.b.bump clsDram 0 FDram.tableRateWaits 1 } else d1

/-- INTAKE_DRAM_STAGE_RETURN (R90, R97, R259): the lookup data arrive of the port's earliest pass that waits for them, from
channels that run, its lookup made in its slot (R340); its classification goes on, and what no longer waits for an earlier
frame is handed on. -/
def execIntakeDramStageReturn (p : Nat) (s : State) : Host.Outcome State Fault Refusal :=
  onDev (fun d0 =>
    let l := d0.b.passes p
    let i := l.findIdx (fun w => !w.ended && !d0.b.stageHeld w.pass)
    match l[i]? with
    | some w =>
      let d := d0.lookupSlot
      let b := match d.b.resumeStage d.tm w.pass with
        | (.dropped, b1) => ((b1.setPasses p (l.eraseIdx i)).discardPass w.pass p FInCnt.dropped 0x21).flushPasses p
        | (.ended y, b1) => (b1.setPasses p (l.set i ⟨y, true⟩)).flushPasses p
        | (.atStage y, b1) => b1.setPasses p (l.set i ⟨y, false⟩)
      { d with b := b.settle d.tm }
    | none => { d0 with b := (d0.b.flushPasses p).settle d0.tm }) s

/-! Epochs (R110). -/

/-- A write of SWAP: BUSY while the inactive epoch is live; else a swap is pending until the next cycle. -/
def Body.epochSwap (b : Body) : Nat × Body :=
  if b.epochLive (1 - b.fget clsIntake 0 FIntake.activeEpoch) then (stBusy, b)
  else (stOk, { b with net.swapping := true })

/-- HEADGATE_CHECK (R114, R115): the check of the next draft, in its cycle. The buffer of a refused frame is free in the
same cycle (R21), and flow control sees it (R65). -/
def execHeadgateCheck (s : State) : Host.Outcome State Fault Refusal :=
  onDev (fun d =>
    if d.b.work.drafts = [] then d
    else let d1 := d.waitCycle d.b.checkAt; { d1 with b := (d1.b.headgateCheck d1.tm).settle d1.tm }) s

end Sys2Proof.Machine
end

