-- ==== Sys2Proof/Machine/Rings.lean ====
section
/-! DEFINITION. Host rings: doorbells, TX service, RX delivery, notifications (spec/15, R379 to R386). -/

namespace Sys2Proof.Machine

/-- The TENT instance of host ring `r`, its tent, and the absolute number of a tent-relative ring (R396). -/
def ringObj (r : Nat) : Nat := 0x1000 + r
def Body.ringTent (b : Body) (r : Nat) : Nat := tentOf b.nLogN 4096 r
def Body.ringAbs (b : Body) (t r : Nat) : Nat := tentBase b.nLogN 4096 t + r
def Body.rg (b : Body) (r : Nat) (f : Fld) : Nat := b.fget clsTent (ringObj r) f

def Body.ringIs (b : Body) (r kind : Nat) : Bool := b.rg r FHostRing.enable == 1 && b.rg r FHostRing.kind == kind

/-- Entries that the host has produced and the device has not consumed: (TAIL - HEAD) mod 2^32. -/
def Body.ringLeft (b : Body) (r : Nat) : Nat := (b.rg r FHostRing.tail + 2 ^ 32 - b.rg r FHostRing.head) % 2 ^ 32

/-- The host address of entry `i` of a ring. -/
def Body.ringEntry (b : Body) (r i : Nat) : Nat := b.rg r FHostRing.base + 16 * (i % 2 ^ b.rg r FHostRing.lenLog2)

def Body.generation (b : Body) (t : Nat) : Nat := b.fget clsTent t FTent.generation

/-- A DMA write for a tent, with its PASID (R379). -/
def Body.hostWrite (b : Body) (t addr : Nat) (data : List Byte) : Body :=
  b.emit (.hostWrite t (if b.fget clsTent t FTent.pasidEn = 1 then some (b.fget clsTent t FTent.pasid) else none) addr data)

/-- An entry or record of a ring is complete: HEAD advances. -/
def Body.ringDone (b : Body) (r : Nat) : Body :=
  (b.bumpWrap clsTent (ringObj r) FHostRing.head 1).bump clsTent (ringObj r) FHostRing.entries 1

/-! Doorbells (R382). -/

/-- Whether the host reaches a tent: it exists and is not STRUCK (R376). -/
def Body.tentReached (b : Body) (t : Nat) : Bool := decide (t < b.tents) && b.fget clsTent t FTent.state != 0

/-- The status of a doorbell: the first check that fails, or OK. -/
def Body.doorbellCheck (b : Body) (t r : Nat) (whole : Bool) (v : Nat) : Nat :=
  if !whole then stBadLength
  else if bitsAt v 32 16 ≠ b.generation t then stGenerationStale
  else if bitsAt v 48 16 ≠ 0 then stReservedField
  else if b.rg r FHostRing.enable = 0 then stNotInMode
  else if 2 ^ b.rg r FHostRing.lenLog2 < (v % 2 ^ 32 + 2 ^ 32 - b.rg r FHostRing.head) % 2 ^ 32 then stOutOfRange
  else stOk

/-- A doorbell of the tent's ring: TAIL moves, or the doorbell is ignored with a status. -/
def Body.doorbell (b : Body) (t rel : Nat) (whole : Bool) (v : Nat) : Body :=
  if b.tentReached t && decide (rel < 4096 / b.tents) then
    let r := b.ringAbs t rel
    let st := b.doorbellCheck t r whole v
    if st = stOk then
      let b1 := b.fset clsTent (ringObj r) FHostRing.tail (v % 2 ^ 32)
      if b1.rg r FHostRing.creditEn = 1 ∧ 2 ≤ b1.rg r FHostRing.kind ∧ b.ringLeft r < b1.ringLeft r then
        b1.setFlags (queueBase b1.nLogN t + b1.rg r FHostRing.creditQueue % (1048576 / b1.tents)) 8
      else b1
    else
      (b.fset clsTent (ringObj r) FHostRing.doorbellStatus st).bump clsTent (ringObj r) FHostRing.doorbellErrors 1
  else b

/-- HOST_DOORBELL (R382): a write to a doorbell; `whole` where it is one 64-bit write. -/
def execHostDoorbell (t : Nat) (ring : Nat) (whole : Bool) (v : BitVec 64) (s : State) : Host.Outcome State Fault Refusal :=
  onBody (fun _ b => if b.hostIn then b.doorbell t ring whole v.toNat else b) s

/-! TX rings (R383, R386). -/

/-- The next entry of a TX ring to serve. -/
def Body.txNextOf (b : Body) (r : Nat) : Nat :=
  mapGet (b.rg r FHostRing.head) r b.host.txNext

/-- Whether a TX ring may be served. -/
def Body.txServable (b : Body) (r : Nat) : Bool :=
  b.ringIs r 1 && b.txNextOf r != b.rg r FHostRing.tail && b.fget clsTent (b.ringTent r) FTent.state == 1

/-- The rings that have fields of their own, among which the enabled ones are. -/
def Body.enabledRings (b : Body) : List Nat :=
  (b.fields.filter (fun e => decide (e.1 / 2 ^ 40 = clsTent ∧ 0x1000 ≤ e.1 / 2 ^ 16 % 2 ^ 24 ∧
    e.1 % 2 ^ 16 = FHostRing.enable.lo ∧ e.2 = 1))).map (fun e => e.1 / 2 ^ 16 % 2 ^ 24 - 0x1000)

/-- The ring whose turn it is: round-robin from `txTurn`. -/
def Body.txTurnRing (b : Body) : Option Nat :=
  let l := b.enabledRings.filter (fun r => b.txServable r)
  match l.find? (fun r => decide (b.host.txTurn ≤ r)) with
  | some r => some r
  | none => l.head?

def entryLength (e : Nat) : Nat := bitsAt e 64 14

/-- The reason that step 1 gives an entry, if it fails. -/
def Body.txEntryReason (b : Body) (r e : Nat) : Option Nat :=
  let n := entryLength e
  if bitsAt e 78 2 ≠ 0 ∨ bitsAt e 120 8 ≠ 0 then some 0x33
  else if n < 60 ∨ 16379 < n ∨ poolSize (b.rg r FHostRing.pool) < n + 4 then some 0x32
  else none

/-- An entry leaves the ring for service. -/
def Body.txTake (b : Body) (r : Nat) (x : TxEnt) : Body :=
  { b with host.tx := b.host.tx ++ [x], host.txNext := mapPut r ((b.txNextOf r + 1) % 2 ^ 32) b.host.txNext }

/-- The device serves the TX ring whose turn it is. -/
def Body.txServe (b : Body) (entry : Nat) : Body :=
  let flying := (b.host.tx.filter (fun x => decide (x.stage = .reading))).length
  if 256 ≤ (b.inputQueue 65).length + flying then b
  else
    match b.txTurnRing with
    | none => b
    | some r =>
      let t := b.ringTent r
      let b0 := { b with host.txTurn := r + 1 }
      let x : TxEnt := ⟨r, b.txNextOf r, b.generation t, entry, 0, .known 0x30⟩
      match b0.txEntryReason r entry with
      | some k => b0.txTake r { x with stage := .known k }
      | none =>
        let p := b0.rg r FHostRing.pool
        if b0.chargeFits (.host t) (poolSize p) then
          match b0.takeBuf p (.host t) (.host t) [] with
          | some (h, b1) => b1.txTake r { x with buffer := h, stage := .reading }
          | none => b0
        else (b0.bump clsPool (0x200 + t) FPoolTent.hostRefused 1).txTake r x

/-- TX_RING_SERVE (R383): steps 1 and 2 for the entry that the ring in turn holds, and the start of its DMA read. -/
def execTxRingServe (entry : BitVec 128) (s : State) : Host.Outcome State Fault Refusal :=
  onBuf (fun _ b => if b.hostIn then b.txServe entry.toNat else b) s

/-- An entry's stage changes. -/
def Body.txStage (b : Body) (x : TxEnt) (st : TxStage) : Body :=
  { b with host.tx := b.host.tx.map (fun y => if y = x then { y with stage := st } else y) }

def Body.txDrop (b : Body) (x : TxEnt) : Body := { b with host.tx := b.host.tx.filter (fun y => decide (y ≠ x)) }

/-- GEN_STALE of a tent counts. -/
def Body.stale (b : Body) (t : Nat) : Body := b.bump clsTent t FTent.genStale 1

/-- TX_DMA_COMPLETE (R383, R386): the earliest read of the ring ends; the frame enters Intake on port 65, or the read
fails, or it is discarded as stale. -/
def execTxDmaComplete (ring : Nat) (data : Option (List Byte)) (s : State) : Host.Outcome State Fault Refusal :=
  onBuf (fun _ b =>
    match b.host.tx.find? (fun x => x.ring == ring && decide (x.stage = .reading)) with
    | none => b
    | some x =>
      let t := b.ringTent ring
      if x.gen ≠ b.generation t then (((b.releaseBuf x.buffer).txDrop x)).stale t
      else match data with
        | none => (b.releaseBuf x.buffer).txStage x (.known 0x31)
        | some l =>
          let n := entryLength x.entry
          let b1 := b.putBuf x.buffer (frameBytes l n 0 n)
          let b2 := (b1.handoff x.buffer (.host t) .rx).2
          (b2.toIntake ⟨x.buffer, n + 4, 65, 0, some ring, t, none⟩).txStage x .inside) s

/-- STATUS of a ring reason (Table 15.7). -/
def reasonStatus (k : Nat) : Nat :=
  if k = 0 then stOk
  else if k = 0x30 then stRefusedShare
  else if k = 0x31 then stOutOfRange
  else if k = 0x32 then stBadLength
  else if k = 0x33 then stReservedField
  else stBusy

/-- The known outcomes of frames reach the entries that they belong to, in ring order (R90). -/
def Body.matchOutcomes (b : Body) (ring : Nat) : Body :=
  match b.work.outcomes.find? (fun o => o.1 == ring), b.host.tx.find? (fun x => x.ring == ring && decide (x.stage = .inside)) with
  | some o, some x => ({ b with work.outcomes := b.work.outcomes.erase o }).txStage x (.known o.2)
  | _, _ => b

/-- STATUS and REASON are written into an entry. -/
def Body.writeOutcome (b : Body) (t r i k : Nat) : Body :=
  b.hostWrite t (b.ringEntry r i + 12) (leBytes 2 (reasonStatus k) ++ leBytes 1 k)

/-- The earliest entry of a ring, its outcome known, is written back; a stale one is discarded (R386). -/
def Body.txWriteback (b : Body) (ring : Nat) : Body :=
  match b.host.tx.find? (fun x => x.ring == ring) with
  | none => b
  | some x =>
    match x.stage with
    | .known k =>
      let t := b.ringTent ring
      let b1 := b.txDrop x
      if x.gen ≠ b.generation t then b1.stale t
      else
        let b2 := (b1.writeOutcome t ring x.index k).ringDone ring
        if k = 0 then b2 else b2.bump clsTent t FTent.txNotAccepted 1
    | _ => b

/-- TX_OUTCOME_WRITEBACK (R383): STATUS and REASON go back into the entry and HEAD advances. -/
def execTxOutcomeWriteback (ring : Nat) (s : State) : Host.Outcome State Fault Refusal :=
  onBody (fun _ b => if b.hostOut then (b.matchOutcomes ring).txWriteback ring else b) s

/-! RX rings (R384). -/

/-- The lowest-numbered enabled RX ring of a tent that serves a class. -/
def Body.rxRing (b : Body) (t c : Nat) : Option Nat :=
  b.enabledRings.find? (fun r => b.ringTent r == t && b.ringIs r 2 && b.rg r FHostRing.cls == c)

/-- The first frame of a tent in a class queue of port 65. -/
def Body.rxHead (b : Body) (t c : Nat) : Option EgFrame := (b.egQueue 65 c).find? (fun f => f.desc.tent == t)

/-- A frame meets the next RX entry of its ring: too small a buffer completes with a reason, else frame, entry and HEAD
are written and the buffer reference is released (R318). -/
def Body.rxDeliver (b : Body) (t c entry : Nat) : Body :=
  match b.rxHead t c, b.rxRing t c with
  | some f, some r =>
    if b.ringLeft r = 0 ∨ b.unjudged f ∨ b.bufHeld f.buffer then b
    else
      let i := b.rg r FHostRing.head
      let n := (b.handBytes f).length
      if entryLength entry < n then (b.writeOutcome t r i 0x32).ringDone r
      else
        let b1 := (b.bufRead f.buffer 0 f.length).hostWrite t (bitsAt entry 0 64) (b.handBytes f)
        let b2 := b1.hostWrite t (b1.ringEntry r i + 8)
          (leBytes 2 (n + bitsAt entry 78 2 * 2 ^ 14) ++ leBytes 2 (bitsAt entry 80 16) ++ leBytes 2 stOk ++ leBytes 1 0)
        let b3 := (b2.ringDone r).setEgQueue 65 c ((b2.egQueue 65 c).filter (fun g => decide (g.num ≠ f.num)))
        (b3.freeBuf f.buffer .egress).2
  | _, _ => b

/-- RX_RING_DELIVER (R384). -/
def execRxRingDeliver (t : Nat) (cls : Nat) (entry : BitVec 128) (s : State) : Host.Outcome State Fault Refusal :=
  onBuf (fun _ b => if b.hostOut then b.rxDeliver t cls entry.toNat else b) s

/-! Notifications (R384). -/

/-- Whether `k` notifications have room in a ring: an enabled notify ring with that many entries left. -/
def Body.notifyRoom (b : Body) (r k : Nat) : Bool := b.ringIs r 3 && decide (k ≤ b.ringLeft r)

/-- NOTIFY_WRITE: a notification record at HEAD (R381). -/
def Body.notify (b : Body) (r code data : Nat) : Body :=
  let t := b.ringTent r
  (b.hostWrite t (b.ringEntry r (b.rg r FHostRing.head)) (leBytes 2 code ++ [0, 0] ++ leBytes 12 data)).ringDone r

/-! Host reset (R385). -/

/-- A host reset of a tent. -/
def Body.hostReset (b : Body) (t : Nat) : Body :=
  let b1 := b.bumpWrap clsTent t FTent.generation 1
  let mine := b1.enabledRings.filter (fun r => b1.ringTent r == t)
  let all := (List.range (4096 / b1.tents)).map (fun k => b1.ringAbs t k)
  let b2 := mine.foldl (fun (x : Body) r => x.fset clsTent (ringObj r) FHostRing.enable 0) b1
  let b3 := { b2 with
    fields := b2.fields.filter (fun e =>
      !(decide (e.1 / 2 ^ 40 = clsTent) && decide (0x1000 ≤ e.1 / 2 ^ 16 % 2 ^ 24) &&
        b2.ringTent (e.1 / 2 ^ 16 % 2 ^ 24 - 0x1000) == t &&
        (e.1 % 2 ^ 16 == FHostRing.head.lo || e.1 % 2 ^ 16 == FHostRing.tail.lo)))
    host.txNext := b2.host.txNext.filter (fun e => !(all.contains e.1)) }
  b3.abandon (.host t)

end Sys2Proof.Machine
end

