-- ==== Sys2Proof/Machine/Outfall.lean ====
section
/-! DEFINITION. The Outfall: commit requests, the log store, releases and diversions (spec/09, R234 to R246; spec/07,
R192, R200; spec/02, R47, R49; spec/04, R109, R111). -/

namespace Sys2Proof.Machine

/-! Conditions of release (R240). -/

/-- Condition 2: a frame item of an ordinary queue is next in its furrow. -/
def Body.inTurn (b : Body) (it : Item) : Bool := !it.ordinary || it.desc.seq == b.relSeq it.desc.furrow

/-- The committed messages of a log, by thread and endpoint: the words that they need. -/
def logWords (l : List LogEntry) (p e : Nat) : Nat :=
  (l.map (fun x => match x with | .chan _ q k ws => if q = p ∧ k = e then ws.length else 0 | _ => 0)).sum

/-- Condition 3: every committed channel message has room; one to a retired thread is delivered and lost. -/
def Body.chanRoom (b : Body) (it : Item) : Bool :=
  it.log.all (fun x => match x with
    | .chan _ p e _ => !b.live p || decide ((b.hart p).wordsIn e + logWords it.log p e ≤ 16)
    | _ => true)

/-- Fields of an STG body (Tables 9.2, 9.3): whether every reserved bit is 0. -/
def bodyReserved (kind body : Nat) : Bool :=
  match kind with
  | 0 => body.testBit 47 || body.testBit 55 || body.testBit 63 || bitsAt body 76 4 != 0 || bitsAt body 112 16 != 0
  | 1 => bitsAt body 53 75 != 0
  | 2 => bitsAt body 37 27 != 0
  | 3 => bitsAt body 25 7 != 0 || bitsAt body 64 64 != 0
  | _ => bitsAt body 12 4 != 0

/-- The notifications of a log to an absolute ring. -/
def Body.logNotes (b : Body) (it : Item) (r : Nat) : Nat :=
  it.log.countP (fun x => match x with
    | .stg 4 v => !bodyReserved 4 v && decide (bitsAt v 0 12 < 4096 / b.tents) && b.ringAbs it.tent (bitsAt v 0 12) == r
    | _ => false)

/-- Condition 4: every host notification has room in its ring and a way to the host (R432, R437); one that R236 rejects
needs none. -/
def Body.notesRoom (b : Body) (it : Item) : Bool :=
  it.log.all (fun x => match x with
    | .stg 4 v =>
      if bodyReserved 4 v || decide (4096 / b.tents ≤ bitsAt v 0 12) then true
      else
        let r := b.ringAbs it.tent (bitsAt v 0 12)
        b.hostOut && b.notifyRoom r (b.logNotes it r)
    | _ => true)

/-- Whether a counter increment is one that R236 performs. -/
def Body.counterValid (b : Body) (t v : Nat) : Bool :=
  !bodyReserved 3 v &&
    decide (bitsAt v 0 24 + (if v.testBit 24 then 1 else 0) < b.fget clsOutfall (1 + t) FOut.ctrCount)

/-- Condition 5: no counter that the log raises lies behind a frozen channel. -/
def Body.channelsOpen (b : Body) (it : Item) : Bool :=
  it.log.all (fun x => match x with
    | .stg 3 v => !(b.counterValid it.tent v && b.dramHeld
        (b.fget clsOutfall (1 + it.tent) FOut.ctrBase + 8 * bitsAt v 0 24) (if v.testBit 24 then 16 else 8))
    | _ => true)

/-- Whether a Basin write of a log is one that R236 performs. -/
def Body.basinValid (b : Body) (v : Nat) : Bool :=
  !bodyReserved 2 v && decide (bitsAt v 0 20 < b.slotShare) && decide (bitsAt v 30 6 < 0x30)

/-- Condition 7: the Basin's input queue has room for every Basin write. -/
def Body.basinFits (b : Body) (it : Item) : Bool :=
  let n := it.log.countP (fun x => match x with | .stg 2 v => b.basinValid v | _ => false)
  decide (n = 0) || b.basinRoom n

/-- Conditions 2 to 5 and 7 of R240. -/
def Body.releasable (b : Body) (it : Item) : Bool :=
  b.inTurn it && b.chanRoom it && b.notesRoom it && b.channelsOpen it && b.basinFits it

/-! The order and the pace of releases (R240, R241). -/

/-- The furrow of which an item's release counts as one (R241). -/
def Item.paceFurrow (it : Item) : Option Nat := if it.isFrame then some it.desc.furrow else none

/-- The furrows of the releases already started in cycle `c`. -/
def Body.startedIn (b : Body) (c : Nat) : List (Option Nat) := if c = b.work.relCycle then b.work.relNow else []

/-- Whether a further release with this furrow may start beside those of one cycle: at most two, and one of a furrow. -/
def paceRoom (l : List (Option Nat)) (f : Option Nat) : Bool := decide (l.length < 2) && !(f.isSome && l.contains f)

/-- The earliest cycle in which an item may be released: two cycles after its request, and past a cycle that has no
room for it. -/
def Body.relCycleOf (b : Body) (tm : Time) (o : OItem) : Nat :=
  let c := max tm.cycle (if o.divert.isSome then 0 else o.reqCycle + 2)
  if paceRoom (b.startedIn c) o.item.paceFurrow then c else c + 1

/-- A release is noted for R241. -/
def Body.noteRelease (b : Body) (tm : Time) (it : Item) : Body :=
  { b with work.relCycle := tm.cycle, work.relNow := it.paceFurrow :: b.startedIn tm.cycle }

/-- Whether a memory error has stopped the release of an item (R321). -/
def Body.isStuck (b : Body) (o : OItem) : Bool := b.work.stuck.contains o.id || b.work.stuckSrc.contains o.item.src

/-! The order of committed messages (R156). -/

/-- The endpoints to which a log has committed messages. -/
def logEndpoints (l : List LogEntry) : List Nat := l.filterMap (fun e => match e with | .chan ep _ _ _ => some ep | _ => none)

/-- Whether commit `p` holds a message that its writer completed before one of `o` on the same endpoint. -/
def OItem.messagesBefore (p o : OItem) : Bool :=
  p.divert.isNone && o.divert.isNone && p.writer.isSome && p.writer == o.writer && decide (p.id < o.id) &&
    (logEndpoints p.item.log).any (fun e => (logEndpoints o.item.log).contains e)

/-- Whether `p` goes before `o` in their furrow. -/
def OItem.turnBefore (p o : OItem) : Bool :=
  p.item.ordinary && o.item.ordinary && p.item.desc.furrow == o.item.desc.furrow &&
    decide (0 < tickDiff o.item.desc.seq p.item.desc.seq)

/-- The items for which some item of `l` waits, in its furrow or for its messages, with those of `l`. -/
def Body.waitStep (b : Body) (l : List OItem) : List OItem :=
  b.work.commits.filter (fun p => l.contains p || l.any (fun q => p.turnBefore q || p.messagesBefore q))

/-- Everything that an item waits for, through others. -/
def Body.waitsFor (b : Body) (o : OItem) : List OItem := Nat.repeat b.waitStep b.work.commits.length [o]

/-- Whether every message that the writer completed before has been released. An item does not wait for one whose own
release must wait for it (assumption log 124). -/
def Body.messagesInTurn (b : Body) (o : OItem) : Bool :=
  (b.work.commits.filter (fun p => p.messagesBefore o)).all (fun p => (b.waitsFor p).contains o)

/-- A log that a halted thread keeps stays with it (R167). -/
def Body.keptHalted (b : Body) (o : OItem) : Bool :=
  decide (o.place = .thread) && (match o.thread with | some h => (b.hart h).halted | none => false)

/-- Whether a commit may be released but for conditions 1 and 6. An item that waits in the release stage meets
conditions 3 to 5 and 7 again when its release starts (R240). -/
def Body.mayCommit (b : Body) (o : OItem) : Bool :=
  o.divert.isNone && !b.isStuck o && b.releasable o.item && b.messagesInTurn o && !b.keptHalted o

/-- Whether a diversion may be released (R244, R245). -/
def Body.mayDivert (b : Body) (o : OItem) : Bool :=
  o.divert.isSome && !b.isStuck o && b.inTurn o.item && (!o.item.ordinary || b.recordFree o.item.tent)

def Body.mayRelease (b : Body) (o : OItem) : Bool := b.mayCommit o || b.mayDivert o

/-- Those of an ordered list that one cycle's releases can take beside those already started. -/
def paceTake : List (Option Nat) → List OItem → List OItem
  | _, [] => []
  | l, o :: r => if paceRoom l o.item.paceFurrow then o :: paceTake (o.item.paceFurrow :: l) r else paceTake l r

/-- The items that may be released, commits and diversions alike, in the order in which they go: earliest cycle, then
the order of R241. -/
def Body.releaseOrder (b : Body) (tm : Time) : List OItem :=
  sortBy (fun o p => decide (b.relCycleOf tm o < b.relCycleOf tm p) ||
    (decide (b.relCycleOf tm o = b.relCycleOf tm p) && itemOrder tm o.item p.item)) (b.work.commits.filter b.mayRelease)

/-- The releases of the next cycle in which any starts. -/
def Body.releaseWindow (b : Body) (tm : Time) : List OItem :=
  match b.releaseOrder tm with
  | [] => []
  | o :: r =>
    let c := b.relCycleOf tm o
    paceTake (b.startedIn c) ((o :: r).filter (fun p => decide (b.relCycleOf tm p = c)))

/-- The next release of a kind: the first of that kind among those of the next cycle in which any starts. -/
def Body.nextRelease (b : Body) (tm : Time) (divert : Bool) : Option OItem :=
  (b.releaseWindow tm).find? (fun o => o.divert.isSome == divert)

/-- Condition 6 in the cycle of a request (R238): the releases started in it and the items that go before leave room. -/
def Body.paceAllows (b : Body) (tm : Time) (it : Item) : Bool :=
  let before := (b.releaseOrder tm).filter (fun o => decide (b.relCycleOf tm o = tm.cycle) && itemOrder tm o.item it)
  paceRoom (((paceTake (b.startedIn tm.cycle) before).map (fun o => o.item.paceFurrow)) ++ b.startedIn tm.cycle)
    it.paceFurrow

/-! Commit requests (R200, R238). -/

/-- Whether the tent's share of the log store has room for an item. -/
def Body.logRoom (b : Body) (it : Item) : Bool :=
  decide (b.fget clsOutfall (1 + it.tent) FOut.logUsed + it.spaces ≤ 262144 / b.tents)

/-- An item's log goes into the store. -/
def Body.logIn (b : Body) (it : Item) : Body :=
  (b.bump clsOutfall (1 + it.tent) FOut.logUsed it.spaces).bump clsOutfall 0 FOut.logUsed it.spaces

/-- An item joins the Outfall. -/
def Body.addCommit (b : Body) (o : OItem) : Body := { b with work.commits := b.work.commits ++ [o] }

/-- The locks and counts that its deferred releases name go with an item's log when it leaves its thread (R352). -/
def Body.logLeaves (b : Body) (h : Nat) (o : OItem) : Body := b.passToItem h (o.item.holder o.id) o.item.staged

/-- The commit request of a thread's item (R238): straight to the release stage where conditions 2 to 7 hold, else to
the log store, else kept in the thread, whose held count stops (R137). -/
def Body.requestCommit (b : Body) (tm : Time) (h : Nat) (it : Item) : Body :=
  let (k, b1) := b.tick
  let o : OItem := ⟨k, some h, none, clusterOf h, it, none, .stage, tm.cycle⟩
  let b2 :=
    if b1.releasable it && b1.paceAllows tm it then ((b1.logLeaves h o).addCommit o).freeThread tm h
    else if b1.logRoom it then (((b1.logLeaves h o).addCommit { o with place := .store }).logIn it).freeThread tm h
    else
      (((b1.addCommit { o with place := .thread, thread := some h }).modHart h (fun x =>
        { x.stopHeld tm.cycle with phase := .committing, block := .handover false })).bump clsOutfall (1 + it.tent)
          FOut.storeWaits 1).bump clsOutfall 0 FOut.storeWaits 1
  b2.noteWaiting it

/-- The diversion request of a thread's item (R205, R244): a frame item goes to its furrow's exception queue, an
event-only item ends; deferred releases are performed at the release, or now where there is none. -/
def Body.requestDivert (b : Body) (tm : Time) (h : Nat) (it : Item) : Body :=
  if it.isFrame then
    let b1 := ((b.bump clsOutfall (1 + it.tent) FOut.divertProgram 1).bump clsOutfall 0 FOut.divertProgram 1).askDivert tm h
      it .program
    b1.freeThread tm h
  else
    let who := b.threadReleasers h
    let b1 := it.staged.foldl (fun (x : Body) e => match e with
      | .lockRel n => (x.releaseLock tm tm.cycle n who).2
      | .semRel n => (x.releaseSem tm.cycle n (.thread h)).2
      | _ => x) b
    (b1.endService it.queue).freeThread tm h

/-- The unread words of endpoints 1 to 3 are discarded; a grant so discarded is released at once (R200). -/
def Body.discardReplies (b : Body) (tm : Time) (h : Nat) : Body :=
  let t := b.masterTent h
  let grants := ((b.hart h).unread 2).filterMap List.head?
  let b1 := grants.foldl (fun (x : Body) w =>
    let n := bitsAt w.toNat 16 14
    if w.toNat.testBit 30 then (x.releaseSem (b.hartCycle tm h) (x.lockAbs true t n) (.thread h)).2
    else (x.releaseLock tm (b.hartCycle tm h) (x.lockAbs false t n) (x.threadReleasers h)).2) b
  b1.modHart h (fun x => { x with inbox := x.inbox.filter (fun e => !([1, 2, 3].contains e.1)) })

/-- A thread whose replies have all arrived hands its item over (R200); in a BUDGET_OVERRUN handler the thread only
becomes free (R206). Words staged for a message that no word ended are discarded here as R157 discards them where an item
ends otherwise: of an end by COMMIT or DIVERT the spec says nothing (DESIGN CHOICE; assumption log 150). -/
def Body.handOver (b : Body) (tm : Time) (h : Nat) (divert : Bool) : Body :=
  let b1 := (b.discardReplies tm h).modHart h (fun x => { x with inTrap := false, staging := [], block := .none })
  match (b1.hart h).item with
  | some it =>
    if it.overrun then b1.freeThread tm h
    else if divert then b1.requestDivert tm h it
    else b1.requestCommit tm h it
  | none => b1

/-- COMMIT and DIVERT end an item (R200): at once, or once every reply has arrived. -/
def Body.endItem (b : Body) (tm : Time) (h : Nat) (divert : Bool) : Body :=
  if (b.hart h).awaits then b.modHart h (fun x => { x with block := .handover divert, phase := .committing })
  else b.handOver tm h divert

/-- ITEM_HANDOVER (R200): the last outstanding reply of a thread that has executed COMMIT or DIVERT has arrived. -/
def execItemHandover (h : Nat) (s : State) : Host.Outcome State Fault Refusal :=
  onBuf (fun tm b =>
    match (b.hart h).block with
    | .handover d =>
      if !(b.hart h).halted && !(b.hart h).awaits && !b.work.commits.any (fun o => decide (o.thread = some h)) then b.handOver tm h d else b
    | _ => b) s

/-- LOG_STORE_ENTRY (R238): a log kept by its thread goes into the store when the tent has room, and the thread is
free. -/
def execLogStoreEntry (h : Nat) (s : State) : Host.Outcome State Fault Refusal :=
  onBuf (fun tm b =>
    match b.work.commits.find? (fun o => decide (o.thread = some h)) with
    | some o =>
      if b.logRoom o.item && !(b.hart h).halted then
        let b1 := { b with work.commits := b.work.commits.map (fun (x : OItem) =>
          if x.id = o.id then { x with place := .store, thread := none } else x) }
        ((b1.logLeaves h o).logIn o.item).freeThread tm h
      else b
    | none => b) s

/-! Final release (R239, R242). -/

/-- REL_SEQ advances past every finally released sequence. -/
def relAdvance (done : List (Nat × Nat)) (f : Nat) : Nat → Nat → Nat
  | 0, s => s
  | k + 1, s => if done.contains (f, s) then relAdvance done f k ((s + 1) % 2 ^ 32) else s

def Body.finalSeq (b : Body) (f seq : Nat) : Body :=
  let done := (f, seq) :: b.work.released
  let s := relAdvance done f done.length (b.relSeq f)
  { b.fset clsOutfall (outFur f) FOutFur.relSeq s with
    work.released := if seq = b.relSeq f then b.work.released else done }

/-- RELEASED counts (R242). -/
def Body.countReleased (b : Body) (it : Item) : Body :=
  let b1 := (b.bump clsOutfall 0 FOut.released 1).bump clsOutfall (1 + it.tent) FOut.released 1
  if it.isFrame then b1.bump clsOutfall (outFur it.desc.furrow) FOutFur.released 1 else b1

/-- What R242 does in the cycle of a release, but for the epoch counts: lateness, cycles, descriptor slot or record,
OUTSTANDING, RELEASED, REL_SEQ, and IN_SERVICE where a thread took the item from its queue. -/
def Body.finalRelease (b : Body) (tm : Time) (o : OItem) : Body :=
  let it := o.item
  let b1 := if it.isFrame then (b.judgeLate tm it.desc).bookCycles it.tent it.desc.cls it.cycles else b
  let b2 := match it.src with
    | .slot n =>
      ((b1.giveSlot n it.tent).drop clsFurrow it.desc.furrow FFurrow.outstanding 1).finalSeq it.desc.furrow it.desc.seq
    | .record n => b1.giveRecord n it.tent
    | .event => b1
  (if o.writer.isSome then b2.endService it.queue else b2).countReleased it

/-! Entries (R234 to R237). -/

/-- An entry that breaks a condition of R236 is counted and not performed. -/
def Body.reject (b : Body) (t : Nat) : Body :=
  (b.bump clsOutfall 0 FOut.entryRejected 1).bump clsOutfall (1 + t) FOut.entryRejected 1

/-- The frame that an egress enqueue sends: BUFFER and LENGTH. -/
def egressFrame (it : Item) (v : Nat) : Nat × Nat :=
  if v.testBit 46 then (it.desc.buffer, if bitsAt v 32 14 = 0 then it.desc.length else bitsAt v 32 14)
  else (v % 2 ^ 32, bitsAt v 32 14)

/-- The conditions of R236 on an egress enqueue; `named` that the frame has been named with FRAME = 1 before. They are
tested on PORT also where the enqueue goes to a generating stream, which ignores PORT (R80): the spec does not say that
R236 leaves it out there (DESIGN CHOICE; assumption log 146). -/
def Body.egressValid (b : Body) (it : Item) (v : Nat) (named : Bool) : Bool :=
  let p := bitsAt v 48 7
  let n := (egressFrame it v).2
  let fr := v.testBit 46
  !bodyReserved 0 v && decide (64 ≤ n ∧ n ≤ 16383 ∧ p ≤ 67) && b.portPresent p &&
    (it.isFrame || (!fr && !v.testBit 60 && decide (p ≠ 66))) &&
    !(fr && named && !pooledByRef (handlePool it.desc.buffer))

/-- The buffer of an enqueue passes to the egress scheduler (R237, Table 12.2): `none` where that is refused. -/
def Body.toEgress (b : Body) (t : Nat) (h : Nat) (frame : Bool) : Bool × Body :=
  let p := handlePool h
  let refused := fun (x : Body) => (false, if frame then x else x.bump clsPool p FPool.handoffRefused 1)
  if !b.handleOk h then (false, b)
  else if pooledByRef p then
    match b.buf? h with
    | some x =>
      if frame || decide (x.charge = .frame t) || decide (x.charge = .host t) then
        let r := b.addRef h
        (r.1 == stOk, r.2)
      else refused b
    | none => refused (b.addRef h).2
  else
    let from0 := match b.buf? h with
      | some x => if x.owner = .host t ∧ ¬ frame then Owner.host t else .frame t
      | none => .frame t
    let r := b.handoff h from0 .egress
    if r.1 = stOk then (true, r.2) else refused r.2

/-- What the entries of a release have done so far: whether the frame has been named with FRAME = 1 and sent, and the
enqueues to port 66. -/
structure Sent where
  named : Bool
  sent : Bool
  again : Nat
  deriving DecidableEq, Repr

/-- Whether an enqueue goes to port 66: a generating stream ignores PORT (R80). -/
def Body.toRecirc (b : Body) (t v : Nat) : Bool := decide (bitsAt v 48 7 = 66) && !b.generates t v

/-- The descriptor that a frame in egress carries: the item's (R83, R28), with the epoch under which it goes on. -/
def egressDesc (it : Item) (v h n epoch : Nat) : Desc :=
  if it.isFrame then
    let d := { it.desc with epoch := epoch }
    if v.testBit 46 then d else { d with buffer := h, length := n }
  else ⟨h, n, 0, 0, 0, it.tent, 0, 0, 0, 0, 0, 0⟩

/-- An egress enqueue (kind 0), of a frame that goes on under an epoch (R111). -/
def Body.releaseEgress (b : Body) (it : Item) (epoch v : Nat) (x : Sent) : Sent × Body :=
  let fr := v.testBit 46
  let y := { x with named := x.named || fr }
  if b.egressValid it v x.named then
    let (h, n) := egressFrame it v
    let r := b.toEgress it.tent h fr
    if r.1 then
      let again := b.toRecirc it.tent v
      let d := egressDesc it v h n epoch
      let f : EgFrame := ⟨0, h, n, d, it.program, false, v, none, false, none, .none, false, false⟩
      ({ y with sent := y.sent || fr, again := if again then y.again + 1 else y.again }, r.2.egEnqueue f)
    else (y, r.2)
  else (y, b.reject it.tent)

/-- A table update request (kind 1): its block is read from the scratchpad and handed to the table engine. -/
def Body.releaseTable (b : Body) (it : Item) (cluster v : Nat) : Body :=
  let a := v % 2 ^ 32
  let n := v.testBit 52
  let q := bitsAt v 32 20
  if !bodyReserved 1 v && decide (0x10000000 ≤ a ∧ a ≤ 0x100FFFE0 ∧ a % 32 = 0) && (!n || decide (q < 1048576 / b.tents)) then
    b.askTable (.staged cluster a (if n then some (queueBase b.nLogN it.tent + q) else none)) (some it.tent)
      (readLE b.mem.spad (spadAddr cluster a) 32)
  else b.reject it.tent

/-- A Basin write (kind 2) enters the input queue with its time (Table 9.3). -/
def Body.releaseBasin (b : Body) (it : Item) (v : Nat) : Body :=
  if b.basinValid v then
    let time := if v.testBit 36 then bitsAt v 64 64 else if it.isFrame then it.desc.ts else it.selTime
    b.basinEnter ⟨b.clock, 0, it.tent, bitsAt v 0 20, .write (bitsAt v 20 10) (bitsAt v 30 6) time⟩
  else b.reject it.tent

/-- A counter of a tent's counter area rises modulo 2^64 (R235). -/
def Body.addCounter (b : Body) (t i k : Nat) : Body :=
  let a := b.fget clsOutfall (1 + t) FOut.ctrBase + 8 * i
  b.dramWrite 3 0 a (leBytes 8 (leNat (b.dramBytes a 8) + k))

/-- A counter increment (kind 3). -/
def Body.releaseCounter (b : Body) (it : Item) (v : Nat) : Body :=
  let i := bitsAt v 0 24
  let pair := v.testBit 24
  if b.counterValid it.tent v then
    let b1 := b.addCounter it.tent i (bitsAt v 32 32)
    if pair then b1.addCounter it.tent (i + 1) (if it.isFrame then it.desc.length else 0) else b1
  else b.reject it.tent

/-- A host notification (kind 4). -/
def Body.releaseNote (b : Body) (it : Item) (v : Nat) : Body :=
  if !bodyReserved 4 v && decide (bitsAt v 0 12 < 4096 / b.tents) then
    b.notify (b.ringAbs it.tent (bitsAt v 0 12)) (bitsAt v 16 16) (bitsAt v 32 96)
  else b.reject it.tent

/-- One log entry is released. -/
def Body.releaseEntry (b : Body) (it : Item) (cluster epoch : Nat) (x : Sent) (e : LogEntry) : Sent × Body :=
  match e with
  | .stg 0 v => b.releaseEgress it epoch v x
  | .stg 1 v => (x, b.releaseTable it cluster v)
  | .stg 2 v => (x, b.releaseBasin it v)
  | .stg 3 v => (x, b.releaseCounter it v)
  | .stg _ v => (x, b.releaseNote it v)
  | .chan _ p ep ws => (x, if b.live p then b.pushMsg p ep ws else b)

/-- The staged writes of a release, in staging order (R190, R192). -/
def applyStaged (m : Memory) (cluster : Nat) : List Staged → Memory
  | [] => m
  | .store a v :: r => applyStaged (writeLE m (spadAddr cluster a) 4 v.toNat) cluster r
  | .add a v :: r =>
    applyStaged (writeLE m (spadAddr cluster a) 4 (readLE m (spadAddr cluster a) 4 + v.toNat)) cluster r
  | _ :: r => applyStaged m cluster r

/-- The deferred releases of an item, in staging order, in the name of the item or of its task (R357). -/
def Body.releaseDeferred (b : Body) (tm : Time) (o : OItem) : Body :=
  let w := o.item.holder o.id
  o.item.staged.foldl (fun (x : Body) e => match e with
    | .lockRel n => (x.releaseLock tm tm.cycle n [w, .task o.item.queue]).2
    | .semRel n => (x.releaseSem tm.cycle n w).2
    | _ => x) b

/-- The epoch under which the passes that a release starts run, and whether it is a remap (R111). -/
def Body.releaseEpoch (b : Body) (it : Item) : Nat × Bool :=
  let held := it.desc.flags.testBit 2 || it.desc.flags.testBit 3
  if held && !b.epochLive it.desc.epoch then (b.fget clsIntake 0 FIntake.activeEpoch, true) else (it.desc.epoch, false)

/-- The entries of a release, in log order, with the frame going on under an epoch. -/
def Body.releaseLog (b : Body) (it : Item) (cluster epoch : Nat) : Sent × Body :=
  it.log.foldl (fun (x : Sent × Body) l => x.2.releaseEntry it cluster epoch x.1 l) (⟨false, false, 0⟩, b)

/-- Where the release starts a pass, the frame takes its epoch of R111 in every descriptor the release makes of it, so
that every later pass of the frame carries it; else it keeps the epoch it has (DEDUCED; assumption log 148). -/
def Body.releaseEntries (b : Body) (it : Item) (cluster epoch : Nat) : Sent × Body :=
  if (b.releaseLog it cluster it.desc.epoch).1.again = 0 then b.releaseLog it cluster it.desc.epoch
  else b.releaseLog it cluster epoch

/-- The counts of R109 at a commit with `n` enqueues to port 66. -/
def Body.countPasses (b : Body) (it : Item) (n : Nat) (e : Nat × Bool) : Body :=
  if !it.isFrame then b
  else if it.desc.flags.testBit 2 || it.desc.flags.testBit 3 then
    if n = 0 then b
    else
      let b1 := b.addFlight e.1 n
      if e.2 then b1.bump clsIntake 0 FIntake.epochRemap 1 else b1
  else if n = 1 then b else b.addFlight it.desc.epoch (n - 1)

/-- The item's own hold on its frame ends (R237). -/
def Body.dropFrame (b : Body) (it : Item) (sent : Bool) : Body :=
  if !it.isFrame then b
  else if pooledByRef (handlePool it.desc.buffer) then (b.freeBuf it.desc.buffer (.frame it.tent)).2
  else if sent then b
  else (b.freeBuf it.desc.buffer (.frame it.tent)).2

/-- An item leaves the Outfall: out of the store, or out of its thread. -/
def Body.takeCommit (b : Body) (tm : Time) (o : OItem) : Body :=
  let b1 := { b with work.commits := b.work.commits.filter (fun x => decide (x.id ≠ o.id)) }
  match o.place, o.thread with
  | .store, _ => b1.logOut o.item
  | .thread, some h => (b1.logLeaves h o).freeThread tm h
  | _, _ => b1

/-- The commit of an item (R242, R192). -/
def Body.commitItem (b : Body) (tm : Time) (o : OItem) : Body :=
  let it := o.item
  let b1 := b.takeCommit tm o
  let e := b1.releaseEpoch it
  let b2 := b1.finalRelease tm o
  let b3 := { b2 with mem.spad := applyStaged b2.mem.spad o.cluster it.staged }
  let r := b3.releaseEntries it o.cluster e.1
  let b4 := (r.2.countPasses it r.1.again e).dropFrame it r.1.sent
  b4.releaseDeferred tm o

/-- The release of a diversion (R244, R246): into the furrow's exception queue, or back to the queue of an exception item.
It waits for a record (R245), so that no accepted frame is lost. An item of an exception queue, whose record only goes back,
is judged for no lateness and books no cycles, not those of the cap either: the spec gives R246 as the whole of its release
(DESIGN CHOICE; assumption log 149). -/
def Body.divertItem (b : Body) (tm : Time) (o : OItem) : Body :=
  let it := o.item
  let b0 := (b.takeCommit tm o).bump clsOutfall (outFur it.desc.furrow) FOutFur.diverted 1
  match it.src with
  | .record n =>
    let b1 := { b0 with work.records := mapPut n ⟨it.desc, it.program⟩ b0.work.records }
    ((b1.endService it.queue).releaseDeferred tm o).enqueue it.queue (.record n)
  | _ =>
    match b0.takeRecord ⟨{ it.desc with flags := it.desc.flags ||| 4 }, it.program⟩ with
    | some (n, b1) =>
      let b2 := ((b1.finalRelease tm o).addFlight it.desc.epoch (-1)).releaseDeferred tm o
      b2.enqueue (queueBase b2.nLogN it.tent + b2.fget clsFurrow it.desc.furrow FFurrow.excOffset % (1048576 / b2.tents))
        (.record n)
    | none => b

/-! Releases as commands. -/

/-- A release at its cycle. -/
def Dev.release (d : Dev) (divert : Bool) (f : Body → Time → OItem → Body) : Dev :=
  if d.b.runs then
    match d.b.nextRelease d.tm divert with
    | some o =>
      let d1 := d.waitCycle (d.b.relCycleOf d.tm o)
      { d1 with b := ((f (d1.b.noteRelease d1.tm o.item) d1.tm o).settle d1.tm) }
    | none => d
  else d

/-- RELEASE_START (R240 to R242). -/
def execReleaseStart (s : State) : Host.Outcome State Fault Refusal :=
  onDev (fun d => d.release false (fun b tm o => b.commitItem tm o)) s

/-- DIVERSION_RELEASE (R244 to R246). -/
def execDiversionRelease (s : State) : Host.Outcome State Fault Refusal :=
  onDev (fun d => d.release true (fun b tm o => b.divertItem tm o)) s

end Sys2Proof.Machine
end

