-- ==== Sys2Proof/Machine/Operands.lean ====
section
/-! DEFINITION. Instruction words and their fields, registers, effective addresses, where a data access lands and what
the region registers grant (spec/07, R174 to R176, R187; spec/06, R148, R149; spec/12, R325; spec/16, R397). -/

namespace Sys2Proof.Machine

/-! Trap causes (Table 0.6). -/

def trReserved : Nat := 0x01
def trField : Nat := 0x02
def trAlign : Nat := 0x03
def trRegion : Nat := 0x04
def trChannel : Nat := 0x07
def trBreak : Nat := 0x08
def trPrivilege : Nat := 0x09
def trStack : Nat := 0x0A
def trContext : Nat := 0x0B

/-! Instruction words (Table 7.1). -/

def wordA (major minor : Nat) (f : FmtA) : Nat :=
  major * 2 ^ 26 + f.rd.toNat * 2 ^ 21 + f.ra.toNat * 2 ^ 16 + f.rb.toNat * 2 ^ 11 + minor * 2 ^ 4 + f.rsv.toNat
def wordB (major : Nat) (f : FmtB) : Nat :=
  major * 2 ^ 26 + f.rd.toNat * 2 ^ 21 + f.ra.toNat * 2 ^ 16 + f.imm.toNat
def wordC (major : Nat) (f : FmtC) : Nat := major * 2 ^ 26 + f.cond.toNat * 2 ^ 21 + f.simm.toNat
def wordD (major : Nat) (f : FmtD) : Nat := major * 2 ^ 26 + f.mask.toNat * 2 ^ 10 + f.low.toNat
def wordE (major minor : Nat) (f : FmtE) : Nat :=
  major * 2 ^ 26 + f.rd.toNat * 2 ^ 21 + f.ra.toNat * 2 ^ 16 + f.rb.toNat * 2 ^ 11 + minor * 2 ^ 7 +
    f.ep.toNat * 2 ^ 3 + f.e.toNat * 2 ^ 2 + f.rsv.toNat
def wordM (major : Nat) (f : FmtM) : Nat :=
  major * 2 ^ 26 + f.rt.toNat * 2 ^ 21 + f.ra.toNat * 2 ^ 16 + f.am.toNat * 2 ^ 14 + f.low.toNat

/-! Registers (R176). -/

/-- A register; w0 reads 0. -/
def Hart.reg (x : Hart) (r : BitVec 5) : Word := if r = 0 then 0 else mapGet 0 r.toNat x.regs

/-- A register written; a write to w0 is discarded. -/
def Hart.setReg (x : Hart) (r : BitVec 5) (v : Word) : Hart :=
  if r = 0 then x else { x with regs := mapPut r.toNat v x.regs }

def Body.reg (b : Body) (h : Nat) (r : BitVec 5) : Word := (b.hart h).reg r
def Body.setReg (b : Body) (h : Nat) (r : BitVec 5) (v : Word) : Body := b.modHart h (fun x => x.setReg r v)
def Body.setFl (b : Body) (h : Nat) (g : Flags → Flags) : Body := b.modHart h (fun x => { x with flags := g x.flags })

/-- LF is set: a staging attempt found its buffer full (R190, R196, R201). -/
def Body.setLf (b : Body) (h : Nat) : Body := b.setFl h (fun f => { f with lf := true })

/-! Effective addresses (R187). -/

/-- The effective address of a format M instruction, and the value written back to ra. -/
def Hart.ea (x : Hart) (f : FmtM) : Word × Option Word :=
  let a := x.reg f.ra
  match f.am.toNat with
  | 0 => (a + f.low.signExtend 32, none)
  | 1 => (a, some (a + f.low.signExtend 32))
  | 2 => (a - f.low.zeroExtend 32, some (a - f.low.zeroExtend 32))
  | _ => (a + (x.reg (f.low.extractLsb' 9 5) <<< (f.low.extractLsb' 6 3).toNat), none)

/-- A reserved field of format M in use (R174, R175): bits 5:0 and SCALE 5 to 7 of an index. -/
def indexReserved (f : FmtM) : Bool :=
  f.am == 3 && (f.low.extractLsb' 0 6 != 0 || decide (4 < (f.low.extractLsb' 6 3).toNat))

/-- The write-back of R187. -/
def Body.writeBack (b : Body) (h : Nat) (f : FmtM) (wb : Option Word) : Body :=
  match wb with
  | some v => b.setReg h f.ra v
  | none => b

/-! Where an access lands. -/

/-- A place of a data access. -/
inductive Place
  | local (a : Nat)
  | scratch (a : Nat)
  | biv (a : Nat)
  | dram (a : Nat)
  | nothing
  deriving DecidableEq, Repr

/-- Whether one enabled region of a master grants an access, as the regions stand in this cycle (R325). -/
def Body.regionGrants (b : Body) (master space a n : Nat) (r w : Bool) : Bool :=
  (List.range 8).any (fun k =>
    let x := b.region (0x10000 + 8 * master + k)
    x.en == 1 && x.space == space && decide (x.base ≤ a ∧ a + n ≤ x.top) && (!r || x.r == 1) && (!w || x.w == 1))

/-- Table 6.2 for a thread: local data memory and its own work slot, or the scratchpad (R148, R149). -/
def threadPlace (h a n : Nat) : Option Place :=
  let lo := slotAddr h 0
  if a + n ≤ 0x1E000 ∨ ((lo ≤ a ∨ lo = 0x1E000) ∧ a + n ≤ lo + 1024) then some (.local a)
  else if 0x10000000 ≤ a ∧ a + n ≤ 0x10100000 then some (.scratch a)
  else none

/-- Table 16.1 for a Bivouac core, with the DRAM window at `base` (R397). -/
def bivPlace (base a n : Nat) : Option Place :=
  if a < 0x7F82C0 then some (.biv a)
  else if a + n ≤ 0x800000 then some .nothing
  else if 0x80000000 ≤ a ∧ a + n ≤ 2 ^ 32 then some (.dram (base + (a - 0x80000000)))
  else none

/-- Where an access of `n` bytes at `a` lands; `none` where it is outside the map or denied: REGION. -/
def Body.place (b : Body) (h a n : Nat) (r w : Bool) : Option Place :=
  let p := if h < 1024 then threadPlace h a n else bivPlace (b.fget clsDevice (bivInst h) FBiv.dramBase) a n
  match p with
  | some (.dram d) => if b.regionGrants h 1 d n r w then some (.dram d) else none
  | some q => if b.regionGrants h 0 a n r w then some q else none
  | none => none

/-- Whether an access must wait for a frozen channel (R346). -/
def Body.placeHeld (b : Body) (p : Place) (n : Nat) : Bool :=
  match p with
  | .dram a => b.dramHeld a n
  | _ => false

/-- `n` bytes read at a place, as a little-endian number (R4, R191). -/
def Body.loadAt (b : Body) (h : Nat) (p : Place) (n : Nat) : Nat × Body :=
  match p with
  | .local a => (readLE b.mem.lmem (lmemAddr (coreOf h) a) n, b)
  | .scratch a => (readLE b.mem.spad (spadAddr (clusterOf h) a) n, b)
  | .biv a => (readLE b.mem.bmem a n, b)
  | .dram a => let r := b.dramRead 6 0 a n; (leNat r.1, r.2)
  | .nothing => (0, b)

/-- A store into Bivouac memory; one that leaves GO set in word 0 of a transmit record sends the frame (R405). -/
def Body.storeBiv (b : Body) (a n v : Nat) : Body :=
  let b1 := { b with mem.bmem := writeLE b.mem.bmem a n v }
  if 0x7F8200 ≤ a ∧ a < 0x7F82C0 ∧ (a - 0x7F8200) % 16 < 4 then b1.txRecordAct ((a - 0x7F8200) / 16) else b1

/-- `n` bytes written at a place (R4, R189). -/
def Body.storeAt (b : Body) (h : Nat) (p : Place) (n v : Nat) : Body :=
  match p with
  | .local a => { b with mem.lmem := writeLE b.mem.lmem (lmemAddr (coreOf h) a) n v }
  | .scratch a => { b with mem.spad := writeLE b.mem.spad (spadAddr (clusterOf h) a) n v }
  | .biv a => b.storeBiv a n v
  | .dram a => b.dramWrite 6 0 a (leBytes n v)
  | .nothing => b

/-- Issue cycles of a load or store (Table 7.11). -/
def Place.cycles : Place → Nat
  | .scratch _ => 8
  | _ => 1

end Sys2Proof.Machine
end

