-- ==== Sys2Proof/Machine/Insn.lean ====
section
/-! DEFINITION. How an instruction runs: who may issue, the checks of decode, core commit, blocking, breaks and traps
(spec/07, R173, R175, R208; spec/06, R141 to R143, R160, R167, R168; spec/16, R399). -/

namespace Sys2Proof.Machine

/-- What an instruction that has passed decode does: it traps with a cause and an address, it traps after an effect that
its rule names (R155), it breaks (R168), it waits, or it reaches core commit with a new state, its issue cycles and the
next address. -/
inductive Effect
  | trap (cause addr : Nat)
  | trapAfter (b : Body) (cause : Nat)
  | brk
  | wait (k : Block)
  | done (b : Body) (cycles pc : Nat)

/-- The cycles that a thread's frame item may still run: up to its cap (R51), or to the end of its handler's grace; `none`
where nothing limits them. An event-only item has no class, and no cap (DESIGN CHOICE;
assumption log 143). -/
def Body.cyclesLeft (b : Body) (h : Nat) : Option Nat :=
  match (b.hart h).item with
  | some it =>
    if !it.isFrame then none
    else if it.overrun then some (b.fget clsTick (classInst it.tent it.desc.cls) FClass.divertGrace - (b.hart h).graceUsed)
    else if b.inBench then none else some (it.cap - it.cycles)
  | none => none

/-- Whether a thread's frame item may run no further. -/
def Body.outOfCycles (b : Body) (h : Nat) : Bool := b.cyclesLeft h == some 0

/-- Whether the cycles left end before `n` more have passed: an instruction that takes so many is squashed (R51, R144). -/
def Body.tooLong (b : Body) (h n : Nat) : Bool :=
  match b.cyclesLeft h with
  | some k => decide (k < n)
  | none => false

/-- The cycles left pass without a core commit. -/
def Body.runOut (b : Body) (h : Nat) : Body := b.chargeCycles h ((b.cyclesLeft h).getD 0)

/-- Whether a thread may issue its next instruction: it is its core's issuing thread and able to issue (R141, R143); a
Bivouac core while its clock runs and it is not blocked. -/
def Body.mayIssue (b : Body) (h : Nat) : Bool :=
  if h < 1024 then
    decide ((b.core (coreOf h)).issuing = some h) && b.able h && !b.outOfCycles h
  else decide (h < 1028) && b.bivRuns && !b.blocked h

/-- Whether a breakpoint of the core matches the thread's next address (R168, Table 6.11). -/
def Body.atBreakpoint (b : Body) (h : Nat) : Bool :=
  decide (h < 1024) && (List.range 4).any (fun k =>
    let i := 0x400 + coreOf h
    b.fget clsDebug i (FBreak.bpEn k) == 1 && b.fget clsDebug i (FBreak.bpAddr k) == (b.hart h).pc &&
      (b.fget clsDebug i (FBreak.bpThreads k)).testBit (h % 8))

/-- The context a thread holds. -/
def Body.contextOf (b : Body) (h : Nat) : Option Nat :=
  let c := b.core (coreOf h)
  if c.ctx0.owner = some h then some 0 else if c.ctx1.owner = some h then some 1 else none

/-- A Runnel instruction that traps is squashed, which SQUASHED of its thread's context counts (R144, R229). -/
def Body.noteSquash (b : Body) (h word : Nat) : Body :=
  match b.contextOf h with
  | some x => if isRunnel word then b.bump clsRunnel (2 * coreOf h + x) FRunnel.squashed 1 else b
  | none => b

/-- A trap with a word, a cause and an address: one cycle is charged (assumption log 12). -/
def Body.trapAt (b : Body) (tm : Time) (h word cause addr : Nat) : Body :=
  if h < 1024 then ((((b.noteSquash h word).chargeCycles h 1).trapThread tm h cause word (addr % 2 ^ 32)).settle tm)
  else b.trapBiv tm h cause word (addr % 2 ^ 32)

/-- A break (R168): it halts the thread in Bench mode with BREAK_HALT = 1, else it traps. -/
def Body.breakAt (b : Body) (tm : Time) (h word : Nat) : Body :=
  if h < 1024 ∧ b.inBench ∧ b.fget clsDebug h FDebug.breakHalt = 1 then
    b.modHart h (fun x => { x with halted := true, stepping := false })
  else b.trapAt tm h word trBreak 0

/-- Core commit of an instruction that found the registers `regs`: the cycles are charged, with those that the instruction
at the thread's PC waited for results (R50, R208, R226); its own results go on their way, the next address is taken, a
stepped thread halts again (R141, R167). -/
def Body.coreCommit (b : Body) (tm : Time) (h cycles pc : Nat) (regs : SMap Word) : Body :=
  let n := b.waitOf tm h cycles
  let b1 := (b.chargeCycles h (n + cycles)).modHart h (fun x =>
    { x.noteResults (usesOf (b.insnAt h) cycles) (b.coreNow tm (coreOf h) + n) regs with
      pc := pc % 2 ^ 16, halted := x.halted || x.stepping, stepping := false })
  if h < 1024 then b1.setCore (coreOf h) { b1.core (coreOf h) with lastCommit := tm.cycle } else b1

/-- The cycles for which a trapping instruction waited for its operands. -/
def Body.stall (b : Body) (tm : Time) (h : Nat) : Body :=
  let n := b.waitOf tm h 1
  if n = 0 then b else b.chargeCycles h n

/-- One instruction of word `word`: `bad` is the cause with which decode traps it, `f` what it does. A core that switches
away from its thread (R142) runs none of it, and one that the cap or the handler's grace overtakes before its core commit
is squashed (R51, R144). A stepped thread passes its breakpoint (assumption log 26). -/
def Body.runInsn (b : Body) (tm : Time) (h word : Nat) (bad : Option Nat) (f : Body → Effect) : Body :=
  if b.mayIssue h && !b.mustSwitch tm h then
    if b.atBreakpoint h && !(b.hart h).stepping then b.breakAt tm h word
    else
      let b0 := b.modHart h (fun x => { x with block := .none })
      match (match bad with | some c => Effect.trap c 0 | none => f b0) with
      | .trap c a =>
        if bad.isSome then b.trapAt tm h word c a
        else if b.tooLong h (b.waitOf tm h 1 + 1) then b.runOut h else (b.stall tm h).trapAt tm h word c a
      | .trapAfter b1 c =>
        if b.tooLong h (b.waitOf tm h 1 + 1) then b.runOut h else (b1.stall tm h).trapAt tm h word c 0
      | .brk => b.breakAt tm h word
      | .wait k => b.modHart h (fun x => { x with block := k })
      | .done b1 n pc =>
        if b.tooLong h (b.waitOf tm h n + n) then b.runOut h else b1.coreCommit tm h n pc (b.hart h).regs
  else b

/-- The address after the thread's instruction (R173). -/
def Body.nextPc (b : Body) (h : Nat) : Nat := ((b.hart h).pc + 4) % 2 ^ 16

/-- The cause with which decode traps (R175): an undefined selecting field, then a reserved field in use. -/
def badWord (undefined reserved : Bool) : Option Nat :=
  if undefined then some trReserved else if reserved then some trField else none

/-- An instruction on a hart. -/
def insn (h word : Nat) (bad : Option Nat) (f : Time → Body → Effect) (s : State) : Host.Outcome State Fault Refusal :=
  onBody (fun tm b => b.runInsn tm h word bad (f tm)) s

/-- An instruction that may move buffers or records. -/
def insnBuf (h word : Nat) (bad : Option Nat) (f : Time → Body → Effect) (s : State) :
    Host.Outcome State Fault Refusal :=
  onBuf (fun tm b => b.runInsn tm h word bad (f tm)) s

end Sys2Proof.Machine
end

