-- ==== Sys2Proof/Machine/Alu.lean ====
section
/-! DEFINITION. Integer and logical operations and the immediate majors (spec/07, R178 to R183). -/

namespace Sys2Proof.Machine

/-- A result and flags reach core commit. -/
def Body.result (b : Body) (h : Nat) (rd : BitVec 5) (cycles : Nat) (r : Word × Flags) : Effect :=
  .done (b.modHart h (fun x => { x.setReg rd r.1 with flags := r.2 })) cycles (b.nextPc h)

/-- An ALU instruction of two operands (R178). -/
def aluBinary (h : Nat) (f : FmtA) (minor cycles : Nat) (op : Word → Word → Flags → Word × Flags) (s : State) :
    Host.Outcome State Fault Refusal :=
  insn h (wordA 0x00 minor f) (badWord false (f.rsv != 0))
    (fun _ b => b.result h f.rd cycles (op (b.reg h f.ra) (b.reg h f.rb) (b.hart h).flags)) s

/-- An ALU instruction of one operand: rb is reserved (R178). -/
def aluUnary (h : Nat) (f : FmtA) (minor : Nat) (op : Word → Flags → Word × Flags) (s : State) :
    Host.Outcome State Fault Refusal :=
  insn h (wordA 0x00 minor f) (badWord false (f.rsv != 0 || f.rb != 0))
    (fun _ b => b.result h f.rd 1 (op (b.reg h f.ra) (b.hart h).flags)) s

/-- An immediate instruction (R182), with the checks of decode. -/
def immOp (h : Nat) (f : FmtB) (major : Nat) (bad : Option Nat) (op : Word → Flags → Word × Flags) (s : State) :
    Host.Outcome State Fault Refusal :=
  insn h (wordB major f) bad (fun _ b => b.result h f.rd 1 (op (b.reg h f.ra) (b.hart h).flags)) s

/-- A result that sets N and Z. -/
def withNz (r : Word) (f : Flags) : Word × Flags := (r, f.nz r)

/-- Bytes in the other order (BSWAP). -/
def swapBytes (a : Word) : Word :=
  a.extractLsb' 0 8 ++ a.extractLsb' 8 8 ++ a.extractLsb' 16 8 ++ a.extractLsb' 24 8

/-- Leading zeros (CLZ) and one bits (POPC). -/
def leadingZeros (a : Word) : Nat := if a = 0 then 32 else 31 - Nat.log2 a.toNat
def oneBits (a : Word) : Nat := (List.range 32).countP (fun k => a.getLsbD k)

/-- The high 32 bits of a product. -/
def mulHigh (x : Int) : Word := BitVec.ofInt 32 (x / 2 ^ 32)

/-- BFX (R183): the field ends at bit 31. -/
def bitField (imm : BitVec 16) (a old : Word) : Word :=
  let pos := bitsAt imm.toNat 5 5
  let n := min (pos + (imm.toNat % 32 + 1)) 32 - pos
  let v := bitsAt a.toNat pos n
  match bitsAt imm.toNat 14 2 with
  | 0 => BitVec.ofNat 32 v
  | 1 => BitVec.ofInt 32 (signedOf n v)
  | _ => BitVec.ofNat 32 (setBits old.toNat pos n a.toNat)

/-! Table 7.4. -/

/-- ADD (R178, R179). -/
def execAdd (h : Nat) (f : FmtA) (s : State) : Host.Outcome State Fault Refusal :=
  aluBinary h f 0x01 1 (fun a b fl => (a + b, fl.sum a b)) s

/-- SUB (R178, R179). -/
def execSub (h : Nat) (f : FmtA) (s : State) : Host.Outcome State Fault Refusal :=
  aluBinary h f 0x02 1 (fun a b fl => (a - b, fl.difference a b)) s

/-- ADDS (R179: signed, saturated). -/
def execAdds (h : Nat) (f : FmtA) (s : State) : Host.Outcome State Fault Refusal :=
  aluBinary h f 0x03 1 (fun a b fl => let r := saturate32 (a.toInt + b.toInt); (r.1, fl.nzv r.1 r.2)) s

/-- SUBS (R179: signed, saturated). -/
def execSubs (h : Nat) (f : FmtA) (s : State) : Host.Outcome State Fault Refusal :=
  aluBinary h f 0x04 1 (fun a b fl => let r := saturate32 (a.toInt - b.toInt); (r.1, fl.nzv r.1 r.2)) s

/-- NEG (R179). -/
def execNeg (h : Nat) (f : FmtA) (s : State) : Host.Outcome State Fault Refusal :=
  aluUnary h f 0x05 (fun a fl => (0 - a, fl.nzv (0 - a) (decide (a = 0x80000000)))) s

/-- AND (R178). -/
def execAnd (h : Nat) (f : FmtA) (s : State) : Host.Outcome State Fault Refusal :=
  aluBinary h f 0x08 1 (fun a b fl => withNz (a &&& b) fl) s

/-- OR (R178). -/
def execOr (h : Nat) (f : FmtA) (s : State) : Host.Outcome State Fault Refusal :=
  aluBinary h f 0x09 1 (fun a b fl => withNz (a ||| b) fl) s

/-- XOR (R178). -/
def execXor (h : Nat) (f : FmtA) (s : State) : Host.Outcome State Fault Refusal :=
  aluBinary h f 0x0A 1 (fun a b fl => withNz (a ^^^ b) fl) s

/-- ANDN (R178). -/
def execAndn (h : Nat) (f : FmtA) (s : State) : Host.Outcome State Fault Refusal :=
  aluBinary h f 0x0B 1 (fun a b fl => withNz (a &&& ~~~b) fl) s

/-- SHL (R178, R181). -/
def execShl (h : Nat) (f : FmtA) (s : State) : Host.Outcome State Fault Refusal :=
  aluBinary h f 0x10 1 (fun a b fl => withNz (shiftBy 0 a (b.toNat % 256)) fl) s

/-- SHR (R178, R181). -/
def execShr (h : Nat) (f : FmtA) (s : State) : Host.Outcome State Fault Refusal :=
  aluBinary h f 0x11 1 (fun a b fl => withNz (shiftBy 1 a (b.toNat % 256)) fl) s

/-- SAR (R178, R181). -/
def execSar (h : Nat) (f : FmtA) (s : State) : Host.Outcome State Fault Refusal :=
  aluBinary h f 0x12 1 (fun a b fl => withNz (shiftBy 2 a (b.toNat % 256)) fl) s

/-- ROL (R178, R181). -/
def execRol (h : Nat) (f : FmtA) (s : State) : Host.Outcome State Fault Refusal :=
  aluBinary h f 0x13 1 (fun a b fl => withNz (shiftBy 3 a (b.toNat % 256)) fl) s

/-- ROR (R178, R181). -/
def execRor (h : Nat) (f : FmtA) (s : State) : Host.Outcome State Fault Refusal :=
  aluBinary h f 0x14 1 (fun a b fl => withNz (shiftBy 4 a (b.toNat % 256)) fl) s

/-- MUL (R178, R180). -/
def execMul (h : Nat) (f : FmtA) (s : State) : Host.Outcome State Fault Refusal :=
  aluBinary h f 0x18 1 (fun a b fl => (a * b, fl.nzv (a * b) (decide ((a * b).toInt ≠ a.toInt * b.toInt)))) s

/-- MULH (R178). -/
def execMulh (h : Nat) (f : FmtA) (s : State) : Host.Outcome State Fault Refusal :=
  aluBinary h f 0x19 1 (fun a b fl => withNz (mulHigh (a.toInt * b.toInt)) fl) s

/-- MULHU (R178). -/
def execMulhu (h : Nat) (f : FmtA) (s : State) : Host.Outcome State Fault Refusal :=
  aluBinary h f 0x1A 1 (fun a b fl => withNz (mulHigh (a.toNat * b.toNat)) fl) s

/-- DIV (R180). -/
def execDiv (h : Nat) (f : FmtA) (s : State) : Host.Outcome State Fault Refusal :=
  aluBinary h f 0x1C 20 (fun a b fl => let r := divSigned a b; (r.1, fl.divide r.1 r.2.2.1 r.2.2.2)) s

/-- DIVU (R180). -/
def execDivu (h : Nat) (f : FmtA) (s : State) : Host.Outcome State Fault Refusal :=
  aluBinary h f 0x1D 20 (fun a b fl => let r := divUnsigned a b; (r.1, fl.divide r.1 r.2.2.1 r.2.2.2)) s

/-- REM (R180). -/
def execRem (h : Nat) (f : FmtA) (s : State) : Host.Outcome State Fault Refusal :=
  aluBinary h f 0x1E 20 (fun a b fl => let r := divSigned a b; (r.2.1, fl.divide r.2.1 r.2.2.1 r.2.2.2)) s

/-- REMU (R180). -/
def execRemu (h : Nat) (f : FmtA) (s : State) : Host.Outcome State Fault Refusal :=
  aluBinary h f 0x1F 20 (fun a b fl => let r := divUnsigned a b; (r.2.1, fl.divide r.2.1 r.2.2.1 r.2.2.2)) s

/-- MIN (R178). -/
def execMin (h : Nat) (f : FmtA) (s : State) : Host.Outcome State Fault Refusal :=
  aluBinary h f 0x20 1 (fun a b fl => withNz (if a.toInt ≤ b.toInt then a else b) fl) s

/-- MAX (R178). -/
def execMax (h : Nat) (f : FmtA) (s : State) : Host.Outcome State Fault Refusal :=
  aluBinary h f 0x21 1 (fun a b fl => withNz (if b.toInt ≤ a.toInt then a else b) fl) s

/-- MINU (R178). -/
def execMinu (h : Nat) (f : FmtA) (s : State) : Host.Outcome State Fault Refusal :=
  aluBinary h f 0x22 1 (fun a b fl => withNz (if a.toNat ≤ b.toNat then a else b) fl) s

/-- MAXU (R178). -/
def execMaxu (h : Nat) (f : FmtA) (s : State) : Host.Outcome State Fault Refusal :=
  aluBinary h f 0x23 1 (fun a b fl => withNz (if b.toNat ≤ a.toNat then a else b) fl) s

/-- CLZ (R178). -/
def execClz (h : Nat) (f : FmtA) (s : State) : Host.Outcome State Fault Refusal :=
  aluUnary h f 0x28 (fun a fl => withNz (BitVec.ofNat 32 (leadingZeros a)) fl) s

/-- POPC (R178). -/
def execPopc (h : Nat) (f : FmtA) (s : State) : Host.Outcome State Fault Refusal :=
  aluUnary h f 0x29 (fun a fl => withNz (BitVec.ofNat 32 (oneBits a)) fl) s

/-- BSWAP (R178). -/
def execBswap (h : Nat) (f : FmtA) (s : State) : Host.Outcome State Fault Refusal :=
  aluUnary h f 0x2A (fun a fl => withNz (swapBytes a) fl) s

/-! Table 7.5. -/

/-- ADDI (R182, R179). -/
def execAddi (h : Nat) (f : FmtB) (s : State) : Host.Outcome State Fault Refusal :=
  immOp h f 0x01 none (fun a fl => (a + f.imm.signExtend 32, fl.sum a (f.imm.signExtend 32))) s

/-- SUBI (R182, R179). -/
def execSubi (h : Nat) (f : FmtB) (s : State) : Host.Outcome State Fault Refusal :=
  immOp h f 0x02 none (fun a fl => (a - f.imm.signExtend 32, fl.difference a (f.imm.signExtend 32))) s

/-- ANDI (R182). -/
def execAndi (h : Nat) (f : FmtB) (s : State) : Host.Outcome State Fault Refusal :=
  immOp h f 0x03 none (fun a fl => withNz (a &&& f.imm.zeroExtend 32) fl) s

/-- ORI (R182). -/
def execOri (h : Nat) (f : FmtB) (s : State) : Host.Outcome State Fault Refusal :=
  immOp h f 0x04 none (fun a fl => withNz (a ||| f.imm.zeroExtend 32) fl) s

/-- XORI (R182). -/
def execXori (h : Nat) (f : FmtB) (s : State) : Host.Outcome State Fault Refusal :=
  immOp h f 0x05 none (fun a fl => withNz (a ^^^ f.imm.zeroExtend 32) fl) s

/-- LUI (R182: no flag changes, ra is reserved). -/
def execLui (h : Nat) (f : FmtB) (s : State) : Host.Outcome State Fault Refusal :=
  immOp h f 0x06 (badWord false (f.ra != 0)) (fun _ fl => (f.imm.zeroExtend 32 <<< 16, fl)) s

/-- SHI (R181, R182). -/
def execShi (h : Nat) (f : FmtB) (s : State) : Host.Outcome State Fault Refusal :=
  immOp h f 0x07 (badWord (decide (4 < bitsAt f.imm.toNat 8 3)) (decide (bitsAt f.imm.toNat 11 5 ≠ 0)))
    (fun a fl => withNz (shiftBy (bitsAt f.imm.toNat 8 3) a (f.imm.toNat % 256)) fl) s

/-- BFX (R183). -/
def execBfx (h : Nat) (f : FmtB) (s : State) : Host.Outcome State Fault Refusal :=
  insn h (wordB 0x08 f) (badWord (decide (bitsAt f.imm.toNat 14 2 = 3)) (decide (bitsAt f.imm.toNat 10 4 ≠ 0)))
    (fun _ b => b.result h f.rd 1 (withNz (bitField f.imm (b.reg h f.ra) (b.reg h f.rd)) (b.hart h).flags)) s

end Sys2Proof.Machine
end

