-- ==== Sys2Proof/Machine/Debug.lean ====
section
/-! DEFINITION. What a thread shows, debugging, and the wait-cycle detector (spec/06, R166 to R170, Tables 6.8 to
6.10). -/

namespace Sys2Proof.Machine

/-! Channel-blocked threads and their writers (R169). -/

/-- Whether a mask names software endpoints only. -/
def softwareOnly (mask : Nat) : Bool := decide (mask % 256 = 0)

/-- The endpoints that a thread awaits. -/
def Body.awaited (b : Body) (h : Nat) : List Nat :=
  match (b.hart h).block with
  | .readEp e => [e]
  | .waitMask m => (List.range 16).filter (fun e => m.testBit e)
  | _ => []

/-- Whether a thread's wait is one on software endpoints only. -/
def Block.onChannel : Block → Bool
  | .readEp e => decide (8 ≤ e)
  | .waitMask m => softwareOnly m
  | _ => false

/-- Channel-blocked. A halted thread counts as halted (assumption log 45). -/
def Body.channelBlocked (b : Body) (h : Nat) : Bool :=
  let x := b.hart h
  decide (x.phase = .running) && !x.halted && b.blocked h && x.block.onChannel

/-- The threads whose valid binding names endpoint `e` of thread `x`. -/
def Body.writersOf (b : Body) (x e : Nat) : List Nat :=
  b.fields.filterMap (fun f =>
    let h := keyInst f.1
    let lo := f.1 % 2 ^ 16
    if keyClass f.1 == clsThread && f.2 == 1 && (List.range 8).any (fun k => (FThread.chanValid k).lo == lo &&
        b.fget clsThread h (FThread.chanPeer k) == x && 8 + b.fget clsThread h (FThread.chanPeerEp k) == e) then some h
    else none)

/-- Whether a committed message to an endpoint waits in the Outfall. -/
def Body.messageWaits (b : Body) (x e : Nat) : Bool :=
  b.work.commits.any (fun o => o.divert.isNone && o.item.log.any (fun l => match l with
    | .chan _ p pe _ => p == x && pe == e
    | _ => false))

/-- Whether endpoint `e` of thread `x` has a pending writer. -/
def Body.pendingWriter (b : Body) (x e : Nat) : Bool :=
  (b.writersOf x e).any (fun h => !b.channelBlocked h) || b.messageWaits x e

/-- Whether every pending writer of the endpoints that a channel-blocked thread awaits is a halted thread. -/
def Body.writersHalted (b : Body) (h : Nat) : Bool :=
  let l := (b.awaited h).flatMap (fun e => (b.writersOf h e).filter (fun w => !b.channelBlocked w))
  l != [] && l.all (fun w => (b.hart w).halted) && !(b.awaited h).any (fun e => b.messageWaits h e)

/-! THREAD.STATE and BLOCK_REASON (Tables 6.8, 6.9). -/

def Body.blockReason (b : Body) (h : Nat) : Nat :=
  let x := b.hart h
  if x.phase ≠ .running ∨ ¬ b.blocked h then 0
  else if b.channelBlocked h && b.writersHalted h then 7
  else match x.block with
    | .readEp e => if e < 8 then 1 else 2
    | .reqFull _ => 1
    | .waitMask m => if softwareOnly m then 4 else 3
    | .direct _ _ _ _ => 5
    | .rbind _ => 6
    | _ => 0

/-- A thread that COMMIT or DIVERT holds until its replies have arrived is blocked (R200). -/
def Body.threadState (b : Body) (h : Nat) : Nat :=
  let x := b.hart h
  if x.phase = .retired then 4
  else if x.halted then 3
  else if x.phase = .free then 0
  else if b.blockReason h ≠ 0 ∨ (x.phase = .committing ∧ x.awaits) then 2 else 1

/-! DEBUG (R166, R167). -/

/-- HALT of a thread, which stands at an instruction boundary between two commands. -/
def Body.debugHalt (b : Body) (h : Nat) : Nat × Body :=
  if !b.inBench then (stNotInMode, b)
  else (stOk, if b.live h then b.modHart h (fun x => { x with halted := true, stepping := false }) else b)

/-- A halted thread runs on, for one instruction if `one`. -/
def Body.unhalt (b : Body) (h : Nat) (one : Bool) : Body :=
  if (b.hart h).halted then (b.modHart h (fun x => { x with halted := false, stepping := one })).nowAble h else b

/-- RESUME, in any mode. -/
def Body.debugResume (b : Body) (h : Nat) : Nat × Body := (stOk, b.unhalt h false)

/-- STEP; of a thread that is not halted it has no effect (assumption log 46). -/
def Body.debugStep (b : Body) (h : Nat) : Nat × Body :=
  if !b.inBench then (stNotInMode, b) else (stOk, b.unhalt h true)

/-- RESET: a thread reset, and the items that the thread held or was loading are re-dispatched or given back. -/
def Body.debugReset (b : Body) (tm : Time) (h : Nat) : Nat × Body :=
  if !b.inBench then (stNotInMode, b)
  else if !b.live h then (stOk, b)
  else
    let x := b.hart h
    let b1 := (b.dropKept h).resetThread tm h
    let b2 := match x.item with
      | some it => b1.giveBackItem it
      | none => b1
    (stOk, match x.loading with
      | some (it, _) => b2.giveBackItem it
      | none => b2)

/-- The register that REG_SEL selects: 0 to 31, 32 PC, 33 flags. -/
def Hart.selected (x : Hart) (sel : Nat) : Nat :=
  if sel < 32 then (x.reg (BitVec.ofNat 5 sel)).toNat
  else if sel = 32 then x.pc else x.flags.toNat

def Hart.setSelected (x : Hart) (sel v : Nat) : Hart :=
  if sel < 32 then x.setReg (BitVec.ofNat 5 sel) (BitVec.ofNat 32 v)
  else if sel = 32 then { x with pc := v % 2 ^ 16 } else { x with flags := Flags.ofNat v }

/-- Whether REG_DATA may be accessed. -/
def Body.regAccess (b : Body) (h : Nat) : Nat :=
  if !b.inBench then stNotInMode else if (b.hart h).halted then stOk else stBusy

/-! The wait-cycle detector (R170). -/

/-- The members of a set. -/
def Body.setMembers (b : Body) (c : Nat) (g : Option (Nat × Nat)) : List Nat :=
  match g with
  | none => ((List.range 64).map (fun i => 64 * c + i)).filter (fun h => b.live h)
  | some (t, k) => b.groupThreads c t k

/-- The sets of the clusters in which some thread is channel-blocked; no other set can be in a cycle. -/
def Body.waitSets (b : Body) : List (Nat × Option (Nat × Nat)) :=
  let cs := ((b.isa.harts.filter (fun e => decide (e.1 < 1024) && b.channelBlocked e.1)).map (fun e => clusterOf e.1)).eraseDups
  let used := b.usedBindings
  cs.flatMap (fun c => (c, none) :: (used.filter (fun k => k.2.1 == c)).map (fun k => (c, some (k.1, k.2.2))))

/-- cycle_now of R170; a set without threads is never declared (assumption log 47). -/
def Body.cycleNow (b : Body) (l : List Nat) : Bool :=
  l != [] && l.all (fun x => b.channelBlocked x && (b.awaited x).all (fun e => !b.pendingWriter x e))

/-- At a boundary: held and armed of every set. -/
def Body.scanWaits (b : Body) : Body :=
  let ks := b.waitSets.filter (fun k => b.cycleNow (b.setMembers k.1 k.2))
  { b with adm.waits := ks.map (fun k =>
      match b.adm.waits.find? (fun w => decide (w.cluster = k.1 ∧ w.group = k.2)) with
      | some w => { w with held := w.held + 1 }
      | none => ⟨k.1, k.2, 1, false⟩) }

/-- Endpoints as a mask. -/
def epMask (l : List Nat) : Nat := (l.eraseDups.map (fun e => 2 ^ e)).sum

/-- The snapshot of one member. -/
def Body.snapMember (b : Body) (h : Nat) : Body :=
  (b.fset clsThread h FThread.snapEpMask (epMask (b.awaited h))).fset clsThread h FThread.snapReason (b.blockReason h)

/-- A declaration at tick `tick`. -/
def Body.declareWait (b : Body) (tick : Nat) (w : WaitSet) : Body :=
  let c := w.cluster
  let b1 := b.ring 40
  let b2 := (b1.fset clsCluster c FCluster.snapTick tick).fset clsCluster c FCluster.snapWhole (if w.group.isNone then 1 else 0)
  let b3 := (b2.fset clsCluster c FCluster.snapTent (w.group.getD (0, 0)).1).fset clsCluster c FCluster.snapGroup
    (w.group.getD (0, 0)).2
  let b4 := (b.setMembers c w.group).foldl (fun (x : Body) h => x.snapMember h) b3
  let b5 := (b4.fset clsCluster c FCluster.snapValid 1).bump clsCluster c FCluster.waitCycles 1
  { b5 with adm.waits := b5.adm.waits.map (fun v => if v = w then { v with disarmed := true } else v) }

/-- WAIT_CYCLE_DECLARE (R170). -/
def execWaitCycleDeclare (cluster : Nat) (group : Option (Nat × Nat)) (s : State) : Host.Outcome State Fault Refusal :=
  onBody (fun tm b =>
    match b.adm.waits.find? (fun w => decide (w.cluster = cluster ∧ w.group = group ∧ 3 ≤ w.held) && !w.disarmed) with
    | some w => b.declareWait tm.tickNumber w
    | none => b) s

end Sys2Proof.Machine
end

