-- ==== Sys2Proof/Machine/Replies.lean ====
section
/-! DEFINITION. Replies to Shesin commands (spec/16, R406, R408, R410, R414). -/

namespace Sys2Proof.Machine

/-- The initialisation vector of a message (R410): SENDER, the direction, SEQUENCE. -/
def gmacIv (head : List Byte) (reply : Bool) : List Byte :=
  (head.drop 4).take 4 ++ beBytes 4 (if reply then 0x80000000 else 0) ++ (head.drop 8).take 4

/-- A reply message (R408, R414). -/
def replyMessage (c : Caller) (status : Nat) (params : List Byte) : List Byte :=
  let n := 20 + params.length + (if c.key.isSome then 16 else 0)
  let l := [1, if c.key.isSome then 0xC0 else 0x80] ++ beBytes 2 n ++ (c.head.drop 4).take 8 ++ (c.head.drop 12).take 1 ++
    [0] ++ (c.head.drop 14).take 2 ++ beBytes 2 status ++ [0, 0] ++ params
  match c.key with
  | some k => l ++ Config.gmac k (gmacIv c.head true) l
  | none => l

/-- The mailbox holds its reply (R406): DONE sets, BUSY clears, and MB_SOURCE is rung if it is enabled. -/
def Body.mailboxDone (b : Body) (l : List Byte) : Body :=
  let b1 := { b with
    mem.bmem := writeBytes b.mem.bmem 0x7F4000 l
    adm.mailbox := { b.adm.mailbox with busy := false, done := true } }
  if b1.adm.mailbox.sourceEn then b1.ring b1.adm.mailbox.source else b1

/-- The one's complement sum of bytes as 16-bit words, complemented. -/
def inetSum (l : List Byte) : Nat :=
  let s := (wordSum l).toNat
  let t := s % 65536 + s / 65536
  let u := t % 65536 + t / 65536
  65535 - u

/-- The headers of a reply on the classified path (R414): addresses and UDP ports exchanged. The lengths and checksums
of IP and UDP are those of the reply (assumption log 42). -/
def replyHeaders (h : List Byte) (msg : List Byte) : List Byte :=
  let k := afterTags h 2 12
  let eth := (h.drop 6).take 6 ++ h.take 6 ++ (h.drop 12).take (k - 10)
  let rest := h.drop (k + 2)
  let n := msg.length
  if be16 h k = 0x0800 ∧ h.length ≠ k + 2 then
    let ihl := 4 * (byteAt rest 0 % 16)
    let src := (rest.drop 12).take 4
    let dst := (rest.drop 16).take 4
    let ip0 := rest.take 2 ++ beBytes 2 (ihl + 8 + n) ++ (rest.drop 4).take 6 ++ [0, 0] ++ dst ++ src ++
      (rest.take ihl).drop 20
    let ip := putBytes ip0 10 (beBytes 2 (inetSum ip0))
    let u := rest.drop ihl
    let udp0 := (u.drop 2).take 2 ++ u.take 2 ++ beBytes 2 (8 + n) ++ [0, 0]
    let c := inetSum (dst ++ src ++ [0, 17] ++ beBytes 2 (8 + n) ++ udp0 ++ msg)
    eth ++ ip ++ putBytes udp0 6 (beBytes 2 (if c = 0 then 65535 else c))
  else if be16 h k = 0x86DD ∧ h.length ≠ k + 2 then
    let src := (rest.drop 8).take 16
    let dst := (rest.drop 24).take 16
    let u := rest.drop (rest.length - 8)
    let mid := (rest.take (rest.length - 8)).drop 40
    let ip := rest.take 4 ++ beBytes 2 (mid.length + 8 + n) ++ (rest.drop 6).take 2 ++ dst ++ src ++ mid
    let udp0 := (u.drop 2).take 2 ++ u.take 2 ++ beBytes 2 (8 + n) ++ [0, 0]
    let c := inetSum (dst ++ src ++ beBytes 4 (8 + n) ++ [0, 0, 0, 17] ++ udp0 ++ msg)
    eth ++ ip ++ putBytes udp0 6 (beBytes 2 (if c = 0 then 65535 else c))
  else eth ++ rest

/-- A reply leaves on the path of its command (R414). One that the Bivouac's quota refuses is lost (R407). -/
def Body.sendReply (b : Body) (c : Caller) (status : Nat) (params : List Byte) : Body :=
  let msg := replyMessage c status params
  let b1 := b.answer status
  match c.path with
  | .mailbox => b1.mailboxDone msg
  | .direct header port =>
    let h := (header.drop 6).take 6 ++ beBytes 6 (b1.fget clsDevice 0 FDevice.cmdMac) ++ header.drop 12
    (b1.sendBiv false port (b1.fget clsDevice 0 FDevice.cmdClass) (padTo 60 (h ++ msg))).2
  | .classified header => (b1.sendBiv true 67 0 (padTo 60 (replyHeaders header msg ++ msg))).2

end Sys2Proof.Machine
end

