-- ==== Sys2Proof/Machine/Store.lean ====
section
/-! DEFINITION. The persistent store: its slots, store writes, the energy check and counter checkpoints
(spec/18, R452 to R460). -/

namespace Sys2Proof.Machine

/-! Slots (R457). -/

/-- Whether slot `i` of an area is valid. -/
def Body.slotValid (b : Body) (area i : Nat) : Bool := mapHas (2 * area + i) b.adm.slots

/-- The slot of an area that reads use: the valid one whose SEQ is larger modulo 2^32. -/
def Body.currentSlot (b : Body) (area : Nat) : Option Nat :=
  match mapFind (2 * area) b.adm.slots, mapFind (2 * area + 1) b.adm.slots with
  | some x, some y => if 0 ≤ tickDiff x.seq y.seq then some 0 else some 1
  | some _, none => some 0
  | none, some _ => some 1
  | none, none => none

def Body.storeSlot (b : Body) (area : Nat) : Option StoreSlot :=
  (b.currentSlot area).bind (fun i => mapFind (2 * area + i) b.adm.slots)

/-- A configuration record (R453): class, instance, offset, 0, value, in network order. -/
def recordBytes (r : ObjAddr × Nat) : List Byte :=
  beBytes 1 r.1.cls.toNat ++ beBytes 3 r.1.inst.toNat ++ beBytes 2 r.1.off.toNat ++ [0, 0] ++ beBytes 4 r.2

/-- The bytes of a store body. Records are laid out by R453 and counters are 8 bytes each (R459); of the rest the spec
gives no layout (assumption log 31). -/
def StoreBody.bytes : StoreBody → List Byte
  | .nothing => []
  | .config n states records => Config.configHead n states ++ records.flatMap recordBytes
  | .calib values => Config.calibBytes values
  | .keys l => Config.keyBytes l
  | .counters l => l.flatMap (fun e => leBytes 8 e.2.2)

/-- What an area's STORE object shows (Table 18.13). Area 2 is written at the factory only. -/
def Body.showStore (b : Body) (area : Nat) : Body :=
  let v := (if b.slotValid area 0 then 1 else 0) + (if b.slotValid area 1 then 2 else 0)
  let b1 := (b.fset clsStore area FStore.valid v).fset clsStore area FStore.current ((b.currentSlot area).getD 0)
  match b.storeSlot area with
  | some s =>
    ((b1.fset clsStore area FStore.empty (if s.empty then 1 else 0)).fset clsStore area FStore.seq s.seq).fset clsStore
      area FStore.bytes s.body.bytes.length
  | none => ((b1.fset clsStore area FStore.empty 0).fset clsStore area FStore.seq 0).fset clsStore area FStore.bytes 0

/-! The energy check (R458). -/

/-- t_write in microseconds for a body. -/
def Body.writeUs (b : Body) (bytes : Nat) : Nat := b.fget clsStore 0x100 FFlash.progUs * (ceilDiv bytes 256 + 1)

/-- The energy check: ENERGY_MJ and NEED_MJ take its figures, and a refusal counts in DEFERRED. -/
def Body.energyCheck (b : Body) (area bytes : Nat) : Bool × Body :=
  let cap := b.fget clsPower 0 FPower.bankCapUf
  let mv := b.fget clsPower 0 FPower.bankMv
  let lo := b.fget clsPower 0 FPower.bankMinMv
  let load := b.fget clsPower 0 FPower.holdLoadMw
  let d := if mv ≤ lo then 0 else mv * mv - lo * lo
  let need := load * b.writeUs bytes
  let energy := cap * d / (2 * 10 ^ 9)
  let b1 := b.fset clsPower 0 FPower.energyMj (if energy < 2 ^ 32 then energy else Config.counterOver 32 energy)
  let b2 := b1.fset clsStore area FStore.needMj
    (if need / 10 ^ 6 < 2 ^ 32 then need / 10 ^ 6 else Config.counterOver 32 (need / 10 ^ 6))
  if load ≠ 0 ∧ cap ≠ 0 ∧ 3000 * need ≤ cap * d then (true, b2)
  else (false, b2.bump clsStore area FStore.deferred 1)

/-! Firmware slots (R449, Table 18.4). -/

/-- The size of a firmware slot, and where its bytes stand in the flash. -/
def fwSize : Nat := 2 ^ 23
def fwOffset (slot : Nat) : Nat := 0x10000 + slot * fwSize

/-- The image in a firmware slot. -/
def Body.fwSlot (b : Body) (slot : Nat) : List Byte := readBytes b.adm.fwImage (fwOffset slot) fwSize

/-- Whether an image verifies: the key that it embeds has the fused hash, and its signature verifies under that key. -/
def imageGood (l : List Byte) : Bool :=
  Config.sha384 (Config.imageKey l) == Config.fusedKeyHash && Config.signatureGood (Config.imageKey l) l

/-- The slot that Boot starts: the active one of the boot header, or else the other one. -/
def Body.bootChoice (b : Body) : Option Nat :=
  if imageGood (b.fwSlot b.adm.fwActive) then some b.adm.fwActive
  else if imageGood (b.fwSlot (1 - b.adm.fwActive)) then some (1 - b.adm.fwActive)
  else none

/-- The image of a slot is loaded into Bivouac memory and runs: FW_VERSION shows its version. -/
def Body.runImage (b : Body) (slot : Nat) : Body :=
  let l := b.fwSlot slot
  { b with mem.bmem := (Config.firmware l).foldl (fun (m : Memory) (e : Nat × Byte) =>
      if e.1 < 0x740000 then writeBytes m e.1 [e.2] else m) b.mem.bmem }.fset clsDevice 0 FDevice.fwVersion
    (Config.fwVersionOf l % 2 ^ 32)

/-! Store writes (R457). -/

/-- A store write starts. -/
def Body.startStore (b : Body) (area : Nat) (empty : Bool) (body : StoreBody) : Body :=
  let b1 := (b.fset clsStore area FStore.writing 1).fset clsStore 0x100 FFlash.busy 1
  { b1 with adm.job := some ⟨area, empty, body, false⟩ }

/-- A checked store write of areas 0, 1 and 3 (R421, R458): its status. -/
def Body.storeWrite (b : Body) (area : Nat) (empty : Bool) (body : StoreBody) : Nat × Body :=
  if b.adm.job.isSome then (stBusy, b)
  else
    let r := b.energyCheck area body.bytes.length
    if r.1 then (stOk, r.2.startStore area empty body)
    else (stDeferredEnergy, r.2.fset clsStore area FStore.lastStatus stDeferredEnergy)

/-! Calibration (R452). -/

/-- The calibration fields, as class, instance and field. -/
def calibFields : List (Nat × Nat × Fld) :=
  (List.range 65).flatMap (fun p => [(clsPort, p, FPort.rxDelay), (clsPort, p, FPort.txDelay)]) ++
    (List.range 12).map (fun i => (clsSensor, i, FSupply.offsetMv)) ++
    (List.range 24).map (fun i => (clsSensor, 0x20 + i, FTemp.offset)) ++
    [FPower.senseRatio, FPower.chargeMa, FPower.bankCapUf, FPower.bankMinMv, FPower.holdLoadMw, FPower.measLoMv,
      FPower.measHiMv].map (fun f => (clsPower, 0, f))

/-- The active calibration set. -/
def Body.calibSet (b : Body) : List (Nat × Nat) :=
  calibFields.map (fun e => (fieldKey e.1 e.2.1 e.2.2.lo, b.fget e.1 e.2.1 e.2.2))

/-- A calibration set becomes the active one. -/
def Body.loadCalib (b : Body) (l : List (Nat × Nat)) : Body :=
  { b with fields := l.foldl (fun m e => mapPut e.1 e.2 m) b.fields }

/-- The factory set is the fields' reset values (assumption log 6). -/
def Body.factoryCalib (b : Body) : Body :=
  calibFields.foldl (fun (x : Body) e => x.fset e.1 e.2.1 e.2.2 (resetAt x.sys.nLog.val e.1 e.2.1 e.2.2)) b

/-- Step 5 of Boot (R452): the user set if area 1 holds a valid slot that is not EMPTY, else the factory set. -/
def Body.bootCalib (b : Body) : Body :=
  match b.storeSlot 1 with
  | some ⟨_, false, .calib l⟩ => (b.loadCalib l).fset clsPower 0 FPower.calibSource 1
  | _ => b.factoryCalib.fset clsPower 0 FPower.calibSource 0

/-! Counter checkpoints (R459). -/

/-- How many counters of tent `t` a checkpoint covers. -/
def Body.ckptCount (b : Body) (t : Nat) : Nat := min (b.fget clsOutfall (1 + t) FOut.ctrCount) (131072 / b.tents)

/-- The counters of every tent as they are read. -/
def Body.ckptBody (b : Body) : StoreBody :=
  .counters ((List.range b.tents).flatMap (fun t => (List.range (b.ckptCount t)).map (fun i =>
    (t, i, leNat (b.dramBytes (b.fget clsOutfall (1 + t) FOut.ctrBase + 8 * i) 8)))))

/-- The reads of the counters that a checkpoint covers, on the COUNTER port (Table 13.3). -/
def Body.ckptReads (b : Body) : Body :=
  (List.range b.tents).foldl (fun (x : Body) t =>
    if b.ckptCount t = 0 then x
    else x.dramPost 3 0 (b.fget clsOutfall (1 + t) FOut.ctrBase) (8 * b.ckptCount t) false) b

/-- Whether a checkpoint needs a frozen channel. -/
def Body.ckptHeld (b : Body) : Bool :=
  (List.range b.tents).any (fun t => decide (b.ckptCount t ≠ 0) &&
    b.dramHeld (b.fget clsOutfall (1 + t) FOut.ctrBase) (8 * b.ckptCount t))

/-- The Hold checkpoint (R456, R458): checked, and skipped where the energy does not do. -/
def Body.holdCheckpoint (b : Body) : Body :=
  if b.adm.job.isSome then { b with adm.holdDue := true }
  else
    let b0 := { b with adm.holdDue := false }
    if b0.ckptHeld then b0.bump clsPower 0 FPower.ckptDeferred 1
    else
      let body := b0.ckptBody
      let r := b0.ckptReads.energyCheck 4 body.bytes.length
      if r.1 then r.2.startStore 4 false body else r.2.bump clsPower 0 FPower.ckptDeferred 1

/-- A periodic checkpoint that may start does, else it stays due. -/
def Body.tryCheckpoint (b : Body) : Body :=
  if b.adm.job.isSome || b.ckptHeld then { b with adm.ckptDue := true }
  else { b with adm.ckptDue := false }.ckptReads.startStore 4 false b.ckptBody

/-- COUNTER_CHECKPOINT (R459): a checkpoint that waited starts once it may; else the period expires, and the checkpoint
starts, or waits for a store write or a frozen channel. -/
def execCounterCheckpoint (s : State) : Host.Outcome State Fault Refusal :=
  onDev (fun d =>
    let ms := d.b.fget clsPower 0 FPower.ckptMs
    if ms = 0 ∨ d.b.sys.base = .cold ∨ d.b.sys.base = .boot ∨ d.b.asleep then d
    else if d.b.adm.ckptDue && !d.b.adm.job.isSome && !d.b.ckptHeld then { d with b := d.b.tryCheckpoint }
    else
      let t := (d.b.adm.ckptAt + ms * 1000000 * 2 ^ 16) % 2 ^ 64
      let d1 := d.waitUntil t
      let b1 := { d1.b with adm.ckptAt := t }
      { d1 with b := (if b1.ckptHeld then b1.bump clsPower 0 FPower.ckptDeferred 1 else b1).tryCheckpoint }) s

/-- The checkpointed counters go back into the tents' areas at the first entry to Service or Degraded (R459). -/
def Body.restoreCounters (b : Body) : Body :=
  if b.adm.ckptLoaded || b.fget clsPower 0 FPower.ckptRestore == 0 then { b with adm.ckptLoaded := true }
  else
    let b1 := { b with adm.ckptLoaded := true }
    match b.storeSlot 4 with
    | some ⟨_, _, .counters l⟩ =>
      l.foldl (fun (x : Body) e =>
        if e.1 < x.tents ∧ e.2.1 < x.fget clsOutfall (1 + e.1) FOut.ctrCount then
          x.dramWrite 3 0 (x.fget clsOutfall (1 + e.1) FOut.ctrBase + 8 * e.2.1) (leBytes 8 e.2.2)
        else x) b1
    | _ => b1

/-- The header of a store write is programmed, with SEQ one above the current slot's: both slots are valid until the older
one is erased. -/
def Body.programHeader (b : Body) (j : StoreJob) : Body :=
  let k := match b.currentSlot j.area with
    | some 0 => 1
    | _ => 0
  let seq := (match b.storeSlot j.area with
    | some x => x.seq + 1
    | none => 1) % 2 ^ 32
  ({ b with
    adm.slots := mapPut (2 * j.area + k) ⟨seq, j.empty, j.body⟩ b.adm.slots
    adm.job := some { j with headed := true } }).showStore j.area

/-- The slot that has become the older one is erased, and the store write is over. -/
def Body.eraseOlder (b : Body) (area : Nat) : Body :=
  let b1 := { b with
    adm.slots := mapDel (2 * area + (1 - (b.currentSlot area).getD 0)) b.adm.slots
    adm.job := none }
  ((((b1.showStore area).fset clsStore area FStore.writing 0).fset clsStore 0x100 FFlash.busy 0).fset
    clsStore area FStore.lastStatus stOk).bump clsStore area FStore.writes 1

/-- STORE_WRITE_DONE (R457): the header is programmed, the older slot erased, and the write ends; a checkpoint that
waited for it starts. A slot of area 1 marked EMPTY makes the factory values the active set (R452). An operand 16 above the
area names the moment between the two steps (assumption log 156). -/
def execStoreWriteDone (area : Nat) (s : State) : Host.Outcome State Fault Refusal :=
  onBody (fun _ b =>
    match b.adm.job with
    | some j =>
      if j.area ≠ area % 16 ∨ 32 ≤ area ∨ b.sys.base = .cold then b
      else if 16 ≤ area then (if j.headed then b else b.programHeader j)
      else
        let b2 := (if j.headed then b else b.programHeader j).eraseOlder area
        let b3 := if area = 1 ∧ j.empty then b2.factoryCalib.fset clsPower 0 FPower.calibSource 0 else b2
        let b4 := if area = 4 then b3.bump clsPower 0 FPower.ckptDone 1 else b3
        if b4.adm.holdDue then b4.holdCheckpoint
        else if b4.adm.ckptDue then b4.tryCheckpoint
        else b4
    | none => b) s

end Sys2Proof.Machine
end

