-- ==== Sys2Proof/Machine/Modes.lean ====
section
/-! DEFINITION. Modes, resets of the device, Boot, Survey, Hold, Dormant, firmware handover and the sensors
(spec/18; spec/19, R462 to R469; spec/17, R434 to R436). -/

namespace Sys2Proof.Machine

/-! Changes of mode (R442 to R444). -/

/-- The base mode changes to `m`: ports that may not be up go down, MODE_TARGET reads 0 outside Drain, and the first
entry to Service or Degraded restores the counters. A Survey obeys the SPEED_MAX that stands at its start (R349). -/
def Body.enterMode (b : Body) (m : Mode) : Body :=
  let b1 := (b.setBase m).holdPorts
  let b2 := if m = .drain then b1 else b1.fset clsPower 0 FPower.modeTarget 0
  if m = .service ∨ m = .degraded then b2.restoreCounters
  else if m = .survey then
    { b2 with adm.bootSet := false, adm.survey := SurveyRun.start, drm.speedLimit := b2.fget clsDram 0 FDram.speedMax }
  else b2

/-- An overlay comes or goes; MODE_CHANGES counts it where the mode shown changes. -/
def Body.overlay (b : Body) (f : Body → Body) : Body :=
  let b1 := f b
  (if b1.modeCode ≠ b.modeCode then b1.bump clsPower 0 FPower.modeChanges 1 else b1).holdPorts

/-- What outlasts a reset: the store and the firmware slots (R436, R449), the balls that are driven from outside, and
what the model has shown. -/
def Body.keep (b x : Body) : Body :=
  { x with
    sys.pfailLow := b.sys.pfailLow
    sys.resetLow := b.sys.resetLow
    sys.supplyLost := b.sys.supplyLost
    adm.slots := b.adm.slots
    adm.fwActive := b.adm.fwActive
    adm.fwImage := b.adm.fwImage
    outputs := b.outputs
    reply := b.reply
    free := b.free
    stamp := b.stamp }

/-- Entry to Cold (R464): everything is lost but the store. A store write in progress leaves the older slot valid
(R457). -/
def Body.toCold (b : Body) : Body := { b.keep Body.reset with sys := { (b.keep Body.reset).sys with base := .cold } }

/-- Entry to Boot by a DEVICE reset (R434, R436): FREEZE_LOST, RESET_LOST and RESET_CAUSE survive, and THERM_TRIP_N stays
low until Cold (R469). -/
def Body.toBoot (b : Body) : Body :=
  let x := { b.keep Body.reset with sys := { (b.keep Body.reset).sys with thermTrip := b.sys.thermTrip } }
  ((x.fset clsDram 0 FDram.freezeLost (b.fget clsDram 0 FDram.freezeLost)).fset clsClock 0 FClock.resetLost
    (b.fget clsClock 0 FClock.resetLost)).fset clsClock 0 FClock.resetCause 1

/-- RESET_N_LOW (R444): Cold from any mode. -/
def execResetNLow (s : State) : Host.Outcome State Fault Refusal :=
  onBody (fun _ b => { b with sys.resetLow := true }.toCold) s

/-- Cold to Boot (R444, R464), with RESET_N high, every monitor within limits and the system clock running: the time base
starts at 0 (R43). -/
def Dev.leaveCold (d : Dev) : Dev :=
  if d.b.sys.base = .cold ∧ d.b.sys.resetLow = false ∧ d.b.sys.supplyLost = false then ⟨Time.reset, d.b.keep Body.reset⟩
  else d

/-- RESET_N_RELEASE (R464): RESET_N goes high; the device leaves Cold unless a supply or the system clock holds it there. -/
def execResetNRelease (s : State) : Host.Outcome State Fault Refusal :=
  onDev (fun d => Dev.leaveCold { d with b.sys.resetLow := false }) s

/-- SUPPLIES_LOST (R464). -/
def execSuppliesLost (s : State) : Host.Outcome State Fault Refusal :=
  onBody (fun _ b => { b with sys.supplyLost := true }.toCold) s

/-- SUPPLIES_RETURN (R464): every monitor is within limits and the system clock runs; the device leaves Cold if RESET_N is
high. -/
def execSuppliesReturn (s : State) : Host.Outcome State Fault Refusal :=
  onDev (fun d => Dev.leaveCold { d with b.sys.supplyLost := false }) s

/-! DEVICE reset (R435, R348). -/

/-- Accepted frames not finally released (R119). -/
def Body.unreleased (b : Body) : Nat := b.fget clsHeadgate 0 FHead.descUsed

/-- Whether a request of a thread waits for a frozen channel (R346). -/
def Body.waitsFrozen (b : Body) (h : Nat) (r : Req) : Bool :=
  r.reply.isNone && (match r.kind with
    | .drd a n => b.dramHeld a n
    | .frd _ _ => match (b.hart h).item with
      | some it => b.bufHeld it.desc.buffer
      | none => false
    | .treq _ => b.tab.reqs.any (fun x => (match x.origin with
        | .thread g k _ => g == h && k == r.num
        | _ => false) && b.rqHeld x.block)
    | .brd _ | .batom _ _ _ _ => b.basinHeld b.bas.queue.length
    | _ => false)

/-- Whether a frame still waits to be loaded: no thread has it and its item has not committed. -/
def Body.unloaded (b : Body) (d : Desc) : Bool :=
  let its := fun (it : Item) => it.isFrame && it.desc.furrow == d.furrow && it.desc.seq == d.seq
  !b.work.commits.any (fun o => its o.item) && !b.isa.harts.any (fun e => e.2.item.any its)

/-- The frames that need a frozen channel themselves: for an entry of their log, for a request of their thread, or because
they lie there and are not loaded yet. -/
def Body.frozenFrames (b : Body) : List Desc :=
  ((b.work.commits.filter (fun o => o.item.isFrame && o.divert.isNone && !b.channelsOpen o.item)).map (fun o => o.item.desc)) ++
    (b.isa.harts.filterMap (fun e => match e.2.item with
      | some it => if it.isFrame && e.2.reqs.any (b.waitsFrozen e.1) then some it.desc else none
      | none => none)) ++
    ((b.work.slots.filter (fun e => b.bufHeld e.2.desc.buffer && b.unloaded e.2.desc)).map (fun e => e.2.desc))

/-- With a channel frozen: every accepted frame not finally released waits on a frozen channel, itself or behind an
earlier frame of its furrow that does (R346, R348). -/
def Body.allHeld (b : Body) : Bool :=
  let l := b.frozenFrames
  b.work.slots.all (fun e => l.any (fun d => d.furrow == e.2.desc.furrow && decide (0 ≤ tickDiff e.2.desc.seq d.seq)))

/-- DEVICE_RESET_START (R435, R348): the drain is over, the lost count is recorded and the device resets into Boot. -/
def execDeviceResetStart (s : State) : Host.Outcome State Fault Refusal :=
  onDev (fun d =>
    match d.b.adm.draining with
    | some n =>
      let b := d.b
      if b.unreleased = 0 ∨ (b.anyFrozen ∧ b.allHeld) ∨ b.fget clsDram 0 FDram.drainTicks ≤ n then
        let b1 := if b.anyFrozen then b.fset clsDram 0 FDram.freezeLost b.unreleased
          else b.fset clsClock 0 FClock.resetLost b.unreleased
        ⟨Time.reset, b1.toBoot⟩
      else d
    | none => d) s

/-! Boot (R448, R449, R452). -/

/-- The keys read from the store become valid (R422). -/
def Body.loadKeys (b : Body) : Body :=
  match b.storeSlot 3 with
  | some ⟨_, _, .keys l⟩ =>
    let b1 := { b with adm.keys := l }
    l.foldl (fun (x : Body) e =>
      let y := x.fset clsDevice (0x100 + e.1) FKey.valid 1
      if e.1 = 0xFF then y.fset clsDevice 0 FDevice.bivKeyValid 1 else y) b1
  | _ => b

/-- The failing columns of Boot are repaired with spares of their blocks in turn; the memories that have a column with no
spare left come with them (R326). -/
def Body.repairColumns (b : Body) (l : List (Nat × Nat)) : Body × List Nat :=
  l.foldl (fun (r : Body × List Nat) c =>
    if memBytes c.1 ≤ 0x10000 * c.2 then r
    else if r.1.spareLeft c.1 c.2 then (r.1.useSpare c.1 c.2, r.2) else (r.1, r.2 ++ [c.1])) (b, [])

/-- A memory with no spare left retires its core or its cluster. -/
def Body.retireMemory (b : Body) (tm : Time) (m : Nat) : Body :=
  if m < 0x200 then b.retireOne tm (m - 0x100) 1 else b.retireCluster tm (m - 0x200)

/-- How Boot ends (R448): BOOT_STATUS, which is 1 where a memory other than a core's or a cluster's has no spare left, 3
where the flash does not answer, 2 where neither image verifies, and else 0 with the slot that is started. -/
def Body.bootOutcome (b : Body) (flash : Bool) (spent : List Nat) : Nat × Nat :=
  if spent.any (fun m => decide (m < 0x100)) then (1, 0)
  else if !flash then (3, 0)
  else match b.bootChoice with
    | some k => (0, k)
    | none => (2, 0)

/-- BOOT_COMPLETE (R448, R449): the five steps are done, the chosen image runs and Survey follows, or Boot ends in failure. -/
def execBootComplete (r : BootResult) (s : State) : Host.Outcome State Fault Refusal :=
  onBody (fun tm b =>
    if b.sys.base ≠ .boot ∨ b.fget clsPower 0 FPower.bootStatus ≠ 0 then b
    else
      let p := b.repairColumns r.columns
      let e := b.bootOutcome r.flash p.2
      let b1 := (p.1.fset clsPower 0 FPower.bootStatus e.1).fset clsPower 0 FPower.bootMs r.ms.toNat
      if e.1 ≠ 0 then b1
      else
        let b2 := (b1.fset clsPower 0 FPower.bootSlot e.2).runImage e.2
        let b3 := [0, 1, 3, 4].foldl (fun (x : Body) a => x.showStore a) (b2.fset clsStore 2 FStore.valid 1)
        let b4 := p.2.foldl (fun (x : Body) m => x.retireMemory tm m) b3.bootCalib.loadKeys
        { b4 with adm.mailbox.ready := true }.enterMode .survey) s

/-! Survey (R450, R451, R335). -/

/-- Whether a supply monitor is outside its limits, or a sensor reads HOT. -/
def Body.anyOut (b : Body) : Bool := (List.range 12).any (fun i => b.fget clsSensor i FSupply.out == 1)
def Body.anyHot (b : Body) : Bool := (List.range 24).any (fun i => b.fget clsSensor (0x20 + i) FTemp.hot == 1)

/-- Row 1 of Survey ends: bits 1 and 2 of SURVEY_FAIL are judged, once (R450). -/
def Body.endRow1 (b : Body) : Body :=
  match b.adm.survey.verdict with
  | some _ => b
  | none => { b with adm.survey.verdict := some ((if b.anyOut then 2 else 0) + (if b.anyHot then 4 else 0)) }

/-- A monitor or a sensor is read in Survey; row 1 ends when all thirty-six are. -/
def Body.rowSample (b : Body) (inst : Nat) : Body :=
  if b.sys.base ≠ .survey ∨ b.adm.survey.sampled.contains inst then b
  else
    let b1 := { b with adm.survey.sampled := inst :: b.adm.survey.sampled }
    if b1.adm.survey.sampled.length = 36 then b1.endRow1 else b1

/-- The bank's voltage is sampled (R451). -/
def Body.sampleBank (b : Body) (senseMv : Nat) : Body :=
  let v := senseMv * b.fget clsPower 0 FPower.senseRatio / 1000
  b.fset clsPower 0 FPower.bankMv (if v < 65536 then v else Config.counterOver 16 v)

/-- HOLDUP_MEASURE_DONE (R451): row 7; `senseMv` is the sample of HOLDUP_SENSE, `dtUs` the interval between the two
crossings, `none` where MEAS_HI_MV is not crossed; an interval over 800 ms is no crossing either. Row 1 has ended by then. -/
def execHoldupMeasureDone (senseMv : Nat) (dtUs : Option Nat) (s : State) : Host.Outcome State Fault Refusal :=
  onBody (fun _ b =>
    if b.sys.base ≠ .survey ∨ b.adm.survey.bank then b
    else
      let b1 := b.endRow1.sampleBank senseMv
      let b2 := { b1 with sys.holdupChg := true, adm.survey.bank := true }
      let lo := b2.fget clsPower 0 FPower.measLoMv
      let hi := b2.fget clsPower 0 FPower.measHiMv
      if lo ≤ b2.fget clsPower 0 FPower.bankMv then b2.fset clsPower 0 FPower.holdupMeasured 0
      else match dtUs.filter (fun dt => decide (dt ≤ 800000)) with
        | some dt =>
          let c := b2.fget clsPower 0 FPower.chargeMa * dt / (hi - lo)
          (b2.fset clsPower 0 FPower.bankCapUf (if c < 2 ^ 32 then c else Config.counterOver 32 c)).fset clsPower 0
            FPower.holdupMeasured 1
        | none => (b2.fset clsPower 0 FPower.bankCapUf 0).fset clsPower 0 FPower.holdupMeasured 0) s

/-- GiB of a rank by density (Table 13.1). -/
def rankGib (density : Nat) : Nat := [16, 24, 32].getD density 0

/-- Whether the margins of every populated channel pass: 20 ps or more (R342). -/
def eyesPass (c : Nat) (l : List (BitVec 16 × BitVec 16)) : Bool :=
  (List.range c).all (fun k => match l[k]? with
    | some e => decide (20 ≤ e.1.toNat) && decide (20 ≤ e.2.toNat)
    | none => false)

/-- The order in which a channel is trained (R342). -/
def trainOrder : List TrainStep :=
  [.command, .vrefCa, .writeLevelling, .readGate, .readCentring, .writeCentring]

/-- Row 3 of Survey (R335, R342): the channels are trained in order, the margins are shown, and the population is in use, or none
of it. -/
def Body.surveyDram (b : Body) (r : SurveyResult) : Bool × Body :=
  let c := r.channels.toNat
  let ok := r.trained && (c == 1 || c == 2 || c == 4 || c == 8) && r.density != 3 && r.speed != 3 && eyesPass c r.eyes
  let b0 := (List.range 8).foldl (fun (x : Body) k =>
    x.fset clsDram (1 + k) FChan.present (if ok ∧ k < c then 1 else 0))
      { b with drm.training := (List.range (min c 8)).map (fun k => (k, trainOrder)) }
  let b1 := r.eyes.zipIdx.foldl (fun (x : Body) e =>
    if e.2 < min c 8 then (x.fset clsDram (1 + e.2) FChan.readEyePs e.1.1.toNat).fset clsDram (1 + e.2) FChan.writeEyePs
      e.1.2.toNat else x) b0
  let use := fun (n speed density ranks mib : Nat) =>
    ((((b1.fset clsDram 0 FDram.channels n).fset clsDram 0 FDram.speed speed).fset clsDram 0 FDram.density density).fset
      clsDram 0 FDram.ranksM1 ranks).fset clsDram 0 FDram.capacityMib mib
  if ok then
    (true, use c (min r.speed.toNat b.drm.speedLimit) r.density.toNat r.ranksM1.toNat
      (c * rankGib r.density.toNat * (r.ranksM1.toNat + 1) * 1024))
  else (false, use 0 0 0 0 0)

/-- The high-power mode of a group's module is enabled only if its power class is at most MOD_POWER_MAX (R67). -/
def Body.modulePower (b : Body) (g : Nat) : Body :=
  let on := b.fget clsPort (4 * g) FPort.modPresent == 1 &&
    decide (b.fget clsPort (4 * g) FPort.modPowerClass ≤ b.fget clsPort (4 * g) FPort.modPowerMax)
  { b with net.highPower := (b.net.highPower.filter (fun k => decide (k ≠ g))) ++ (if on then [g] else []) }

/-- Rows 4 to 6 of Survey (R67, R68). -/
def Body.surveyPorts (b : Body) (r : SurveyResult) : Body :=
  let b1 := r.lanes.zipIdx.foldl (fun (x : Body) e =>
    if e.2 < 64 then (x.fset clsPort e.2 FPort.laneLoss e.1.1.toNat).fset clsPort e.2 FPort.cableLen e.1.2.toNat else x) b
  let b2 := r.modules.zipIdx.foldl (fun (x : Body) e =>
    if e.2 < 16 then
      match e.1 with
      | some m => ((x.fset clsPort (4 * e.2) FPort.modPresent 1).fset clsPort (4 * e.2) FPort.modId m.1.toNat).fset clsPort
          (4 * e.2) FPort.modPowerClass m.2.toNat
      | none => ((x.fset clsPort (4 * e.2) FPort.modPresent 0).fset clsPort (4 * e.2) FPort.modId 0).fset clsPort
          (4 * e.2) FPort.modPowerClass 0
    else x) b1
  let b3 := (List.range 16).foldl (fun (x : Body) g => x.modulePower g) b2
  r.partners.zipIdx.foldl (fun (x : Body) e =>
    if e.2 < 64 then x.fset clsPort e.2 FPort.lpAbility e.1.toNat else x) b3

/-- The configuration that area 0 of the store holds (R453): N, the states of the tents, the records. -/
def Body.savedSet (b : Body) : Option (Nat × List Nat × List (ObjAddr × Nat)) :=
  match b.storeSlot 0 with
  | some ⟨_, _, .config n states records⟩ => some (n, states, records)
  | _ => none

/-- Whether row 8 of Survey is still to run: AUTO_RESTORE = 1 and a valid slot in area 0 (R453). -/
def Body.rowEightDue (b : Body) : Bool :=
  b.fget clsPower 0 FPower.autoRestore == 1 && b.savedSet.isSome && !b.adm.bootSet

/-- Rows 2 to 6 of Survey: their results are shown, after row 1 (R450). -/
def Body.surveyRows (b : Body) (r : SurveyResult) : Body :=
  let d := b.endRow1.surveyDram r
  let b1 := ((d.2.surveyPorts r).fset clsSensor 0x100 FHostLink.pcieWidth r.pcieWidth.toNat).fset clsSensor 0x100
    FHostLink.pcieSpeed r.pcieSpeed.toNat
  { b1.fset clsPower 0 FPower.surveyFail ((if d.1 then 0 else 1) + b1.adm.survey.verdict.getD 0) with
    adm.survey.shown := true }

/-- SURVEY_COMPLETE (R450): the results of rows 2 to 6 are shown; once row 7 has run, and row 8 where it is due, Survey ends
and the device enters Standby, passed or failed (assumption log 109). -/
def execSurveyComplete (r : SurveyResult) (s : State) : Host.Outcome State Fault Refusal :=
  onBody (fun _ b =>
    if b.sys.base ≠ .survey then b
    else
      let b1 := b.surveyRows r
      if !b1.adm.survey.bank || b1.rowEightDue then b1
      else ((b1.fset clsPower 0 FPower.surveyOk (if b1.fget clsPower 0 FPower.surveyFail = 0 then 1 else 0)).fset clsPower
        0 FPower.surveyMs r.ms.toNat).enterMode .standby) s

/-! MODE_SET (R445, R446). -/

/-- Whether any data-plane thread is halted (R166). -/
def Body.anyHalted (b : Body) : Bool := b.isa.harts.any (fun e => decide (e.1 < 1024) && e.2.halted)

/-- A mode is requested: the status and the state; `none` where the reply waits for the wake of R454. -/
def Body.modeSet (b : Body) (code : Nat) : Option Nat × Body :=
  let base := b.sys.base
  let drain := fun (x : Body) => (x.enterMode .drain).fset clsPower 0 FPower.modeTarget code
  let serving := decide (base = .service ∨ base = .degraded)
  if base = .update then (some stBusy, b)
  else if 12 ≤ code then (some stOutOfRange, b)
  else if base = .drain ∧ (code = 3 ∨ code = 7) then (some stOk, b.fset clsPower 0 FPower.modeTarget code)
  else if code = base.code ∨ (code = 4 ∧ base = .degraded) then
    (if code = 5 then (some stNotInMode, b) else (some stOk, b))
  else if base = .standby ∧ code = 2 then (some stOk, b.enterMode .survey)
  else if base = .standby ∧ (code = 4 ∨ code = 8) then
    if b.fget clsPower 0 FPower.surveyOk = 1 then
      (some stOk, b.enterMode (if code = 8 then .bench else b.serviceMode))
    else (some stNotInMode, b)
  else if base = .standby ∧ code = 11 then
    if b.fget clsPower 0 FPower.wakeEn = 0 then (some stOutOfRange, b) else (none, b)
  else if serving ∧ code = 8 then (some stOk, b.enterMode .bench)
  else if (serving ∧ (code = 3 ∨ code = 7)) then (some stOk, drain b)
  else if base = .bench ∧ (code = 3 ∨ code = 7 ∨ code = 4) then
    if b.anyHalted then (some stBusy, b)
    else (some stOk, if code = 4 then b.enterMode b.serviceMode else drain b)
  else if base = .drain ∧ code = 4 then (some stOk, b.enterMode b.serviceMode)
  else (some stNotInMode, b)

/-- Whether Drain has settled (R446). -/
def Body.settled (b : Body) : Bool :=
  b.fget clsHeadgate 0 FHead.descUsed == 0 && b.fget clsOutfall 0 FOut.logUsed == 0 &&
    b.fget clsOutfall 0 FOut.excUsed == 0 &&
    (List.range 68).all (fun p => b.queuedFrames p == 0) &&
    b.bas.queue.isEmpty && b.host.tx.isEmpty && b.work.outcomes.isEmpty &&
    b.enabledRings.all (fun r => !b.ringIs r 1 || b.ringLeft r == 0)

/-- DRAIN_SETTLE (R446): with MODE_TARGET 3 the device enters Standby, with 7 it stays in Drain. -/
def execDrainSettle (s : State) : Host.Outcome State Fault Refusal :=
  onBody (fun _ b =>
    if b.sys.base = .drain ∧ b.settled ∧ b.fget clsPower 0 FPower.modeTarget = 3 then b.enterMode .standby else b) s

/-! Firmware handover (R447). -/

/-- The base mode that Update gives way to. -/
def Body.leaveUpdate (b : Body) : Body :=
  { (b.enterMode (if b.sys.prevBase = .service then b.serviceMode else b.sys.prevBase)) with sys.handover := false }

def Body.resetCores (b : Body) (tm : Time) : Body := (List.range 4).foldl (fun (x : Body) j => x.bivReset tm j) b

/-- FIRMWARE_HANDOVER: the four cores are reset into the verified image. Update ends with the handover even where an
epoch is still live (assumption log 33). -/
def execFirmwareHandover (s : State) : Host.Outcome State Fault Refusal :=
  onBody (fun tm b =>
    match b.adm.fw with
    | some f =>
      if f.started then b
      else { ((b.resetCores tm).runImage f.slot) with
        adm.fw := some { f with started := true, since := tm.now }, adm.mailbox.ready := false }
    | none => b) s

/-- Two seconds, in 2^-16 ns. -/
def twoSeconds : Nat := 2 * 10 ^ 9 * 2 ^ 16

/-- A write of 1 to FW_READY, within 2 s of the handover. -/
def Body.fwReady (b : Body) (tm : Time) : Body :=
  match b.adm.fw with
  | some f =>
    if f.started ∧ (tm.now + 2 ^ 64 - f.since) % 2 ^ 64 ≤ twoSeconds then
      ({ b with adm.fw := none, adm.fwActive := f.slot, adm.mailbox.ready := true }.fset clsPower 0 FPower.bootSlot
        f.slot).leaveUpdate
    else b
  | none => b

/-- FW_READY_TIMEOUT: 2 s without FW_READY; the cores are reset into the image of the previous slot, which BOOT_SLOT
shows. -/
def execFwReadyTimeout (s : State) : Host.Outcome State Fault Refusal :=
  onDev (fun d =>
    match d.b.adm.fw with
    | some f =>
      if f.started then
        let d1 := d.waitUntil ((f.since + twoSeconds) % 2 ^ 64)
        let b1 := { ((d1.b.resetCores d1.tm).runImage (d1.b.fget clsPower 0 FPower.bootSlot)) with
          adm.fw := none, adm.mailbox.ready := true }
        { d1 with b := (b1.bump clsPower 0 FPower.fwRollbacks 1).leaveUpdate }
      else d
    | none => d) s

/-! Dormant (R454, R455). -/

/-- The reply that waits for the end of a MODE_SET 11. -/
def Body.replySleep (b : Body) (status : Nat) : Body :=
  match b.adm.sleep with
  | some c => { b with adm.sleep := none }.sendReply c status []
  | none => b

/-- DORMANT_ENTRY (R454): the sleep cycle; a wake source that has fired wins, and so does Hold, whose causes wake the device
whatever WAKE_EN holds (assumption log 159). -/
def execDormantEntry (s : State) : Host.Outcome State Fault Refusal :=
  onBuf (fun _ b =>
    if b.adm.sleep.isSome ∧ b.sys.base = .standby then
      if b.adm.fired ≠ 0 ∨ b.sys.hold then { b with adm.fired := 0 }.replySleep stWokeBeforeSleep
      else b.enterMode .dormant
    else b) s

/-- A wake is taken (R455): WAKE_CAUSE records the sources that have fired. -/
def Body.noteWake (b : Body) : Body := { b.fset clsPower 0 FPower.wakeCause b.adm.fired with adm.fired := 0 }

/-- The device wakes (R455): WAKE_CAUSE, Standby, the reply of the MODE_SET. -/
def Body.wake (b : Body) : Body := (b.noteWake.enterMode .standby).replySleep stOk

/-- WAKE (R455): an enabled source that has fired in Dormant wakes the device. -/
def execWake (src : Nat) (s : State) : Host.Outcome State Fault Refusal :=
  onBuf (fun _ b =>
    if b.asleep ∧ src < 5 ∧ (b.fget clsPower 0 FPower.wakeEn).testBit src ∧ b.adm.fired.testBit src then b.wake else b) s

/-! Hold (R456, R465). -/

/-- Entry to Hold: counted, and the Hold checkpoint starts once it passes its check. From Dormant the device wakes
first; its base mode stays Dormant until Hold lifts. -/
def Body.enterHold (b : Body) : Body :=
  if b.sys.hold ∨ b.sys.base = .cold ∨ b.sys.base = .boot then b
  else
    let b1 := (b.overlay (fun x => { x with sys.hold := true })).bump clsPower 0 FPower.holds 1
    (if b.asleep then b1.noteWake.replySleep stOk else b1).holdCheckpoint

/-- PFAIL (R456): PFAIL_N has been low for PFAIL_FILTER_US. In Cold and Boot it is ignored. -/
def execPfail (s : State) : Host.Outcome State Fault Refusal :=
  onBody (fun _ b =>
    let b1 := { b with sys.pfailLow := true }
    if b1.sys.base = .cold ∨ b1.sys.base = .boot then b1 else (b1.setLevel 0 true).enterHold) s

/-- Whether a brown-out is in force (R465): one of the three core rails outside its limits. -/
def Body.brownOut (b : Body) : Bool := (List.range 3).any (fun i => b.fget clsSensor i FSupply.out == 1)

/-- A device whose base mode was Dormant through Hold is in Standby once Hold lifts. -/
def Body.wakeUp (b : Body) : Body := if b.sys.base = .dormant then b.enterMode .standby else b

/-- PFAIL_N is high: source 0 falls, and the time from which Hold may lift starts where the ball was low. -/
def Body.pfailHigh (b : Body) (tm : Time) : Body :=
  { b with sys.pfailLow := false, sys.clearSince := if b.sys.pfailLow then tm.now else b.sys.clearSince }.setLevel 0 false

/-- The level of PFAIL_N changes (R456): source 0 follows it at once, but for Cold and Boot. -/
def Body.pfailPin (b : Body) (tm : Time) (high : Bool) : Body :=
  if high then b.pfailHigh tm
  else if b.sys.base = .boot then { b with sys.pfailLow := true }
  else { b with sys.pfailLow := true }.setLevel 0 true

/-- HOLD_LIFT (R456): PFAIL_N is high; Hold lifts once that and the absence of a brown-out have lasted HOLD_RELEASE_MS. -/
def execHoldLift (s : State) : Host.Outcome State Fault Refusal :=
  onDev (fun d =>
    let d0 : Dev := { d with b := d.b.pfailHigh d.tm }
    if d0.b.sys.hold ∧ ¬ d0.b.brownOut then
      let d1 := d0.waitUntil ((d0.b.sys.clearSince + d0.b.fget clsPower 0 FPower.holdReleaseMs * 1000000 * 2 ^ 16) % 2 ^ 64)
      { d1 with b := ((d1.b.overlay (fun x => { x with sys.hold := false })).wakeUp).settle d1.tm }
    else { d0 with b := d0.b.settle d0.tm }) s

/-! Sensors (R461, R465, R469). -/

/-- A monitor's reading in mV (Table 18.9). -/
def Body.readSupply (b : Body) (tm : Time) (i raw : Nat) : Body :=
  let v : Int := raw + signedOf 16 (b.fget clsSensor i FSupply.offsetMv)
  let mv := if 0 ≤ v ∧ v < 65536 then v.toNat else lowBits 16 (Config.counterOver 16 (codeOf 32 v))
  let out := decide (mv < b.fget clsSensor i FSupply.lowMv ∨ b.fget clsSensor i FSupply.highMv < mv)
  let b1 := (b.fset clsSensor i FSupply.mv mv).fset clsSensor i FSupply.minMv (min mv (b.fget clsSensor i FSupply.minMv))
  let b2 := b1.fset clsSensor i FSupply.maxMv (max mv (b.fget clsSensor i FSupply.maxMv))
  let b3 := if out ∧ b.fget clsSensor i FSupply.out = 0 then b2.bump clsSensor i FSupply.excursions 1 else b2
  let b4 := b3.fset clsSensor i FSupply.out (if out then 1 else 0)
  let b5 := b4.setLevel 2 b4.anyOut
  if b5.brownOut then b5.enterHold
  else if b.brownOut then { b5 with sys.clearSince := tm.now }
  else b5

/-- A sensor's reading in 1/16 °C (Table 18.10). -/
def Body.readTemp (b : Body) (i raw : Nat) : Body :=
  let v := signedOf 16 raw + signedOf 16 (b.fget clsSensor i FTemp.offset)
  let t := if -32768 ≤ v ∧ v < 32768 then v else signedOf 16 (Config.counterOver 16 (codeOf 32 v))
  let crit := signedOf 16 (b.fget clsSensor i FTemp.crit)
  let was := b.fget clsSensor i FTemp.hot == 1
  let hot := decide (crit < t) || (was && decide (crit - 32 ≤ t))
  let b1 := (b.fset clsSensor i FTemp.temp (codeOf 16 t)).fset clsSensor i FTemp.maxF
    (codeOf 16 (max t (signedOf 16 (b.fget clsSensor i FTemp.maxF))))
  let b2 := if hot && !was then b1.bump clsSensor i FTemp.excursions 1 else b1
  let b3 := (b2.fset clsSensor i FTemp.hot (if hot then 1 else 0)).fset clsSensor i FTemp.warm
    (if signedOf 16 (b.fget clsSensor i FTemp.warn) < t then 1 else 0)
  b3.setLevel 1 b3.anyHot

/-- SENSOR_SAMPLE (R461): a monitor or a sensor takes a reading. Instance 0x200 is the hold-up bank's sense input, which
R451 samples too, and instance 0x201 the level of PFAIL_N, which source 0 follows (R456); no other row gives either
(assumption log 34). -/
def execSensorSample (inst : Nat) (raw : BitVec 16) (s : State) : Host.Outcome State Fault Refusal :=
  onBody (fun tm b =>
    if b.sys.base = .cold then b
    else if inst < 12 then (b.readSupply tm inst raw.toNat).rowSample inst
    else if 0x20 ≤ inst ∧ inst < 0x38 then (b.readTemp inst raw.toNat).rowSample inst
    else if inst = 0x200 then b.sampleBank raw.toNat
    else if inst = 0x201 then b.pfailPin tm (raw.toNat != 0)
    else b) s

/-- Whether a sensor reads 160 °C or more, in 1/16 °C. -/
def Body.tooHot (b : Body) (sensor : Nat) : Bool :=
  decide (2560 ≤ signedOf 16 (b.fget clsSensor (0x20 + sensor) FTemp.temp))

/-- THERM_TRIP (R469): a sensor has read 160 °C or more for 10 µs; THERM_TRIP_N goes low until Cold. -/
def execThermTrip (sensor : Nat) (s : State) : Host.Outcome State Fault Refusal :=
  onBody (fun _ b =>
    if sensor < 24 ∧ b.sys.base ≠ .cold ∧ b.tooHot sensor then { b with sys.thermTrip := true } else b) s

end Sys2Proof.Machine
end

