-- ==== Sys2Proof/Machine/Clocks.lean ====
section
/-! DEFINITION. Lost clocks, resets of one side of a crossing, and the host resets that come from the PCIe link
(spec/17, R430 to R439; spec/15, R385). -/

namespace Sys2Proof.Machine

/-! Lost and restored clocks (R430, R431). -/

/-- Whether group `g`'s reference is monitored, and whether it is lost. -/
def Body.refMonitored (b : Body) (g : Nat) : Bool := (b.fget clsClock 0 FClock.refMonitorEn).testBit g
def Body.refIsLost (b : Body) (g : Nat) : Bool := (b.fget clsClock 0 FClock.refLost).testBit g

/-- Whether an input is monitored: the system and PCIe clocks always. -/
def Body.monitored (b : Body) : ClockIn → Bool
  | .group g => decide (g < 16) && b.refMonitored g
  | _ => true

/-- Whether an input is lost. -/
def Body.isLost (b : Body) : ClockIn → Bool
  | .sys => b.fget clsClock 0 FClock.sysLost == 1
  | .pcie => b.fget clsClock 0 FClock.pcieLost == 1
  | .group g => b.refIsLost g

/-- Source 3, CLOCK_LOSS, is asserted while any input is lost. -/
def Body.clockLevel (b : Body) : Body :=
  b.setLevel 3 (decide (b.fget clsClock 0 FClock.sysLost = 1 ∨ b.fget clsClock 0 FClock.pcieLost = 1 ∨
    b.fget clsClock 0 FClock.refLost ≠ 0))

/-- A host reset of every tent (R385). -/
def Body.hostResetAll (b : Body) : Body :=
  let b1 := (List.range b.tents).foldl (fun (x : Body) t => x.hostReset t) b
  { b1 with host.msix := [], host.unmasked := [], host.pba := [], host.functionMask := false }

/-- The four ports of a group. -/
def groupPorts (g : Nat) : List Nat := [4 * g, 4 * g + 1, 4 * g + 2, 4 * g + 3]

/-- The ports of a list that are up go down. -/
def Body.downPorts (b : Body) (l : List Nat) : Body :=
  l.foldl (fun (x : Body) p => if x.portUp p then x.linkDown p else x) b

/-- An input is lost: its bit, and what its domain loses with it. -/
def Body.loseClock (b : Body) (ck : ClockIn) : Body :=
  (match ck with
    | .sys => (b.fset clsClock 0 FClock.sysLost 1).fset clsClock 0 FClock.sysHoldover 1
    | .pcie => (b.fset clsClock 0 FClock.pcieLost 1).hostResetAll
    | .group g =>
      (b.fset clsClock 0 FClock.refLost (b.fget clsClock 0 FClock.refLost ||| 2 ^ g)).downPorts (groupPorts g)).clockLevel

/-- An input is restored. -/
def Body.restoreClock (b : Body) (ck : ClockIn) : Body :=
  (match ck with
    | .sys => (b.fset clsClock 0 FClock.sysLost 0).fset clsClock 0 FClock.sysHoldover 0
    | .pcie => (b.fset clsClock 0 FClock.pcieLost 0).sendHeld
    | .group g =>
      b.fset clsClock 0 FClock.refLost (setBits (b.fget clsClock 0 FClock.refLost) g 1 0)).clockLevel

/-- CLOCK_EDGE_TIMEOUT (R430): no edge of a monitored input within 1 µs. -/
def execClockEdgeTimeout (ck : ClockIn) (s : State) : Host.Outcome State Fault Refusal :=
  onBuf (fun _ b => if b.sys.base ≠ .cold ∧ b.monitored ck ∧ ¬ b.isLost ck then b.loseClock ck else b) s

/-- Whether SYSCLK_25 has a reference: some group is monitored and not lost. -/
def Body.sysReference (b : Body) : Bool := (List.range 16).any (fun g => b.refMonitored g && !b.refIsLost g)

/-- The field that gives an input's offset. -/
def offsetField : ClockIn → Fld
  | .sys => FClock.sysOffsetPpb
  | .pcie => FClock.pcieOffsetPpb
  | .group g => refOffset g

/-- An offset is shown; one that the field does not hold leaves it free (assumption log 9). -/
def Body.showOffset (b : Body) (ck : ClockIn) (ppb : Int) : Body :=
  b.fset clsClock 0 (offsetField ck)
    (if -(2 ^ 31) ≤ ppb ∧ ppb < 2 ^ 31 then codeOf 32 ppb else Config.counterOver 32 (codeOf 64 ppb))

/-- CLOCK_FREQUENCY_WINDOW (R430): a window of 1 ms ends; `ppb` is the input's offset from nominal against its
reference, or against the internal oscillator where SYSCLK_25 has no other. -/
def execClockFrequencyWindow (ck : ClockIn) (ppb : Int) (s : State) : Host.Outcome State Fault Refusal :=
  onBuf (fun _ b =>
    if b.sys.base = .cold ∨ ¬ b.monitored ck ∨ (ck ≠ .sys ∧ b.isLost .sys) then b
    else
      let alone := decide (ck = .sys) && !b.sysReference
      let b1 := if alone then b else b.showOffset ck ppb
      if (if alone then 30000000 else 1000000) < ppb.natAbs ∧ ¬ b.isLost ck then b1.loseClock ck else b1) s

/-- CLOCK_RESTORED (R430): neither condition has held for 1 ms. -/
def execClockRestored (ck : ClockIn) (s : State) : Host.Outcome State Fault Refusal :=
  onBuf (fun _ b => if b.sys.base ≠ .cold ∧ b.isLost ck then b.restoreClock ck else b) s

/-- REF_MONITOR_EN takes a value: the LOST bit of a group that is not monitored reads 0. -/
def Body.setMonitor (b : Body) (v : Nat) : Body :=
  ((b.fset clsClock 0 FClock.refMonitorEn v).fset clsClock 0 FClock.refLost
    (b.fget clsClock 0 FClock.refLost &&& v)).clockLevel

/-- MGMT_TIMEOUT (R433): a management access has no answer within 2^20 MGMT cycles. It is the one that is made next, which is
withdrawn with BUSY (assumption log 157). -/
def execMgmtTimeout (s : State) : Host.Outcome State Fault Refusal :=
  onBody (fun _ b =>
    if b.sys.base = .cold then b
    else { (b.answer stBusy).bump clsClock 0 FClock.mgmtTimeouts 1 with adm.unanswered := true }) s

/-! Resets of one side of a crossing (R434, R437 to R439). -/

/-- A crossing stops: READY reads 0. -/
def Body.stopCross (b : Body) (x : Nat) : Body := b.fset clsClock (0x100 + x) FCross.ready 0

/-- A frame under reception at a port is discarded before acceptance (R438). -/
def Body.loseRx (b : Body) (p : Nat) : Body :=
  match b.rx? p with
  | some x =>
    match x.buffer with
    | some h => (((b.freeBuf h .rx).2).endRx p).bump clsClock (0x100 + rxCross p) FCross.lostUpstream 1
    | none => b.endRx p
  | none => b

/-- A frame in transmission at a port is cut, and is sent again (R439, R82). -/
def Body.resendTx (b : Body) (p : Nat) : Body :=
  if (b.eg p).sending.isSome then b.bump clsClock (0x100 + txCross p) FCross.resent 1 else b

/-- A reset of the MACs of ports: GROUP_g and SERVICE. -/
def Body.macReset (b : Body) (l : List Nat) (rx tx : Nat) : Body :=
  let b1 := l.foldl (fun (x : Body) p => (x.loseRx p).resendTx p) b
  ((b1.downPorts l).stopCross rx).stopCross tx

/-- TX ring frames on their way in are discarded before acceptance (R438). -/
def Body.loseHostFrames (b : Body) : Body :=
  let l := b.host.tx.filter (fun x => decide (x.stage = .reading))
  let b1 := l.foldl (fun (x : Body) e =>
    (x.releaseBuf e.buffer).bump clsClock (0x100 + 0x22) FCross.lostUpstream 1) b
  { b1 with host.tx := b1.host.tx.filter (fun x => decide (x.stage ≠ .reading)) }

/-- PCIE: a hot reset of the endpoint. -/
def Body.pcieScope (b : Body) : Body := ((b.loseHostFrames.hostResetAll).stopCross 0x22).stopCross 0x23

/-- BIVOUAC: the cores, and the frames of the Bivouac's input. -/
def Body.bivScope (b : Body) (tm : Time) : Body :=
  let b1 := b.net.bivIn.foldl (fun (x : Body) f =>
    ((x.freeBuf f.buffer .rx).2).bump clsClock (0x100 + 0x24) FCross.lostUpstream 1) (b.resetCores tm)
  { b1 with net.bivIn := [] }.stopCross 0x24

/-- The scopes that a RESET command names (Table 17.3). -/
def scopeKnown (s : Nat) : Bool := s ≤ 0 || (0x10 ≤ s && s < 0x20) || s == 0x20 || s == 0x30 || s == 0x40

/-- What a scope resets. -/
def Body.scopeReset (b : Body) (tm : Time) (s : Nat) : Body :=
  if 0x10 ≤ s ∧ s < 0x20 then b.macReset (groupPorts (s - 0x10)) (s - 0x10) s
  else if s = 0x20 then b.macReset [64] 0x20 0x21
  else if s = 0x30 then b.pcieScope
  else if s = 0x40 then b.bivScope tm
  else b

/-- SCOPE_RESET_START (R437): a requested reset of one side takes effect. -/
def execScopeResetStart (scope : BitVec 8) (s : State) : Host.Outcome State Fault Refusal :=
  onBuf (fun tm b =>
    if b.adm.scopes.contains scope.toNat then
      { b with adm.scopes := b.adm.scopes.erase scope.toNat }.scopeReset tm scope.toNat
    else b) s

/-- What waits for a crossing passes it once it is ready: messages to the host, direct-path frames. -/
def Body.crossNow (b : Body) (x : Nat) : Body :=
  if x = 0x23 then b.sendHeld
  else if x = 0x24 then { b with net.bivIn := b.net.bivIn ++ b.net.bivWait, net.bivWait := [] }
  else b

/-- CROSSING_RESYNC (R437): the reset has ended and the pointers are resynchronised. -/
def execCrossingResync (x : Nat) (s : State) : Host.Outcome State Fault Refusal :=
  onBuf (fun _ b =>
    if x < 0x25 ∧ ¬ b.crossReady x then
      ((b.fset clsClock (0x100 + x) FCross.ready 1).bump clsClock (0x100 + x) FCross.resyncs 1).crossNow x
    else b) s

/-! The PCIe link (R385). -/

/-- PCIE_RESET (R385): a function-level reset, a hot reset or a loss of the link. -/
def execPcieReset (s : State) : Host.Outcome State Fault Refusal :=
  onBuf (fun _ b => if b.sys.base = .cold then b else b.hostResetAll) s

end Sys2Proof.Machine
end

