-- ==== Sys2Proof/Machine/Runnel.lean ====
section
/-! DEFINITION. The Runnel sample coprocessor: contexts, lanes, rounding, RCS and the context image
(spec/08, R209 to R219, R221, R225, R231). A Runnel instruction has its results in State at its core commit (assumption log 14). -/

namespace Sys2Proof.Machine

/-! Lanes. -/

/-- Lane `n` of a register of `w`-bit lanes (R210, R211). -/
def laneOf (w v n : Nat) : Nat := v / 2 ^ (w * n) % 2 ^ w

/-- A register of 32 lanes of `w` bits. -/
def ofLanes (w : Nat) (g : Nat → Nat) : Nat := ((List.range 32).map (fun n => g n % 2 ^ w * 2 ^ (w * n))).sum

/-- The lanes of a condition, as a mask. -/
def laneMask (p : Nat → Bool) : Nat := ((List.range 32).map (fun n => if p n then 2 ^ n else 0)).sum

/-- A lane code read as U10 where E is 1, else as S10 (R210). -/
def sampleOf (u : Bool) (c : Nat) : Int := if u then (c % 1024 : Nat) else signedOf 10 c

/-- A result clamped to a range, and whether it was outside. -/
def clampInt (lo hi x : Int) : Int × Bool :=
  if x < lo then (lo, true) else if hi < x then (hi, true) else (x, false)

/-- A result clamped to the nearest code of a format (R220). -/
def clampSample (u : Bool) (x : Int) : Nat × Bool :=
  let r := if u then clampInt 0 1023 x else clampInt (-512) 511 x
  (codeOf 10 r.1, r.2)

/-- An accumulator result clamped to 32 bits (R211). -/
def clampAcc (x : Int) : Nat × Bool :=
  let r := clampInt (-(2 ^ 31)) (2 ^ 31 - 1) x
  (codeOf 32 r.1, r.2)

/-- round(x, k) under RMODE (R221). -/
def roundShift (mode : Nat) (x : Int) (k : Nat) : Int :=
  if k = 0 then x
  else
    let p : Int := (2 ^ k : Nat)
    let q := x / p
    let f := x % p
    let half : Int := (2 ^ (k - 1) : Nat)
    let up := match mode with
      | 0 => false
      | 1 => decide (half ≤ f)
      | 2 => decide (half < f ∨ (f = half ∧ q % 2 = 1))
      | _ => decide (x < 0 ∧ f ≠ 0)
    if up then q + 1 else q

/-! Contexts. -/

def RCtx.sreg (x : RCtx) (k : Nat) : Nat := (mapGet 0 k x.sregs).toNat
def RCtx.acc (x : RCtx) (k : Nat) : Nat := (mapGet 0 k x.accs).toNat
def RCtx.pred (x : RCtx) (k : Nat) : Nat := (mapGet 0 k x.preds).toNat
def RCtx.setSreg (x : RCtx) (k v : Nat) : RCtx := { x with sregs := mapPut k (BitVec.ofNat 320 v) x.sregs }
def RCtx.setAcc (x : RCtx) (k v : Nat) : RCtx := { x with accs := mapPut k (BitVec.ofNat 1024 v) x.accs }
def RCtx.setPred (x : RCtx) (k v : Nat) : RCtx := { x with preds := mapPut k (BitVec.ofNat 32 v) x.preds }

/-- Whether PSEL selects a lane (Table 8.4). -/
def RCtx.selects (x : RCtx) (psel n : Nat) : Bool :=
  if psel = 0 then true else if psel < 8 then (x.pred (psel % 4)).testBit n else !(x.pred (psel % 4)).testBit n

/-- What a lane operation gives: the lane's new value, whether it saturated, whether it divided by zero. -/
structure LaneOut where
  val : Nat
  sat : Bool
  dz : Bool
  deriving DecidableEq, Repr

def LaneOut.plain (v : Nat) : LaneOut := ⟨v, false, false⟩
def LaneOut.clamped (r : Nat × Bool) : LaneOut := ⟨r.1, r.2, false⟩

/-- The sticky bits of the lanes written (R212, R219). -/
def RCtx.stick (x : RCtx) (psel : Nat) (g : Nat → LaneOut) : RCtx :=
  { x with
    satLanes := x.satLanes ||| laneMask (fun n => x.selects psel n && (g n).sat)
    dzLanes := x.dzLanes ||| laneMask (fun n => x.selects psel n && (g n).dz) }

/-- The selected lanes of a sample register written (R212). -/
def RCtx.writeSamples (x : RCtx) (k psel : Nat) (g : Nat → LaneOut) : RCtx :=
  (x.stick psel g).setSreg k (ofLanes 10 (fun n => if x.selects psel n then (g n).val else laneOf 10 (x.sreg k) n))

/-- The selected lanes of an accumulator written (R211, R212). -/
def RCtx.writeAccs (x : RCtx) (k psel : Nat) (g : Nat → LaneOut) : RCtx :=
  (x.stick psel g).setAcc k (ofLanes 32 (fun n => if x.selects psel n then (g n).val else laneOf 32 (x.acc k) n))

/-- The selected bits of a predicate written (R222). -/
def RCtx.writePreds (x : RCtx) (k psel : Nat) (g : Nat → Bool) : RCtx :=
  x.setPred k (laneMask (fun n => if x.selects psel n then g n else (x.pred k).testBit n))

/-- RCS of context `c` (Table 8.5). -/
def RCtx.rcs (x : RCtx) (c : Nat) : Nat :=
  x.rmode % 4 + (if x.satLanes ≠ 0 then 4 else 0) + (if x.dzLanes ≠ 0 then 8 else 0) + (if x.wsat then 16 else 0) +
    32 * (c % 2)

/-- A control word read (Table 8.6). -/
def RCtx.control (x : RCtx) (c k : Nat) : Nat :=
  match k with
  | 0 => x.rcs c
  | 1 => x.satLanes
  | 2 => x.dzLanes
  | _ => x.pred (k - 3)

/-- A control word written (Table 8.6). -/
def RCtx.setControl (x : RCtx) (k v : Nat) : RCtx :=
  match k with
  | 0 => { x with rmode := v % 4, wsat := x.wsat && !v.testBit 4 }
  | 1 => { x with satLanes := v % 2 ^ 32 }
  | 2 => { x with dzLanes := v % 2 ^ 32 }
  | _ => x.setPred (k - 3) v

/-- The image of context `c` (Table 8.14). -/
def RCtx.image (x : RCtx) (c : Nat) : List Byte :=
  (List.range 32).flatMap (fun k => leBytes 40 (x.sreg k)) ++ (List.range 8).flatMap (fun k => leBytes 128 (x.acc k)) ++
    (List.range 4).flatMap (fun k => leBytes 4 (x.pred k)) ++ leBytes 4 (x.rcs c) ++ leBytes 4 x.satLanes ++
    leBytes 4 x.dzLanes ++ List.replicate 100 0

/-- A little-endian number of `n` bytes at byte `a` of a list. -/
def leAt (l : List Byte) (a n : Nat) : Nat := leNat ((l.drop a).take n)

/-- A context loaded from an image (R231). -/
def RCtx.ofImage (x : RCtx) (l : List Byte) : RCtx :=
  let x1 := (List.range 32).foldl (fun (y : RCtx) k => y.setSreg k (leAt l (40 * k) 40)) x
  let x2 := (List.range 8).foldl (fun (y : RCtx) k => y.setAcc k (leAt l (1280 + 128 * k) 128)) x1
  let x3 := (List.range 4).foldl (fun (y : RCtx) k => y.setPred k (leAt l (2304 + 4 * k) 4)) x2
  { x3 with
    rmode := leAt l 2320 4 % 4, wsat := (leAt l 2320 4).testBit 4, satLanes := leAt l 2324 4, dzLanes := leAt l 2328 4 }

def Body.ctx (b : Body) (h x : Nat) : RCtx := (b.core (coreOf h)).ctx x

def Body.setCtx (b : Body) (h x : Nat) (v : RCtx) : Body :=
  b.setCore (coreOf h) ((b.core (coreOf h)).setCtx x v)

/-! Running a Runnel instruction (R209, R217). -/

/-- A PSEL value that Table 8.4 does not allow. -/
def pselBad (p : BitVec 4) : Bool := p != 0 && p.toNat / 4 != 1 && p.toNat / 4 != 3

/-- A field that names an accumulator, or a predicate, with its reserved bits in use (Table 8.3). -/
def accBad (r : BitVec 5) : Bool := decide (8 ≤ r.toNat)
def predBad (r : BitVec 5) : Bool := decide (4 ≤ r.toNat)

/-- The decode trap of a Runnel instruction: RESERVED_OPCODE on a Bivouac core or for an undefined minor, then
RESERVED_FIELD. -/
def runnelBad (h : Nat) (undefined reserved : Bool) (f : FmtE) : Option Nat :=
  badWord (decide (1024 ≤ h) || undefined) (reserved || pselBad f.ep || f.rsv != 0)

/-- An instruction on the thread's context `x`. -/
def runnelInsn (h major minor : Nat) (f : FmtE) (undefined reserved : Bool) (e : Body → Nat → RCtx → Effect)
    (s : State) : Host.Outcome State Fault Refusal :=
  insn h (wordE major minor f) (runnelBad h undefined reserved f)
    (fun _ b => match b.contextOf h with
      | none => .trap trContext 0
      | some x => e b x (b.ctx h x)) s

/-- The usual end of a Runnel instruction: its context changes. -/
def Body.ctxDone (b : Body) (h x : Nat) (v : RCtx) : Effect := .done (b.setCtx h x v) 1 (b.nextPc h)

/-- The usual end of one that writes a word register. -/
def Body.wordDone (b : Body) (h : Nat) (rd : BitVec 5) (v : Nat) : Effect :=
  .done (b.setReg h rd (BitVec.ofNat 32 v)) 1 (b.nextPc h)

/-! RCTL (Table 8.7). -/

/-- The fields that every RCTL row reserves: PSEL must be 0 and E 0. -/
def rctlBad (f : FmtE) : Bool := f.ep != 0 || f.e != 0

/-- RBIND (R213). -/
def execRbind (h : Nat) (f : FmtE) (s : State) : Host.Outcome State Fault Refusal :=
  insn h (wordE 0x30 0 f) (runnelBad h false (rctlBad f || f.ra != 0 || f.rb != 0) f)
    (fun _ b =>
      let c := b.core (coreOf h)
      match b.contextOf h with
      | some x => b.wordDone h f.rd x
      | none =>
        if c.ctx0.owner.isNone then (b.bindContext h 0).wordDone h f.rd 0
        else if c.ctx1.owner.isNone then (b.bindContext h 1).wordDone h f.rd 1
        else .wait (.rbind (b.cycleOf h))) s

/-- RFREE (R215): no effect on a thread that holds no context. -/
def execRfree (h : Nat) (f : FmtE) (s : State) : Host.Outcome State Fault Refusal :=
  insn h (wordE 0x30 1 f) (runnelBad h false (rctlBad f || f.rd != 0 || f.ra != 0 || f.rb != 0) f)
    (fun _ b => .done (if (b.contextOf h).isSome then b.freeContexts h else b) 1 (b.nextPc h)) s

/-- The address checks of RSAVE and RRESTORE (R231). -/
def Body.imagePlace (b : Body) (h a : Nat) (r w : Bool) : Option Nat :=
  if a % 64 ≠ 0 then some trAlign
  else match b.place h a 2432 r w with
    | some (.local _) => if a + 2432 ≤ 0x1E000 then none else some trRegion
    | _ => some trRegion

/-- RSAVE (R231). -/
def execRsave (h : Nat) (f : FmtE) (s : State) : Host.Outcome State Fault Refusal :=
  runnelInsn h 0x30 2 f false (rctlBad f || f.rd != 0 || f.rb != 0)
    (fun b x v =>
      let a := (b.reg h f.ra).toNat
      match b.imagePlace h a false true with
      | some c => .trap c a
      | none =>
        .done { b with mem.lmem := writeBytes b.mem.lmem (lmemAddr (coreOf h) a) (v.image x) } 152 (b.nextPc h)) s

/-- RRESTORE (R231). -/
def execRrestore (h : Nat) (f : FmtE) (s : State) : Host.Outcome State Fault Refusal :=
  runnelInsn h 0x30 3 f false (rctlBad f || f.rd != 0 || f.rb != 0)
    (fun b x v =>
      let a := (b.reg h f.ra).toNat
      match b.imagePlace h a true false with
      | some c => .trap c a
      | none =>
        .done (b.setCtx h x (v.ofImage (readBytes b.mem.lmem (lmemAddr (coreOf h) a) 2432))) 152 (b.nextPc h)) s

/-- RMFC (R218). -/
def execRmfc (h : Nat) (f : FmtE) (s : State) : Host.Outcome State Fault Refusal :=
  runnelInsn h 0x30 4 f false (rctlBad f || f.ra != 0 || decide (7 ≤ f.rb.toNat))
    (fun b x v => b.wordDone h f.rd (v.control x f.rb.toNat)) s

/-- RMTC (R218). -/
def execRmtc (h : Nat) (f : FmtE) (s : State) : Host.Outcome State Fault Refusal :=
  runnelInsn h 0x30 5 f false (rctlBad f || f.rd != 0 || decide (7 ≤ f.rb.toNat))
    (fun b x v => b.ctxDone h x (v.setControl f.rb.toNat (b.reg h f.ra).toNat)) s

/-- RFENCE (R219, R228): it enters execution once the context has no result on its way, and has no other effect. -/
def execRfence (h : Nat) (f : FmtE) (s : State) : Host.Outcome State Fault Refusal :=
  runnelInsn h 0x30 6 f false (rctlBad f || f.rd != 0 || f.ra != 0 || f.rb != 0)
    (fun b x v => b.ctxDone h x v) s

/-! Block moves (R225, Table 8.12). -/

/-- Bytes of a layout. -/
def layoutBytes (m : Nat) : Nat := if m = 0 then 40 else if m = 4 then 128 else 64

/-- The lane of a layout in the block `v`. -/
def layoutLane (m v n : Nat) : Nat :=
  match m with
  | 0 => laneOf 10 v n
  | 1 => laneOf 16 v n % 1024
  | 2 => laneOf 16 v n % 1024
  | 3 => laneOf 16 v n / 64
  | _ => laneOf 32 v n

/-- The bytes of lane `n` in a store: their number, and the value stored. -/
def layoutStore (m lane : Nat) : Nat × Nat :=
  match m with
  | 1 => (2, lane)
  | 2 => (2, codeOf 16 (signedOf 10 lane))
  | 3 => (2, lane * 64)
  | _ => (4, lane)

/-- The address checks of a block move: ALIGN, then REGION for a block that lies neither in general data memory nor in
the thread's work slot as a whole; it never reaches the scratchpad. -/
def Body.blockTrap (b : Body) (h a n : Nat) (r w : Bool) : Option Nat :=
  if a % 4 ≠ 0 then some trAlign
  else if a < 0x1E000 ∧ 0x1E000 < a + n then some trRegion
  else match b.place h a n r w with
    | some (.local _) => none
    | _ => some trRegion

/-- Post-increment of ra by the layout's size where E = 1. -/
def Body.blockNext (b : Body) (h : Nat) (f : FmtE) (n : Nat) : Body :=
  if f.e = 1 then b.setReg h f.ra (b.reg h f.ra + BitVec.ofNat 32 n) else b

/-- RLD (R225, R230). -/
def execRld (h : Nat) (minor : BitVec 4) (f : FmtE) (s : State) : Host.Outcome State Fault Refusal :=
  runnelInsn h 0x35 minor.toNat f (decide (4 < minor.toNat)) (f.rb != 0 || (minor == 4 && accBad f.rd))
    (fun b x v =>
      let m := minor.toNat
      let a := (b.reg h f.ra).toNat
      match b.blockTrap h a (layoutBytes m) true false with
      | some c => .trap c a
      | none =>
        let blk := readLE b.mem.lmem (lmemAddr (coreOf h) a) (layoutBytes m)
        let g := fun n => LaneOut.plain (layoutLane m blk n)
        let v1 := if m = 4 then v.writeAccs f.rd.toNat f.ep.toNat g else v.writeSamples f.rd.toNat f.ep.toNat g
        ((b.blockNext h f (layoutBytes m)).ctxDone h x v1)) s

/-- RST (R225, R230): only the bytes of the selected lanes are written. -/
def execRst (h : Nat) (minor : BitVec 4) (f : FmtE) (s : State) : Host.Outcome State Fault Refusal :=
  runnelInsn h 0x36 minor.toNat f (decide (4 < minor.toNat))
    (f.rb != 0 || (minor == 4 && accBad f.rd) || (minor == 0 && f.ep != 0))
    (fun b _ v =>
      let m := minor.toNat
      let a := (b.reg h f.ra).toNat
      let k := lmemAddr (coreOf h) a
      match b.blockTrap h a (layoutBytes m) false true with
      | some c => .trap c a
      | none =>
        let mem := if m = 0 then writeLE b.mem.lmem k 40 (v.sreg f.rd.toNat)
          else (List.range 32).foldl (fun (y : Memory) n =>
            if v.selects f.ep.toNat n then
              let w := layoutStore m (if m = 4 then laneOf 32 (v.acc f.rd.toNat) n else laneOf 10 (v.sreg f.rd.toNat) n)
              writeLE y (k + w.1 * n) w.1 w.2
            else y) b.mem.lmem
        .done ({ b with mem.lmem := mem }.blockNext h f (layoutBytes m)) 1 (b.nextPc h)) s

end Sys2Proof.Machine
end

