-- ==== Sys2Proof/Machine/Image.lean ====
section
/-! DEFINITION. The bytes of a tent image (spec/15, R390 and R391, Table 15.9): its sections, and what they hold. -/

namespace Sys2Proof.Machine

/-! Numbers in an image stand where they would stand in tent 0, furrows as offsets. -/

/-- A field's value in an image (`save`), or the value of an image in a tent. -/
def rebase (save : Bool) (nLog t cls lo v : Nat) (lines : Bool) : Nat :=
  let shift := fun (k m : Nat) => if save then (v + m - k % m) % m else (v + k) % m
  if cls = clsQueue ∧ lo = FQueue.homeFurrow.lo then shift (furrowBase nLog t) 65536
  else if cls = clsBasin ∧ lo = FList.furrow.lo then shift (furrowBase nLog t) 65536
  else if cls = clsThread then (if save then relThread nLog t v % 1024 else absThread nLog t v % 1024)
  else if cls = clsIrq ∧ lo = FIrq.targetTent.lo then shift t 64
  else if cls = clsTable ∧ lo = FTable.tent.lo then shift t 64
  else if cls = clsPrefix ∧ lo = FPrefix.tent.lo then shift t 64
  else if lines ∧ ((cls = clsTable ∧ lo = FTable.base.lo) ∨
      (cls = clsPrefix ∧ (lo = FPrefix.base.lo ∨ lo = FPrefix.filterBase.lo))) then
    shift (tentBase nLog 2097152 t) 2097152
  else v

/-- Whether a THREAD field is a channel binding, and which of them holds a thread number. -/
def isPeer (lo : Nat) : Bool := (List.range 8).any (fun k => (FThread.chanPeer k).lo == lo)
def isBinding (lo : Nat) : Bool := decide (192 ≤ lo ∧ lo < 320)

/-- The fields that section 4 holds (Table 15.9). -/
def imageField (cls inst : Nat) (f : Fld) : Bool :=
  let rw := f.acc == Access.rw
  match cls with
  | 4 => rw
  | 2 => rw
  | 11 => isBinding f.lo
  | 13 => rw
  | 17 => rw && decide (inst < 0x100000)
  | 18 => rw
  | 21 => rw && decide (0x4000 ≤ inst ∧ inst < 0x10000)
  | 22 => rw
  | 23 => rw && decide (0x1000 ≤ inst)
  | 25 => rw
  | _ => false

/-- The instances of a class that a tent has. -/
def tentInsts (nLog t cls : Nat) : List Nat :=
  (List.range (2 ^ 24)).filter (fun i => instExists nLog cls i && ownerOf nLog cls i == some t)

/-- What a field shows in an image of tent `t`. -/
def Body.imageValue (b : Body) (t cls inst : Nat) (f : Fld) : Nat :=
  let v := if cls = clsQueue ∧ f = FQueue.flags then b.flags inst
    else if cls = clsQueue ∧ f = FQueue.ready then bit (b.isReady inst) else b.fget cls inst f
  if cls = clsThread ∧ ¬ isPeer f.lo then v else rebase true b.nLogN t cls f.lo v false

/-! The records of each section. -/

/-- Section 0. -/
def Body.headRecords (b : Body) (tm : Time) (t : Nat) : List (List Byte) :=
  [Config.imageRecord 0 [b.tents, t, b.generation t, tm.tickNumber, tm.period]]

/-- The fields of QUEUE bits 191:0, and those among them that an image holds; the others are written 0. -/
def queueFields : List Fld := FQueue.all.filter (fun f => decide (f.lo < 192))
def heldQueueFields : List Fld :=
  queueFields.filter (fun f => !List.contains [FQueue.depth, FQueue.head, FQueue.tail, FQueue.headRecord,
    FQueue.tailRecord, FQueue.inService] f)

/-- Section 1: 24 bytes for each queue. -/
def Body.queueRecords (b : Body) (t : Nat) : List (List Byte) :=
  (List.range (1048576 / b.tents)).map (fun k =>
    leBytes 24 ((heldQueueFields.map (fun f => b.imageValue t clsQueue (queueBase b.nLogN t + k) f * 2 ^ f.lo)).sum))

/-- Section 2: what stands in the queues: offset and PROGRAM, the descriptor, the frame padded to 8 bytes. -/
def Body.contentRecords (b : Body) (t : Nat) : List (List Byte) :=
  let n := b.nLogN
  (List.range (1048576 / b.tents)).flatMap (fun q => (b.chain (queueBase n t + q)).filterMap (fun k =>
    (b.elem? k).map (fun x =>
      let isRec := match k with | .record _ => 1 | .slot _ => 0
      let d : Desc := { x.desc with furrow := x.desc.furrow - furrowBase n t, tent := 0 }
      Config.imageRecord 2 [q, isRec, x.program] ++ leBytes 32 d.toNat ++
        frameBytes (b.bufData d.buffer) d.length 0 (8 * ceilDiv d.length 8))))

/-- Section 3. -/
def Body.furrowRecords (b : Body) (t : Nat) : List (List Byte) :=
  (List.range (65536 / b.tents)).map (fun k =>
    Config.imageRecord 3 ([FFurrow.nextSeq, FFurrow.weirLevel, FFurrow.excOffset].map (fun f =>
      b.fget clsFurrow (furrowBase b.nLogN t + k) f)))

/-- Section 4: class, instance, offset and value of each field. -/
def Body.objectRecords (b : Body) (t : Nat) : List (List Byte) :=
  let n := b.nLogN
  [clsTick, clsIntake, clsThread, clsOutfall, clsBasin, clsPool, clsLock, clsIrq, clsTent, clsRedund].flatMap (fun c =>
    (tentInsts n t c).flatMap (fun i => ((fieldsOfInst c i).filter (fun f => imageField c i f)).map (fun f =>
      Config.imageRecord 4 [c, imageInst n c t i, f.lo, b.imageValue t c i f])))

/-- Section 5: 16 bytes for each slot. -/
def Body.slotRecords (b : Body) (t : Nat) : List (List Byte) :=
  (List.range b.slotShare).map (fun k => ((b.bslot (b.slotAbs t k)).words).flatMap (fun w => leBytes 4 w))

/-- An entry in an image: the record of R275; of an IPv6 prefix, whose length R275 has no place for, a free one (record
kind 9 of the model). -/
def entryRecord (v6 : Bool) : Option Ent → List Byte
  | some e => if v6 then Config.imageRecord 9 [e.key, e.len, e.res] else entRecord (some e)
  | none => if v6 then Config.imageRecord 9 [] else entRecord none

/-- The fields of an instance that section 6 holds. -/
def tableImageFields (c n : Nat) : List Fld := (fieldsOfInst c n).filter (fun f => decide (f.lo < FTable.cmdBlock.lo))

/-- Section 6: the fields of each enabled instance, then its entries in position order. -/
def Body.tableRecords (b : Body) (t : Nat) : List (List Byte) :=
  let one := fun (pfx : Bool) (n : Nat) =>
    let c := if pfx then clsPrefix else clsTable
    let g := b.geo pfx n
    let fs := (tableImageFields c n).map (fun f => rebase true b.nLogN t c f.lo (b.fget c n f) (!g.dram))
    Config.imageRecord 6 ([c, n] ++ fs) :: (List.range g.entries).map (fun p => entryRecord (pfx && g.wide) (b.entAt g p))
  (b.enabledTables.filter (fun n => b.fget clsTable n FTable.tent == t)).flatMap (one false) ++
    (b.enabledPrefixes.filter (fun n => b.fget clsPrefix n FPrefix.tent == t)).flatMap (one true)

/-- The DRAM that an image is read from, as requester port, address and length: counters, and tables of kind 2. -/
def Body.imageReads (b : Body) (t : Nat) : List (Nat × Nat × Nat) :=
  let g := fun (n : Nat) => b.tableGeo n
  ((3, b.fget clsOutfall (1 + t) FOut.ctrBase, 8 * b.fget clsOutfall (1 + t) FOut.ctrCount) ::
    (b.enabledTables.filter (fun n => b.fget clsTable n FTable.tent == t && (g n).dram)).map (fun n =>
      (1, (g n).base, 32 * (g n).entries))).filter (fun r => decide (0 < r.2.2))

/-- Section 7: 8 bytes for each counter. -/
def Body.counterRecords (b : Body) (t : Nat) : List (List Byte) :=
  (List.range (b.fget clsOutfall (1 + t) FOut.ctrCount)).map (fun k =>
    b.dramBytes (b.fget clsOutfall (1 + t) FOut.ctrBase + 8 * k) 8)

/-- Section 8: the contexts bound to the tent's threads. -/
def Body.contextRecords (b : Body) (t : Nat) : List (List Byte) :=
  b.isa.cores.flatMap (fun e => [(0, e.2.ctx0), (1, e.2.ctx1)].filterMap (fun x =>
    match x.2.owner with
    | some h =>
      if b.threadTent h = t then some (Config.imageRecord 8 [relThread b.nLogN t h] ++ x.2.image x.1) else none
    | none => none))

/-! The image. -/

/-- A section: its header, then its records. -/
def imageSection (type : Nat) (records : List (List Byte)) : List Byte :=
  let l := records.flatten
  leBytes 16 (type + 2 ^ 16 + records.length % 2 ^ 32 * 2 ^ 32 + (16 + l.length) * 2 ^ 64) ++ l

/-- The End section closes an image with the CRC of every earlier byte. -/
def closeImage (l : List Byte) : List Byte :=
  let h := l ++ leBytes 16 (15 + 2 ^ 16 + 2 ^ 32 + 20 * 2 ^ 64)
  h ++ leBytes 4 (crc32c 0xFFFFFFFF h)

/-- The image of a tent (Table 15.9). -/
def Body.tentImage (b : Body) (tm : Time) (t : Nat) : List Byte :=
  closeImage (imageSection 0 (b.headRecords tm t) ++ imageSection 1 (b.queueRecords t) ++
    imageSection 2 (b.contentRecords t) ++ imageSection 3 (b.furrowRecords t) ++ imageSection 4 (b.objectRecords t) ++
    imageSection 5 (b.slotRecords t) ++ imageSection 6 (b.tableRecords t) ++ imageSection 7 (b.counterRecords t) ++
    imageSection 8 (b.contextRecords t))

/-! An image read back (R391). -/

/-- A section as it is read. -/
structure ImageSection where
  type : Nat
  version : Nat
  records : Nat
  body : List Byte
  deriving DecidableEq, Repr

/-- The section that starts a list of bytes, and how many bytes its header gives it. -/
def firstSection (l : List Byte) : ImageSection × Nat :=
  let h := leAt l 0 16
  (⟨bitsAt h 0 16, bitsAt h 16 16, bitsAt h 32 32, (l.take (bitsAt h 64 64)).drop 16⟩, bitsAt h 64 64)

/-- The sections up to End, `none` where their sizes disagree with the bytes there are. -/
def sectionsOf : Nat → List Byte → Option (List ImageSection)
  | 0, _ => none
  | k + 1, l =>
    let x := firstSection l
    if x.2 < 16 ∨ l.length < x.2 then none
    else if x.1.type = 15 then (if l.length = x.2 ∧ x.2 = 20 then some [x.1] else none)
    else (sectionsOf k (l.drop x.2)).map (fun r => x.1 :: r)

/-- The descriptor in 256 bits (Table 1.3). -/
def descOf (v : Nat) : Desc :=
  ⟨bitsAt v 0 32, bitsAt v 32 14, bitsAt v 46 7, bitsAt v 53 16, bitsAt v 69 32, bitsAt v 101 6, bitsAt v 107 1, bitsAt v 108 2,
    bitsAt v 110 3, bitsAt v 113 15, bitsAt v 128 64, bitsAt v 192 64⟩

/-- How many entries an instance has, and whether they are IPv6 prefixes, from the values of its fields in an image. -/
def entriesOf (c n : Nat) (vs : List Nat) : Nat × Bool :=
  let v := fun (f : Fld) => (((tableImageFields c n).zip vs).find? (fun e => e.1.lo == f.lo)).elim 0 (fun e => e.2)
  if c = clsPrefix then
    let v6 := v FPrefix.family == 1
    (if v6 then 2 ^ v FPrefix.sizeLog2 / 2 else 2 ^ v FPrefix.sizeLog2, v6)
  else (if v FTable.kind = 1 then 2 ^ v FTable.sizeLog2 / 2 else 2 ^ v FTable.sizeLog2, false)

/-- One entry of an image and the bytes it takes. -/
def entryPart (v6 : Bool) (l : List Byte) : Option (Nat × Nat × Nat) × Nat :=
  if v6 then
    let x := Config.imageLead 9 l
    ((if x.1 = [] then none else some (x.1.getD 0 0, x.1.getD 1 0, x.1.getD 2 0)), x.2)
  else
    (if (l.getD 24 0).toNat % 2 = 1 then some (beNat (l.take 16), 0, beNat ((l.drop 16).take 8)) else none, 32)

/-- The entries of an instance that are still to come in section 6: from position `next` of `total`. -/
structure EntriesLeft where
  cls : Nat
  inst : Nat
  next : Nat
  total : Nat
  v6 : Bool
  deriving DecidableEq, Repr

def EntriesLeft.here (x : EntriesLeft) : Option EntriesLeft := if x.next < x.total then some x else none
def EntriesLeft.after (x : EntriesLeft) : Option EntriesLeft := EntriesLeft.here { x with next := x.next + 1 }

/-- The parts of `k` records of a section from number `i` on, `none` where the bytes there are do not make them; `tbl` is
the instance whose entries follow in section 6. -/
def recordParts (type : Nat) : Nat → Nat → Option EntriesLeft → List Byte → Option (List ImagePart)
  | 0, _, tbl, l => if l = [] ∧ tbl = none then some [] else none
  | k + 1, i, tbl, l =>
    let go := fun (n : Nat) (ps : List ImagePart) (t : Option EntriesLeft) =>
      if l.length < n then none else (recordParts type k (i + 1) t (l.drop n)).map (fun r => ps ++ r)
    let x := Config.imageLead type l
    let v := fun j => x.1.getD j 0
    match type with
    | 0 => go x.2 [] none
    | 1 => go 24 ((heldQueueFields.filter (fun f => f.acc != .wo && f != FQueue.ready)).map (fun f =>
        .field clsQueue i f.lo (bitsAt (leAt l 0 24) f.lo f.width))) none
    | 2 =>
      let d := descOf (leAt l x.2 32)
      go (x.2 + 32 + 8 * ceilDiv d.length 8)
        [.queued (v 0) (decide (v 1 = 1)) (v 2) d (handlePool d.buffer) ((l.drop (x.2 + 32)).take d.length)] none
    | 3 => go x.2 [.field clsFurrow i FFurrow.nextSeq.lo (v 0), .field clsFurrow i FFurrow.weirLevel.lo (v 1),
        .field clsFurrow i FFurrow.excOffset.lo (v 2)] none
    | 4 => go x.2 [.field (v 0) (v 1) (v 2) (v 3)] none
    | 5 => go 16 [.slot i ((List.range 4).map (fun j => leAt l (4 * j) 4))] none
    | 6 =>
      match tbl with
      | some t =>
        let e := entryPart t.v6 l
        go e.2 [.entry (t.cls == clsPrefix) t.inst t.next e.1] t.after
      | none =>
        let t : EntriesLeft := ⟨v 0, v 1, 0, (entriesOf (v 0) (v 1) (x.1.drop 2)).1, (entriesOf (v 0) (v 1) (x.1.drop 2)).2⟩
        go x.2 (((tableImageFields (v 0) (v 1)).zip (x.1.drop 2)).map (fun e => .field (v 0) (v 1) e.1.lo e.2)) t.here
    | 7 => go 8 [.counter i (leAt l 0 8)] none
    | 8 => go (x.2 + 2432) [.context (v 0) (RCtx.reset.ofImage (l.drop x.2))] none
    | _ => some []

/-- The records that a section of a type has at N tents, where the type fixes it. -/
def sectionRecords (type tents : Nat) : Option Nat :=
  match type with
  | 0 => some 1
  | 1 => some (1048576 / tents)
  | 3 => some (65536 / tents)
  | 5 => some (1048576 / tents)
  | _ => none

/-- The parts that a section holds, `none` where its size disagrees with its records; End, and a type that Table 15.9 does
not list, have none. -/
def ImageSection.parts (x : ImageSection) (tents : Nat) : Option (List ImagePart) :=
  if 8 < x.type then some []
  else if (sectionRecords x.type tents).any (fun n => x.records != n) then none
  else recordParts x.type x.records 0 none x.body

/-- The parts of sections in order. -/
def sectionParts (tents : Nat) : List ImageSection → Option (List ImagePart)
  | [] => some []
  | x :: r => (x.parts tents).bind (fun p => (sectionParts tents r).map (fun q => p ++ q))

/-- The numbers of an image's header: N, tent, GENERATION, TICK_NUMBER, PERIOD. -/
def imageHead (l : List Byte) : List Nat := (Config.imageLead 0 (firstSection l).1.body).1

/-- What the bytes of an image hold; `none` where its sizes disagree. -/
def imageOf (tents : Nat) (l : List Byte) : Option TentImage :=
  (sectionsOf 17 l).bind (fun s => (sectionParts tents s).map (fun p => ⟨(imageHead l).getD 0 0, (imageHead l).getD 2 0, p⟩))

/-- Whether N, VERSION or the CRC of an image are not what a restore needs. -/
def imageForeign (tents : Nat) (l : List Byte) : Bool :=
  let n := l.length - 4
  l.length < 20 || crc32c 0xFFFFFFFF (l.take n) != leNat (l.drop n) || (firstSection l).1.version != 1 ||
    ((sectionsOf 17 l).getD []).any (fun x => x.version != 1) || (imageHead l).getD 0 0 != tents

end Sys2Proof.Machine
end

