-- ==== Sys2Proof/Machine/Tents.lean ====
section
/-! DEFINITION. Tents: what they own, their operations, images and strikes (spec/15, R387 to R392). The commands that
write TENT fields reach these operations through the object engine. -/

namespace Sys2Proof.Machine

/-! What takes its reset values. -/

/-- Quotas and allowances, which go on as the last boundary computed them. -/
def isAllowance (cls lo : Nat) : Bool :=
  (cls == clsTick && [FClass.cycleAllow.lo, FClass.frameAllow.lo, FClass.tentCycles.lo, FClass.tentFrames.lo].contains lo) ||
    (cls == clsPool && [FPoolTent.quotaKib.lo, FPoolTent.frameQuotaKib.lo, FPoolTent.hostQuotaKib.lo].contains lo)

/-- Flag 1 of the queues of ranges counts as cleared now. -/
def Body.floorQueues (b : Body) (l : List (Nat × Nat)) (at_ : Nat) : Body :=
  { b with work.tickFloors := l.map (fun r => (r.1, r.2, at_)) ++ b.work.tickFloors }

/-- A thread's request of a lock or semaphore is withdrawn. -/
def Body.dropRequest (b : Body) (k : ReqKind) (v : Waiter) : Body :=
  match v.who, v.win with
  | .thread h, none => b.modHart h (fun x => { x with reqs := x.reqs.eraseP (fun r => decide (r.kind = k)) })
  | _, _ => b

/-- The requests that wait for a lock or semaphore that `p` names are cancelled before it takes its reset values (R395, step
3 of R360): a window is free for its next request, and a thread waits for no grant. -/
def Body.cancelWaits (b : Body) (p : Nat → Nat → Bool) : Body :=
  let b1 := (b.sync.locks.filter (fun e => p clsLock e.1)).foldl (fun (x : Body) e =>
    e.2.waiters.foldl (fun (y : Body) v => y.dropRequest (.lock e.1) v) (x.freeWindows e.2.waiters)) b
  (b1.sync.sems.filter (fun e => p clsLock (semInst e.1))).foldl (fun (x : Body) e =>
    e.2.waiters.foldl (fun (y : Body) v => y.dropRequest (.sem e.1) v) (x.freeWindows e.2.waiters)) b1

/-- Every object that `p` names takes its reset values, with what stands behind its fields. -/
def Body.resetOwned (b0 : Body) (p : Nat → Nat → Bool) : Body :=
  let b := b0.cancelWaits p
  let keep := fun (c i : Nat) => !p c i
  let w := b.work
  let b1 := { b with
    fields := b.fields.filter (fun e => keep (keyClass e.1) (keyInst e.1) || isAllowance (keyClass e.1) (e.1 % 2 ^ 16))
    latches := b.latches.filter (fun e => keep (keyClass e.1) (keyInst e.1))
    sync.locks := b.sync.locks.filter (fun e => keep clsLock e.1)
    sync.sems := b.sync.sems.filter (fun e => keep clsLock (semInst e.1))
    net.recov := b.net.recov.filter (fun e => keep clsRedund e.1)
    net.rr := b.net.rr.filter (fun e => keep clsFurrow e.1)
    host.txNext := b.host.txNext.filter (fun e => keep clsTent (ringObj e.1))
    host.tx := b.host.tx.map (fun (x : TxEnt) => if keep clsTent (ringObj x.ring) then x else { x with gen := 2 ^ 16 })
    work := { w with
      ready := w.ready.filter (keep clsQueue)
      tickClears := w.tickClears.filter (fun e => keep clsQueue e.1)
      stopped := w.stopped.filter (keep clsQueue)
      released := w.released.filter (fun e => keep clsFurrow e.1)
      charges := w.charges.filter (fun e => keep clsTick e.1) } }
  b1.resetBasin p

/-- The host vectors that `p` names take their reset values: no address and data, masked, nothing pending (R373, R380). -/
def Body.resetVectors (b : Body) (p : Nat → Bool) : Body :=
  { b with
    host.msix := b.host.msix.filter (fun e => !p e.1)
    host.unmasked := b.host.unmasked.filter (fun v => !p v)
    host.pba := b.host.pba.filter (fun v => !p v) }

/-- The harts that `p` names lose their trap records. -/
def Body.resetTraps (b : Body) (p : Nat → Bool) : Body :=
  { b with isa.harts := b.isa.harts.map (fun e =>
      if p e.1 then (e.1, { e.2 with trapCause := 0, trapPc := 0, trapInsn := 0, trapAddr := 0 }) else e) }

/-! States and checks (R387, R379). -/

def Body.tentState (b : Body) (t : Nat) : Nat := b.fget clsTent t FTent.state

/-- The modes in which tent operations are accepted. -/
def Body.tentMode (b : Body) : Bool := [3, 4, 5, 8].contains b.modeCode

/-- Whether an operation may start from the present state: NOT_IN_MODE, then BUSY. -/
def Body.tentCheck (b : Body) (t : Nat) (sts : List Nat) : Nat :=
  if !b.tentMode then stNotInMode
  else if b.fget clsTent t FTent.opBusy = 1 ∨ ¬ sts.contains (b.tentState t) then stBusy else stOk

/-- Whether two pitched tents have the same enabled PASID. -/
def Body.pasidClash (b : Body) : Bool :=
  let l := (List.range b.tents).filter (fun t => b.tentState t == 1 && b.fget clsTent t FTent.pasidEn == 1)
  l.any (fun t => l.any (fun u => t != u && b.fget clsTent t FTent.pasid == b.fget clsTent u FTent.pasid))

def Body.setTent (b : Body) (t : Nat) (f : Fld) (v : Nat) : Body := b.fset clsTent t f v

/-- An operation ends with a status. -/
def Body.opEnds (b : Body) (t st : Nat) : Body := (b.setTent t FTent.opStatus st).setTent t FTent.opBusy 0

/-- PITCHED, unless that gives two pitched tents one PASID. -/
def Body.becomePitched (b : Body) (t : Nat) : Nat × Body :=
  let b1 := (b.setTent t FTent.state 1).setTent t FTent.saved 0
  if b1.pasidClash then (stOutOfRange, b) else (stOk, b1)

/-- The instances of a pitched tent that PITCH gives their reset values: its queues, its furrows and its indirection
entries (R112, R138). -/
def pitchedBy (nLog t cls inst : Nat) : Bool :=
  (cls == clsQueue || cls == clsFurrow || cls == clsIntake) && ownerOf nLog cls inst == some t

/-- A tent's queues, furrows and indirection entries at their reset values; REL_SEQ follows NEXT_SEQ (Table 9.6). -/
def Body.freshQueues (b : Body) (t : Nat) : Body :=
  let n := b.nLogN
  let b1 := b.resetOwned (pitchedBy n t)
  let b2 := { b1 with fields := b1.fields.filter (fun e => !(keyClass e.1 == clsOutfall &&
    decide (0x10000 ≤ keyInst e.1 ∧ e.1 % 2 ^ 16 = FOutFur.relSeq.lo) && ownerOf n clsOutfall (keyInst e.1) == some t)) }
  (b2.floorQueues [(queueBase n t, queueBase n t + 1048576 / b.tents)] b2.work.tickSets).syncFallbacks

/-- PITCH, of a STRUCK tent, and UNFREEZE. -/
def Body.tentPitch (b : Body) (t : Nat) : Nat × Body :=
  let st := b.tentCheck t [0]
  if st = stNotInMode then (st, b)
  else if (b.becomePitched t).1 = stOutOfRange then (stOutOfRange, b)
  else if st ≠ stOk then (st, b) else (stOk, (b.becomePitched t).2.freshQueues t)

def Body.tentUnfreeze (b : Body) (t : Nat) : Nat × Body :=
  let st := b.tentCheck t [3]
  if st = stNotInMode then (st, b)
  else if (b.becomePitched t).1 = stOutOfRange then (stOutOfRange, b)
  else if st ≠ stOk then (st, b) else b.becomePitched t

/-- A freeze or strike starts: FREEZING. -/
def Body.startFreeze (b : Body) (t : Nat) (strike : Bool) : Body :=
  let b1 := (b.setTent t FTent.state 2).setTent t FTent.saved 0
  { b1 with host.freezes := mapPut t ⟨strike, 0, false⟩ b1.host.freezes }

/-- FREEZE. -/
def Body.tentFreeze (b : Body) (t : Nat) : Nat × Body :=
  let st := b.tentCheck t [1]
  if st = stOk then (stOk, b.startFreeze t false) else (st, b)

/-- HOST_RESET (R385). -/
def Body.tentHostReset (b : Body) (t : Nat) : Nat × Body :=
  let st := b.tentCheck t [1, 2, 3]
  if st = stOk then (stOk, b.hostReset t) else (st, b)

/-! Blockers (R389). -/

/-- Whether some written field of a tent's instances of a class is not 0. -/
def Body.someField (b : Body) (t cls : Nat) (f : Fld) : Bool :=
  b.fields.any (fun e => keyClass e.1 == cls && e.1 % 2 ^ 16 == f.lo && e.2 != 0 &&
    ownerOf b.nLogN cls (keyInst e.1) == some t)

/-- BLOCKERS of a tent, bit 5 for a strike only. -/
def Body.blockers (b : Body) (t : Nat) (strike : Bool) : Nat :=
  bit (b.someField t clsFurrow FFurrow.outstanding) + 2 * bit (b.someField t clsQueue FQueue.inService) +
  4 * bit (b.sync.locks.any (fun e => e.2.holder.isSome && b.lockTent false e.1 == t) ||
    b.sync.sems.any (fun e => decide (0 < e.2.held) && b.lockTent true e.1 == t)) +
  8 * bit ((b.eg 65).queues.any (fun e => e.2.any (fun f => f.desc.tent == t))) +
  16 * bit (b.host.tx.any (fun x => b.ringTent x.ring == t)) +
  32 * bit (strike && b.work.chains.any (fun e => !e.2.isEmpty && queueTent b.nLogN e.1 == t))

/-- At each boundary after the Basin's cut a FREEZING tent shows its blockers. -/
def Body.judgeFreezes (b : Body) : Body :=
  b.host.freezes.foldl (fun (x : Body) e =>
    let x1 := x.setTent e.1 FTent.blockers (x.blockers e.1 e.2.strike)
    { x1 with host.freezes := mapPut e.1 { e.2 with ticks := e.2.ticks + 1, judged := true } x1.host.freezes }) b

/-- The freeze or strike of a tent is over. -/
def Body.endFreeze (b : Body) (t : Nat) : Body := { b with host.freezes := mapDel t b.host.freezes }

/-- A freeze whose blockers are gone. -/
def Body.tentFrozenNow (b : Body) (t : Nat) : Body :=
  match mapFind t b.host.freezes with
  | some f =>
    if f.judged ∧ ¬ f.strike ∧ b.fget clsTent t FTent.blockers = 0 then
      ((b.endFreeze t).setTent t FTent.state 3).opEnds t stOk
    else b
  | none => b

/-- A freeze or strike that has not settled within FREEZE_TICKS boundaries. -/
def Body.freezeFails (b : Body) (t : Nat) : Body :=
  match mapFind t b.host.freezes with
  | some f =>
    if f.judged ∧ b.fget clsTent t FTent.blockers ≠ 0 ∧ b.fget clsTent t FTent.freezeTicks ≤ f.ticks then
      (((b.endFreeze t).setTent t FTent.state 1).opEnds t stBusy).bump clsTent t FTent.freezeFails 1
    else b
  | none => b

/-! Strikes (R392). -/

/-- The instances that a strike of a tent resets: its shares and its per-tent instances but TENT[t] itself. -/
def struckBy (nLog t cls inst : Nat) : Bool :=
  ownerOf nLog cls inst == some t && !(cls == clsTent && decide (inst < 0x1000))

/-- The fields of TENT[t] that a strike itself sets or counts; the others take their reset values (R392; assumption log
153). -/
def strikeSets : List Nat :=
  [FTent.state.lo, FTent.opBusy.lo, FTent.opStatus.lo, FTent.generation.lo, FTent.handedOff.lo]

/-- TENT[t] at its reset values but for what a strike sets. -/
def Body.resetTent (b : Body) (t : Nat) : Body :=
  let mine := fun (k : Nat) => keyClass k == clsTent && keyInst k == t && !strikeSets.contains (k % 2 ^ 16)
  { b with
    fields := b.fields.filter (fun e => !mine e.1)
    latches := b.latches.filter (fun e => !mine e.1) }

/-- An element that a strike frees: its slot or record, and its buffer. -/
def Body.freeElem (b : Body) (t : Nat) (e : Elem) : Body :=
  match e with
  | .slot n =>
    match mapFind n b.work.slots with
    | some x => ((b.releaseBuf x.desc.buffer).addFlight x.desc.epoch (-1)).giveSlot n t
    | none => b
  | .record n =>
    match mapFind n b.work.records with
    | some x => (b.releaseBuf x.desc.buffer).giveRecord n t
    | none => b

/-- What still stands in a tent's queues is freed, and HANDED_OFF counts it. -/
def Body.handOff (b : Body) (t : Nat) : Body :=
  let cs := b.work.chains.filter (fun e => queueTent b.nLogN e.1 == t)
  let b1 := cs.foldl (fun (x : Body) e => (e.2.foldl (fun (y : Body) k => y.freeElem t k) x).setChain e.1 []) b
  b1.bump clsTent t FTent.handedOff ((cs.map (fun e => e.2.length)).sum)

/-- The tent's tables are disabled, and their instances reset. -/
def Body.dropTables (b : Body) (t : Nat) : Body :=
  let ts := b.enabledTables.filter (fun n => b.fget clsTable n FTable.tent == t)
  let ps := b.enabledPrefixes.filter (fun n => b.fget clsPrefix n FPrefix.tent == t)
  let b1 := ts.foldl (fun (x : Body) n => (x.tableEnable false n false).2) b
  ps.foldl (fun (x : Body) n => (x.tableEnable true n false).2) b1

/-- The threads of a tent. -/
def Body.threadsOf (b : Body) (t : Nat) : List Nat := (List.range 1024).filter (fun h => b.threadTent h == t)

/-- A strike settles: everything of the tent takes its reset values, GENERATION rises, and the tent is STRUCK. -/
def Body.settleStrike (b : Body) (t : Nat) : Body :=
  let n := b.nLogN
  let b1 := b.dropTables t
  let b2 := (b.threadsOf t).foldl (fun (x : Body) h => x.freeContexts h) b1
  let b3 := (b2.resetOwned (struckBy n t)).resetTraps (fun h => decide (h < 1024) && Machine.threadTent n h == t)
  let b4 := b3.floorQueues [(queueBase n t, queueBase n t + 1048576 / b3.tents)] b3.work.tickSets
  let b5 := ((b4.resetVectors (fun v => tentOf n 2048 v == t)).endFreeze t).resetTent t
  (((b5.syncFallbacks).bumpWrap clsTent t FTent.generation 1).setTent t FTent.state 0).opEnds t stOk

/-- STRIKE, from FROZEN with SAVED = 1 at once, else by a freeze. -/
def Body.tentStrike (b : Body) (t : Nat) : Nat × Body :=
  let st := b.tentCheck t [1, 3]
  if st ≠ stOk then (st, b)
  else if b.tentState t = 3 ∧ b.fget clsTent t FTent.saved = 1 then (stOk, (b.handOff t).settleStrike t)
  else (stOk, b.startFreeze t true)

/-- A strike whose blockers are gone settles. -/
def Body.strikeSettles (b : Body) (t : Nat) : Body :=
  match mapFind t b.host.freezes with
  | some f => if f.judged ∧ f.strike ∧ b.fget clsTent t FTent.blockers = 0 then b.settleStrike t else b
  | none => b

/-- SAVE: an image above IMAGE_LIMIT returns OUT_OF_RANGE, else it is being written. -/
def Body.tentSave (b : Body) (tm : Time) (t : Nat) : Nat × Body :=
  let st := b.tentCheck t [3]
  let img := b.tentImage tm t
  if st = stNotInMode then (st, b)
  else if b.fget clsTent t FTent.imageLimit < img.length then (stOutOfRange, b)
  else if st ≠ stOk then (st, b)
  else
    let b1 := (b.imageReads t).foldl (fun (x : Body) r => x.dramPost r.1 0 r.2.1 r.2.2 false) (b.setTent t FTent.opBusy 1)
    (stOk, { b1 with host.saving := mapPut t img b1.host.saving })

/-- The save ends, once the DRAM that it reads is at hand (R346). -/
def Body.saveEnds (b : Body) (t : Nat) : Body :=
  match mapFind t b.host.saving with
  | some l =>
    if (b.imageReads t).any (fun r => b.dramHeld r.2.1 r.2.2) then b
    else
      let b1 := { b with host.saving := mapDel t b.host.saving }.hostWrite t (b.fget clsTent t FTent.imageAddr) l
      ((b1.setTent t FTent.imageBytes l.length).setTent t FTent.saved 1).opEnds t stOk
  | none => b

/-! Restores (R391). -/

/-- RESTORE: the image is being read. -/
def Body.tentRestore (b : Body) (t : Nat) : Nat × Body :=
  let st := b.tentCheck t [0]
  if st ≠ stOk then (st, b)
  else
    let b1 := (b.setTent t FTent.opBusy 1).setTent t FTent.saved 0
    (stOk, { b1 with host.restoring := mapPut t (b.generation t) b1.host.restoring })

/-- A frame of an image takes a buffer of its pool, charged to the tent whether it fits or not. -/
def Body.restoreFrame (b : Body) (t pool : Nat) (data : List Byte) : Option (Nat × Body) :=
  let b1 := if b.chargeFits (.frame t) (poolSize pool) then b else b.bump clsPool (0x200 + t) FPoolTent.forcedOver 1
  b1.takeBuf pool (.frame t) (.frame t) data

/-- A free Runnel context of a thread's core takes the thread's image. -/
def Body.restoreContext (b : Body) (h : Nat) (x : RCtx) : Option Body :=
  let c := b.core (coreOf h)
  if c.ctx0.owner.isNone then some (b.setCore (coreOf h) { c with ctx0 := { x with owner := some h } })
  else if c.ctx1.owner.isNone then some (b.setCore (coreOf h) { c with ctx1 := { x with owner := some h } })
  else none

/-- A slot of an image, its place on the pending list and its staleness deadline. -/
def Body.restoreSlot (b : Body) (t s : Nat) (ws : List Nat) : Body :=
  let a := b.slotAbs t s
  let w := fun k => ws.getD k 0
  let fl := bitsAt (w 3) 10 6
  let x : BSlot := ⟨w 0 % 2 ^ 10, bitsAt (w 0) 10 6, bitsAt (w 0) 16 16 + w 1 % 2 ^ 16 * 2 ^ 16, bitsAt (w 1) 16 16, w 2,
    w 3 % 2 ^ 10, fl.testBit 0, fl.testBit 1, fl.testBit 2, fl.testBit 3, fl.testBit 4, fl.testBit 5, bitsAt (w 3) 16 16⟩
  let b1 := b.setBslot a x
  let b2 := if x.pending then { b1 with bas.pend := b1.bas.pend ++ [a] } else b1
  match b2.basinCfg t x.cfg with
  | some c =>
    if c.staleTicks ≠ 0 ∧ x.valid ∧ ¬ x.stale ∧ c.mode ≠ 2 then
      { b2 with bas.deadlines := mapPut a ((x.tick + c.staleTicks) % 2 ^ 32) b2.bas.deadlines }
    else b2
  | none => b2

/-- The object fields of an image. -/
def Body.restoreField (b : Body) (t cls inst lo v : Nat) : Body :=
  let n := b.nLogN
  let i := if cls = clsTable ∨ cls = clsPrefix then inst else tentInst n cls t inst
  let x := if cls = clsThread ∧ ¬ isPeer lo then v
    else rebase false n t cls lo v (!decide (cls = clsTable) || !(b.geo false inst).dram)
  if cls = clsQueue ∧ lo = FQueue.flags.lo then
    let b1 := b.fset cls i FQueue.flags (v / 4 * 4)
    { b1 with work.tickClears :=
        mapPut i (if v.testBit 1 then b1.work.tickSets - 1 else b1.work.tickSets) b1.work.tickClears }
  else
    let b1 := { b with fields := mapPut (fieldKey cls i lo) x b.fields }
    if cls = clsFurrow ∧ lo = FFurrow.nextSeq.lo then b1.fset clsOutfall (outFur i) FOutFur.relSeq x
    else if cls = clsLock ∧ lo = FSem.maxF.lo then b1.fset clsLock i FSem.count x
    else b1

/-- Whether a tent may take one more descriptor slot (R19, R119). -/
def Body.slotFree (b : Body) (t : Nat) : Bool := decide (b.fget clsHeadgate (1 + t) FHead.descUsed < 524288 / b.tents)

/-- One part of an image; `none` while what it needs is not free, or stands beyond the tent's share, from which no new slot
or record is granted (R19). -/
def Body.restorePart (b : Body) (t : Nat) : ImagePart → Option Body
  | .field cls inst lo v => some (b.restoreField t cls inst lo v)
  | .queued off isRec prog d pool data =>
    match b.restoreFrame t pool data with
    | none => none
    | some (h, b1) =>
      let x : Held := ⟨{ d with buffer := h, furrow := d.furrow + furrowBase b1.nLogN t, tent := t }, prog⟩
      let q := queueBase b1.nLogN t + off
      if isRec then (if b1.recordFree t then b1.takeRecord x else none).map (fun r => r.2.enqueue q (.record r.1))
      else (if b1.slotFree t then b1.takeSlot x else none).map (fun r =>
        ((r.2.bump clsHeadgate (1 + t) FHead.descUsed 1).bump clsHeadgate 0 FHead.descUsed 1).enqueue q (.slot r.1))
  | .entry pfx inst p e => some (b.setEnt (b.geo pfx inst) p (e.map (fun x => ⟨x.1, x.2.1, x.2.2⟩)))
  | .slot s ws => some (b.restoreSlot t s ws)
  | .counter k v => some (b.dramWrite 3 0 (b.fget clsOutfall (1 + t) FOut.ctrBase + 8 * k) (leBytes 8 v))
  | .context h x => b.restoreContext (absThread b.nLogN t h) x

/-- The dynamic entries of a restored learn table count for their ports. -/
def Body.countLearned (b : Body) (n : Nat) : Body :=
  let g := b.tableGeo n
  if b.tableOn n ∧ b.fget clsTable n FTable.kind = 4 then
    ((b.tab.lines.filter (fun e => decide (g.base ≤ e.1 ∧ e.1 < g.base + g.entries))).map
      (fun e => e.1 - g.base)).foldl (fun (x : Body) p => match x.entAt g p with
        | some e => if resStatic e.res then x else x.learnUp (resPort e.res)
        | none => x) b
  else b

/-- The TABLE and PREFIX instances that an image names. -/
def TentImage.tables (img : TentImage) : List (Bool × Nat) :=
  (img.parts.filterMap (fun p => match p with
    | .field cls inst _ _ => if cls = clsTable then some (false, inst) else if cls = clsPrefix then some (true, inst) else none
    | _ => none)).eraseDups

/-- The status with which the restore of an image starts. -/
def Body.imageCheck (b : Body) (bytes : List Byte) : Nat :=
  if imageForeign b.tents bytes then stOutOfRange
  else match imageOf b.tents bytes with
    | none => stBadLength
    | some img => if img.tables.any (fun e => if e.1 then b.prefixOn e.2 else b.tableOn e.2) then stBusy else stOk

/-- Every part of an image, in order. -/
def Body.restoreParts (b : Body) (t : Nat) : List ImagePart → Option Body
  | [] => some b
  | p :: r =>
    match b.restorePart t p with
    | some b1 => b1.restoreParts t r
    | none => none

/-- The objects of a STRUCK tent at their reset values. -/
def Body.cleanTent (b : Body) (t : Nat) : Body :=
  let n := b.nLogN
  (b.resetOwned (struckBy n t)).floorQueues [(queueBase n t, queueBase n t + 1048576 / b.tents)] b.work.tickSets

/-- GENERATION after a restore. -/
def restoredGen (image own : Nat) : Nat := if (image + 1) % 2 ^ 16 = own then image + 2 else image + 1

/-- A successful restore; `none` while it waits for a buffer, record, slot or context. -/
def Body.restoreImage (b : Body) (t : Nat) (img : TentImage) : Option Body :=
  let n := b.nLogN
  let b0 := b.cleanTent t
  let b1 := b0.floorQueues [(queueBase n t, queueBase n t + 1048576 / b0.tents)] (b0.work.tickSets - 1)
  (b1.restoreParts t img.parts).map (fun x =>
    let x1 := (img.tables.filter (fun e => !e.1)).foldl (fun (y : Body) e => y.countLearned e.2) x
    let x2 := (x1.setTent t FTent.generation (restoredGen img.generation (b.generation t))).setTent t FTent.state 3
    { (x2.syncFallbacks).opEnds t stOk with host.restoring := mapDel t x2.host.restoring })

/-- A failed restore leaves the tent STRUCK with its objects at their reset values. -/
def Body.restoreFails (b : Body) (t st : Nat) : Body :=
  { (b.cleanTent t).opEnds t st with host.restoring := mapDel t b.host.restoring }

/-- The restore of a tent ends: `bytes` is what its image's memory holds. A read of an earlier GENERATION is discarded
(R386), and the image is read again (assumption log 130). -/
def Body.restoreEnds (b : Body) (t : Nat) (bytes : List Byte) : Body :=
  match mapFind t b.host.restoring with
  | none => b
  | some gen =>
    if gen ≠ b.generation t then { b.stale t with host.restoring := mapPut t (b.generation t) b.host.restoring }
    else
      let st := b.imageCheck bytes
      match imageOf b.tents bytes with
      | some img => if st = stOk then (b.restoreImage t img).getD b else b.restoreFails t st
      | none => b.restoreFails t st

/-! Commands that end what an operation began. -/

/-- SAVE_DONE (R390). -/
def execSaveDone (t : Nat) (s : State) : Host.Outcome State Fault Refusal := onBody (fun _ b => b.saveEnds t) s

/-- RESTORE_DONE (R391): the image has been read. -/
def execRestoreDone (t : Nat) (image : List Byte) (s : State) : Host.Outcome State Fault Refusal :=
  onBuf (fun _ b => b.restoreEnds t image) s

/-- TENT_FROZEN (R389). -/
def execTentFrozen (t : Nat) (s : State) : Host.Outcome State Fault Refusal := onBody (fun _ b => b.tentFrozenNow t) s

/-- FREEZE_TIMEOUT (R389). -/
def execFreezeTimeout (t : Nat) (s : State) : Host.Outcome State Fault Refusal := onBody (fun _ b => b.freezeFails t) s

/-- STRIKE_SETTLE (R392). -/
def execStrikeSettle (t : Nat) (s : State) : Host.Outcome State Fault Refusal := onBuf (fun _ b => b.strikeSettles t) s

end Sys2Proof.Machine
end

