-- ==== Sys2Proof/Machine/MemTests.lean ====
section
/-! DEFINITION. Errors of the on-chip memories and their background test (spec/12, R321, R326 to R328; spec/10,
R274). -/

namespace Sys2Proof.Machine

/-! Uncorrectable errors (R321, Tables 12.4 and 12.6). -/

/-- The buffer whose bytes hold offset `a` of the frame area: the pools lie in order. -/
def Body.bufferAt (b : Body) (a : Nat) : Option Nat :=
  ((List.range 8).foldl (fun (r : Nat × Option Nat) p =>
    let n := b.onchipCount p * poolSize p
    (r.1 + n, if r.2.isNone ∧ r.1 ≤ a ∧ a < r.1 + n then some (mkHandle p ((a - r.1) / poolSize p)) else r.2)) (0, none)).2

/-- A buffer in use is poisoned. -/
def Body.poisonAt (b : Body) (a : Nat) : Body :=
  match b.bufferAt a with
  | some h =>
    match b.buf? h with
    | some x => ((b.setBuf h { x with poison := true }).bump clsPool (handlePool h) FPool.poisoned 1).ring 99
    | none => b
  | none => b

/-- A slot or record is lost: the queue whose chain holds it stops, or the release of the item that has it. -/
def Body.stopElem (b : Body) (e : Elem) : Body :=
  match (b.work.chains.find? (fun c => c.2.contains e)) with
  | some c => ({ b with work.stopped := c.1 :: b.work.stopped }).syncReady c.1
  | none =>
    match e with
    | .slot n => if mapHas n b.work.slots then { b with work.stuckSrc := .slot n :: b.work.stuckSrc } else b
    | .record n => if mapHas n b.work.records then { b with work.stuckSrc := .record n :: b.work.stuckSrc } else b

/-- An error in the log store stops the release of one of the items that it holds: which, the spec does not say
(assumption log 48). -/
def Body.stopLog (b : Body) : Body :=
  let r := b.choose (b.work.commits.filter (fun o => decide (o.place = .store)))
  match r.1 with
  | some o => { r.2 with work.stuck := o.id :: r.2.work.stuck }
  | none => r.2

/-- Offset `a` of the packet buffer. -/
def Body.packetError (b : Body) (a : Nat) : Body :=
  if 0x1840000 ≤ a then b.poisonAt (a - 0x1840000)
  else
    let link := (a - 0x1000000) / 4
    (if a < 0x1000000 then b.stopElem (.slot (a / 32))
      else if a < 0x1240000 then b.stopElem (if link < 524288 then .slot link else .record (link - 524288))
      else if a < 0x1640000 then b.stopLog
      else b.stopElem (.record ((a - 0x1640000) / 32))).ring 35

/-- Offset `a` of the queue-state memory: 24 bytes for each queue. -/
def Body.queueError (b : Body) (a : Nat) : Body :=
  let q := a / 24
  ((({ b with work.stopped := q :: b.work.stopped }).fset clsQueue q FQueue.enable 0).syncReady q).ring 35

/-- Whether line `n` is part of a stored entry of an instance. -/
def Body.entryUses (b : Body) (pfx : Bool) (k n : Nat) : Bool :=
  let g := b.geo pfx k
  let w := if g.wide then 2 else 1
  !g.dram && decide (g.base ≤ n ∧ n < g.base + w * g.entries) && (b.entAt g ((n - g.base) / w)).isSome

/-- An entry of which line `n` is part is lost: the instance stores one entry less (assumption log 132). -/
def Body.loseEntry (b : Body) (n : Nat) : Body :=
  match b.enabledTables.find? (fun k => b.entryUses false k n), b.enabledPrefixes.find? (fun k => b.entryUses true k n) with
  | some k, _ => b.drop clsTable k FTable.entries 1
  | none, some k => b.drop clsPrefix k FPrefix.prefixes 1
  | none, none => b

/-- The enabled TABLE instance that a line of table memory belongs to. -/
def Body.tableAt (b : Body) (n : Nat) : Option Nat :=
  b.enabledTables.find? (fun k => (b.lineRanges false k).any (fun r => decide (r.1 ≤ n ∧ n < r.1 + r.2)))

/-- Line `n` of table memory (R274): its entry never matches again; source 96 is raised once for the line. -/
def Body.tableError (b : Body) (n : Nat) : Body :=
  let b1 := match b.tableAt n with
    | some k => (b.bump clsTable k FTable.uncorrectable 1).fset clsTable k FTable.lastEccLine n
    | none => b
  if (b1.line? n).any (fun l => l.bad) then b1
  else
    let b2 := b1.loseEntry n
    ({ b2 with tab.lines := mapPut n ⟨((b2.line? n).map Line.data).getD 0, true⟩ b2.tab.lines }).ring 96

/-- The word of the instruction at which Bivouac core `j` stands (R160, R398). -/
def Body.bivWord (b : Body) (j : Nat) : Nat := readLE b.mem.bmem (0x700000 + 0x10000 * j + (b.hart (bivHart j)).pc % 0x10000) 4

/-- The effect of an uncorrectable error at offset `a` of memory `m`; `j` is the Bivouac core that read it. -/
def Body.memoryError (b : Body) (tm : Time) (m a j : Nat) : Body :=
  let b1 := (b.bump clsMemregion m FMem.uncorrectable 1).fset clsMemregion m FMem.lastErrAddr (a / 8 * 8)
  if m = 0 then b1.packetError a
  else if m = 1 then b1.queueError a
  else if m = 2 then b1.tableError (a / 16)
  else if m = 3 then (b1.resetBasin (fun _ i => decide (i = slotInst (a / 16)))).ring 100
  else if m = 4 then
    if j < 4 then b1.trapBiv tm (bivHart j) 0x06 (b1.bivWord j) a else b1
  else if m < 0x200 then b1.retireOne tm (m - 0x100) 1
  else b1.retireCluster tm (m - 0x200)

/-- MEMORY_UNCORRECTABLE (R321). Memories are powered in every mode but Cold (R323). -/
def execMemoryUncorrectable (m : Nat) (addr : Nat) (j : Nat) (s : State) : Host.Outcome State Fault Refusal :=
  onBuf (fun tm b =>
    if addr < memBytes m ∧ b.sys.base ≠ .cold then b.memoryError tm m addr j else b) s

/-! The background test (R327, R328). -/

/-- 4 KiB regions of memories 1 to 3. -/
def bgRegions (m : Nat) : Nat := memKib m / 4

/-- Whether the tester takes a region of memory `m` at the boundary that began the present tick. -/
def Body.bgDue (b : Body) (m tick : Nat) : Bool :=
  decide (1 ≤ m ∧ m ≤ 3 ∧ b.sys.base ≠ .cold ∧ b.sys.base ≠ .boot ∧ 0 < b.work.tickSets) &&
    b.fget clsMemregion m FMem.bgEn == 1 && b.fget clsMemregion m FMem.bgShadowHeld == 0 &&
    decide (tick % b.fget clsMemregion m FMem.bgInterval = 0) &&
    (match mapFind m b.adm.bg with
      | some x => !x.running && decide (x.tick ≠ tick)
      | none => true)

/-- BG_TEST_START (R327): at a boundary whose tick is a multiple of BG_INTERVAL, once. -/
def execBgTestStart (m : Nat) (s : State) : Host.Outcome State Fault Refusal :=
  onBody (fun tm b =>
    if b.bgDue m tm.tickNumber then
      { b with adm.bg := mapPut m ⟨tm.cycle, tm.tickNumber, mapGet 0 m b.adm.bgNext, true⟩ b.adm.bg }
    else b) s

/-- The next region is due; a full pass counts. -/
def Body.bgAdvance (b : Body) (m region : Nat) : Body :=
  let next := (region + 1) % bgRegions m
  let b1 := { b with adm.bgNext := mapPut m next b.adm.bgNext }.fset clsMemregion m FMem.bgRegion next
  if next = 0 then b1.bump clsMemregion m FMem.bgPasses 1 else b1

/-- A failing column of a region: a spare of its block repairs it, or the shadow goes on serving the region. -/
def Body.bgFault (b : Body) (m region : Nat) : Body :=
  (if b.spareLeft m (region / 16) then (b.useSpare m (region / 16)).bump clsMemregion m FMem.bgFaults 1
    else b.fset clsMemregion m FMem.bgShadowHeld 1).ring 101

/-- BG_TEST_END (R327, R328): 1,024 core cycles after its start. `spare` says whether the block of the region tested has a
spare left; the event does not come about where it is otherwise (assumption log 38). -/
def execBgTestEnd (m : Nat) (failing : Bool) (spare : Bool) (s : State) : Host.Outcome State Fault Refusal :=
  onDev (fun d =>
    match mapFind m d.b.adm.bg with
    | some x =>
      if x.running && (!failing || spare == d.b.spareLeft m (x.region / 16)) then
        let d1 := d.waitCycle (x.start + 1024)
        let b1 := { d1.b with adm.bg := mapPut m { x with running := false } d1.b.adm.bg }.bgAdvance m x.region
        { d1 with b := if failing then b1.bgFault m x.region else b1 }
      else d
    | none => d) s

end Sys2Proof.Machine
end

