-- ==== Sys2Proof/Machine/Pitch.lean ====
section
/-! DEFINITION. Re-pitching: the write, its checks, and the change of N at the boundary (spec/15, R393 to R395;
spec/14, R370; spec/06, R146, R158). -/

namespace Sys2Proof.Machine

/-- log2 of an N that R393 admits. -/
def nLogOf (n : Nat) : Option (Fin 7) := (List.finRange 7).find? (fun k => 2 ^ k.val == n)

/-- Conditions 1 and 2: no tent is FREEZING, and every tent at or above the new N is STRUCK. -/
def Body.pitchTentsOk (b : Body) (new : Nat) : Bool :=
  (List.range b.tents).all (fun t => b.tentState t != 2 && (decide (t < 2 ^ new) || b.tentState t == 0))

/-- Whether a queue whose owner would change is at rest, and a furrow. -/
def Body.pitchQueuesOk (b : Body) (new : Nat) : Bool :=
  let old := b.nLogN
  b.fields.all (fun e =>
    let c := keyClass e.1
    let i := keyInst e.1
    let lo := e.1 % 2 ^ 16
    !(e.2 != 0 &&
      ((c == clsQueue && (lo == FQueue.enable.lo || lo == FQueue.inService.lo) && queueTent old i != queueTent new i) ||
        (c == clsFurrow && lo == FFurrow.outstanding.lo && furrowTent old i != furrowTent new i)))) &&
  b.work.chains.all (fun e => e.2.isEmpty || queueTent old e.1 == queueTent new e.1)

/-- Condition 4: the checks of R256 for every enabled instance at the new N; none of PREFIX at 32 or 64 (R281). -/
def Body.pitchTablesOk (b : Body) (new : Nat) : Bool :=
  let share := 2097152 / 2 ^ new
  let fits := fun (t : Nat) (rs : List (Nat × Nat)) => rs.all (fun r => decide (t * share ≤ r.1 ∧ r.1 + r.2 ≤ (t + 1) * share))
  let dram := b.enabledTables.filter (fun n => b.fget clsTable n FTable.kind == 2)
  b.enabledTables.all (fun n =>
    let t := b.fget clsTable n FTable.tent
    decide (t < 2 ^ new) && fits t (b.lineRanges false n) &&
      (b.fget clsTable n FTable.kind != 2 ||
        decide (((dram.filter (fun m => b.fget clsTable m FTable.tent == t)).map (fun m =>
          2 ^ b.fget clsTable m FTable.sizeLog2)).sum ≤ 268435456 / 2 ^ new))) &&
  b.enabledPrefixes.all (fun n => decide (new < 5 ∧ b.fget clsPrefix n FPrefix.tent < 2 ^ new) &&
    fits (b.fget clsPrefix n FPrefix.tent) (b.lineRanges true n))

/-- Whether a re-pitch is pending. -/
def Body.pitchPending (b : Body) : Bool := b.fget clsTent 0x100 FTents.repitchPending == 1

/-- REPITCH written 1: status and state. -/
def Body.repitchWrite (b : Body) : Nat × Body :=
  if !b.tentMode then (stNotInMode, b)
  else match nLogOf (b.fget clsTent 0x100 FTents.nNext) with
    | none => (stOutOfRange, b)
    | some k =>
      if b.pitchPending || !b.pitchTentsOk k.val || !b.pitchQueuesOk k.val then (stBusy, b)
      else if !b.pitchTablesOk k.val then (stRefusedShare, b)
      else (stOk, b.fset clsTent 0x100 FTents.repitchPending 1)

/-! What the boundary changes. -/

/-- A source of R370 takes its reset values; what is asserted at a level source stays so and pends anew. -/
def Body.pitchSource (b : Body) (s : Nat) : Body :=
  let was := b.fget clsIrq s FIrq.pending == 1 || b.fget clsIrq s FIrq.inService == 1
  let lev := b.fget clsIrq s FIrq.level == 1
  let b1 := b.resetObj clsIrq s
  let b2 := if was then b1.bump clsIrq 0x20000 FIrqDev.repitchCleared 1 else b1
  if lev then b2.setLevel s true else b2

/-- The sources with fields of their own that R370 resets. -/
def Body.pitchSources (b : Body) : List Nat :=
  (((b.fields.filter (fun e => keyClass e.1 == clsIrq && decide (keyInst e.1 < 4096))).map (fun e => keyInst e.1)).eraseDups).filter
    (fun s => decide (1024 ≤ s) || b.fget clsIrq s FIrq.targetKind != 0)

/-- An item without the committed messages whose peer serves another tent at the new N, and how many those are. -/
def Item.strand (new : Nat) (it : Item) : Item × Nat :=
  let keep := fun (e : LogEntry) => match e with
    | .chan _ peer _ _ => threadTent new peer == it.tent
    | _ => true
  ({ it with log := it.log.filter keep }, (it.log.filter (fun e => !keep e)).length)

/-- CHAN_STRANDED of a writer rises by `n` (R158). -/
def Body.countStranded (b : Body) (h n : Nat) : Body := if n = 0 then b else b.bump clsThread h FThread.chanStranded n

/-- Committed messages to a thread that now serves another tent are discarded and counted for their writers, those of
items that have requested commit and those of items still in service (R158). -/
def Body.strandMessages (b : Body) (new : Nat) : Body :=
  let sent := b.work.commits.filter (fun o => o.divert.isNone)
  let b1 := { b with
    work.commits := b.work.commits.map (fun o => if o.divert.isNone then { o with item := (o.item.strand new).1 } else o)
    isa.harts := b.isa.harts.map (fun e => (e.1, { e.2 with item := e.2.item.map (fun it => (it.strand new).1) })) }
  let b2 := sent.foldl (fun (x : Body) o => match o.writer with
    | some h => x.countStranded h (o.item.strand new).2
    | none => x) b1
  b.isa.harts.foldl (fun (x : Body) e => match e.2.item with
    | some it => if sent.any (fun o => o.thread == some e.1 && decide (o.place = .thread)) then x
        else x.countStranded e.1 (it.strand new).2
    | none => x) b2

/-- Every thread's timers are cancelled, and those whose tent changes are marked (R146, R204). -/
def Body.moveThreads (b : Body) (old new : Nat) : Body :=
  let m := (List.range 1024).filter (fun h => Machine.threadTent old h != Machine.threadTent new h && !b.isa.moved.contains h)
  { b with
    isa.harts := b.isa.harts.map (fun e => if e.1 < 1024 then (e.1, { e.2 with timer := none, taskTimer := none }) else e)
    isa.moved := b.isa.moved ++ m }

/-- The queues whose owner changes, as ranges. -/
def changedQueues (old new : Nat) : List (Nat × Nat) :=
  let g := 1048576 / 2 ^ max old new
  ((List.range (2 ^ max old new)).filter (fun k => queueTent old (k * g) != queueTent new (k * g))).map (fun k =>
    (k * g, (k + 1) * g))

/-- The keys of the tents that the re-pitch removes (R422). -/
def Body.dropKey (b : Body) (t : Nat) : Body :=
  { (b.fset clsDevice (0x100 + t) FKey.valid 0).fset clsDevice (0x100 + t) FKey.seen 0 with
    adm.keys := mapDel t b.adm.keys
    adm.windows := b.adm.windows.filter (fun e => decide (e.1 / 4 ≠ t)) }

/-- The instances that the boundary cycle itself resets: threads change at their next item (R146), sources under R370,
TENT[t] stays, and Basin slots and lists wait for the end of the cut. -/
def pitchNow (old new cls inst : Nat) : Bool :=
  pitchChanges old new cls inst &&
    !(cls == clsThread || cls == clsIrq || (cls == clsTent && decide (inst < 0x1000)) ||
      (cls == clsBasin && decide (0x10000 ≤ inst)))

/-- A tent that the re-pitch adds is PITCHED, with TENT[t] otherwise at its reset values. -/
def Body.addTent (b : Body) (t : Nat) : Body := (b.resetObj clsTent t).setTent t FTent.state 1

/-- N takes its new value in the boundary cycle. -/
def Body.applyPitch (b : Body) (tm : Time) (k : Fin 7) : Body :=
  let old := b.nLogN
  let new := k.val
  let b1 := (b.strandMessages new).moveThreads old new
  let b2 := b1.pitchSources.foldl (fun (x : Body) s => x.pitchSource s) b1
  let b3 := b2.resetOwned (pitchNow old new)
  let b4 := { (b3.floorQueues (changedQueues old new) b3.work.tickSets).resetVectors (fun v =>
    tentOf old 2048 v != tentOf new 2048 v) with sys.nLog := k }
  let b5 := ((List.range 64).filter (fun t => decide (2 ^ new ≤ t ∧ t < 2 ^ old))).foldl (fun (x : Body) t => x.dropKey t) b4
  let b6 := ((List.range 64).filter (fun t => decide (2 ^ old ≤ t ∧ t < 2 ^ new))).foldl (fun (x : Body) t => x.addTent t) b5
  let b7 := (b6.work.chains.foldl (fun (x : Body) e => x.checkOver e.1 (b.weir e.1)) b6).syncFallbacks
  (((b7.fset clsTent 0x100 FTents.n (2 ^ new)).fset clsTent 0x100 FTents.repitchPending 0).fset clsTent 0x100
    FTents.repitchTick tm.tickNumber).bump clsTent 0x100 FTents.repitches 1

/-- Before action 3 of a boundary: a pending re-pitch is checked again, and performed or abandoned. -/
def Body.pitchBoundary (b : Body) (tm : Time) : Body :=
  if b.pitchPending then
    match nLogOf (b.fget clsTent 0x100 FTents.nNext) with
    | some k =>
      if b.pitchTentsOk k.val && b.pitchQueuesOk k.val && b.pitchTablesOk k.val then b.applyPitch tm k
      else (b.fset clsTent 0x100 FTents.repitchPending 0).bump clsTent 0x100 FTents.repitchAbandoned 1
    | none => (b.fset clsTent 0x100 FTents.repitchPending 0).bump clsTent 0x100 FTents.repitchAbandoned 1
  else b

end Sys2Proof.Machine
end

