-- ==== Sys2Proof/Machine/Views.lean ====
section
/-! DEFINITION. What a field of an object shows: the fields that stand for something the state holds elsewhere
(the field maps of every chapter). -/

namespace Sys2Proof.Machine

/-- HOLDER_KIND, HOLDER and HOLDER_SEQ of a lock (Tables 14.1 and 14.5). -/
def Body.holderWords (b : Body) : Option Holder → Nat × Nat × Nat
  | none => (0, 0, 0)
  | some (.thread n) => (1, n, 0)
  | some (.item _ f s _ _) => (2, f, s)
  | some (.task q) => (3, q % (1048576 / b.tents), 0)
  | some (.host t) => (4, t, 0)
  | some (.biv j) => (5, j, 0)

/-- The number of an element of a chain, and whether it is an exception record. -/
def elemNum : Option Elem → Nat × Nat
  | none => (0, 0)
  | some (.slot n) => (n, 0)
  | some (.record n) => (n, 1)

/-- QUEUE (Table 5.9). -/
def Body.viewQueue (b : Body) (q : Nat) (f : Fld) : Nat :=
  let l := b.chain q
  if f = FQueue.depth then l.length
  else if f = FQueue.ready then bit (b.isReady q)
  else if f = FQueue.head then (elemNum l.head?).1
  else if f = FQueue.headRecord then (elemNum l.head?).2
  else if f = FQueue.tail then (elemNum l.getLast?).1
  else if f = FQueue.tailRecord then (elemNum l.getLast?).2
  else if f = FQueue.flags then b.flags q
  else b.fget clsQueue q f

/-- THREAD (Table 6.8). -/
def Body.viewThread (b : Body) (h : Nat) (f : Fld) : Nat :=
  let x := b.hart h
  if f = FThread.state then b.threadState h
  else if f = FThread.blockReason then b.blockReason h
  else if f = FThread.inTrap then bit x.inTrap
  else if f = FThread.trapCause then x.trapCause
  else if f = FThread.trapPc then x.trapPc
  else if f = FThread.trapInsn then x.trapInsn
  else if f = FThread.trapAddr then x.trapAddr
  else if f = FThread.itemQueue then (x.item.map Item.queue).getD 0
  else if f = FThread.itemHeld then bit x.item.isSome
  else b.fget clsThread h f

/-- A Bivouac core's instance of DEVICE (Table 16.8). -/
def Body.viewBiv (b : Body) (inst : Nat) (f : Fld) : Nat :=
  let x := b.hart (bivHart (inst - 1))
  if f = FBiv.inTrap then bit x.inTrap
  else if f = FBiv.trapCause then x.trapCause
  else if f = FBiv.trapPc then x.trapPc
  else if f = FBiv.trapInsn then x.trapInsn
  else if f = FBiv.trapAddr then x.trapAddr
  else b.fget clsDevice inst f

/-- RUNNEL (Table 8.17) and the context image (R233). -/
def Body.viewRunnel (b : Body) (inst : Nat) (f : Fld) : Nat :=
  let x := (b.core (inst / 2)).ctx (inst % 2)
  if f = FRunnel.bound then bit x.owner.isSome
  else if f = FRunnel.owner then x.owner.getD 0
  else if 32 * 0x100 ≤ f.lo then leAt (x.image (inst % 2)) (f.lo / 8 - 4 * 0x100) 4
  else b.fget clsRunnel inst f

/-- POOL (Tables 12.8 to 12.10). -/
def Body.viewPool (b : Body) (inst : Nat) (f : Fld) : Nat :=
  if inst < 8 then
    (if f = FPool.freeOnchip then b.freeOnchip inst
     else if f = FPool.freeDram then b.freeDram inst else b.fget clsPool inst f)
  else if inst = 0x100 then
    (if f = FPoolDev.freeOnchipKib then b.freeOnchipKib
     else if f = FPoolDev.rxUsedKib then b.charged .rx / 1024
     else if f = FPoolDev.bivUsedKib then b.charged .bivouac / 1024 else b.fget clsPool inst f)
  else if f = FPoolTent.frameUsedKib then b.charged (.frame (inst - 0x200)) / 1024
  else if f = FPoolTent.hostUsedKib then b.charged (.host (inst - 0x200)) / 1024
  else b.fget clsPool inst f

/-- Whether Survey trains a line port for its measurements (Table 18.1): from the end of row 1 to the results of rows 4 to
6, after which the port is down. -/
def Body.surveyTrains (b : Body) (p : Nat) : Bool :=
  decide (p < 64 ∧ b.sys.base = .survey) && b.adm.survey.verdict.isSome && !b.adm.survey.shown && b.linkReady p

/-- PORT: OPER_STATE shows TRAINING from when a port with AN_EN = 1 may come up until it is UP (R59, assumption log 75). -/
def Body.viewPort (b : Body) (p : Nat) (f : Fld) : Nat :=
  let v := b.fget clsPort p f
  if f = FPort.operState ∧ v = 1 ∧ b.surveyTrains p then 2
  else
  let trains := decide (p < 64 ∧ v = 1) && b.fget clsPort p FPort.adminUp == 1 && b.fget clsPort p FPort.anEn == 1 &&
    b.modeAllowsPort p && b.linkReady p
  if f = FPort.operState ∧ trains then 2 else v

/-- LOCK (Tables 14.5 and 14.6). -/
def Body.viewLock (b : Body) (inst : Nat) (f : Fld) : Nat :=
  if inst < 0x4000 then
    let l := b.lock inst
    let w := b.holderWords l.holder
    if f = FLock.held then bit l.holder.isSome
    else if f = FLock.holderKind then w.1
    else if f = FLock.holder then w.2.1
    else if f = FLock.holderSeq then w.2.2
    else if f = FLock.boost then b.lockBoost l
    else if f = FLock.waiters then l.waiters.length
    else b.fget clsLock inst f
  else if inst < 0x10000 then
    let x := b.sem (inst - 0x4000)
    if f = FSem.held then x.held
    else if f = FSem.waiters then x.waiters.length
    else b.fget clsLock inst f
  else b.fget clsLock inst f

/-- The current value of a field. -/
def Dev.view (d : Dev) (cls inst : Nat) (f : Fld) : Nat :=
  let b := d.b
  match cls with
  | 1 => if 1 ≤ inst ∧ inst ≤ 4 then b.viewBiv inst f else b.fget cls inst f
  | 2 => if inst = 0 then (d.tm.field f).getD (b.fget cls inst f) else b.fget cls inst f
  | 3 => b.viewPort inst f
  | 4 =>
    if inst = 0 ∧ f = FIntake.live then bit (b.epochLive 0) + 2 * bit (b.epochLive 1) else b.fget cls inst f
  | 6 =>
    if f = FHead.admitOpen ∧ inst < 0x10000 then (if inst = 0 then bit b.admitOpen else 0) else b.fget cls inst f
  | 7 => b.viewQueue inst f
  | 11 => b.viewThread inst f
  | 12 => b.viewRunnel inst f
  | 13 =>
    if 0x10000 ≤ inst ∧ f = FOutFur.waiting then b.waitingIn (inst - 0x10000) else b.fget cls inst f
  | 17 =>
    if inst = 0 ∧ f = FBasin.queueDepth then b.bas.queue.length
    else if inst = 0 ∧ f = FBasin.spilled then b.bas.queue.length - basinOnchip
    else b.fget cls inst f
  | 18 => b.viewPool inst f
  | 21 => b.viewLock inst f
  | 24 =>
    if f = FEgress.gateState then b.gateState d.tm inst
    else if f = FEgress.queuedFrames then b.queuedFrames inst
    else b.fget cls inst f
  | 28 =>
    if f = FPower.mode then b.modeCode
    else if f = FPower.baseMode then b.sys.base.code
    else b.fget cls inst f
  | 30 =>
    if inst < 1024 ∧ f = FDebug.halted then bit (b.hart inst).halted
    else if inst < 1024 ∧ f = FDebug.regData then (b.hart inst).selected (b.fget cls inst FDebug.regSel)
    else b.fget cls inst f
  | _ => b.fget cls inst f

/-- The bits of a value of a field that word `off` of its object shows. -/
def Fld.inWord (f : Fld) (off v : Nat) : Nat :=
  let x := v % 2 ^ f.width
  if 32 * off ≤ f.lo then x * 2 ^ (f.lo - 32 * off) % 2 ^ 32 else x / 2 ^ (32 * off - f.lo) % 2 ^ 32

/-- How many bits of a field word `off` of its object holds, and the lowest of them in the field. -/
def Fld.bitsIn (f : Fld) (off : Nat) : Nat := min (f.lo + f.width) (32 * off + 32) - max f.lo (32 * off)
def Fld.lowIn (f : Fld) (off : Nat) : Nat := 32 * off - f.lo

/-- The value of a field after a word of its object is written with `w`. -/
def Fld.splice (f : Fld) (off w old : Nat) : Nat := setBits old (f.lowIn off) (f.bitsIn off) (w / 2 ^ (f.lo - 32 * off))

/-- A word of an object, without the side effects of a read (R417). -/
def Dev.peek (d : Dev) (cls inst off : Nat) : Nat :=
  ((fieldsOfWord cls inst off).map (fun f => if f.acc = .wo then 0 else f.inWord off (d.view cls inst f))).sum

/-- BOOTSTAT: what the IEEE 1149.1 port's private instruction reads, POWER[0] bits 31:0 (R448; no row of the table sends
it, assumption log 158). -/
def Dev.bootStat (d : Dev) : Nat := d.peek clsPower 0 0

/-- Whether a word may be read now: the Runnel image (R233) and REG_DATA (R166). -/
def Body.readCheck (b : Body) (cls inst off : Nat) : Nat :=
  if cls = clsRunnel ∧ 0x100 ≤ off then
    if !b.inBench then stNotInMode
    else match ((b.core (inst / 2)).ctx (inst % 2)).owner with
      | some h => if (b.hart h).halted then stOk else stBusy
      | none => stOk
  else if cls = clsDebug ∧ inst < 1024 ∧ off = 1 then b.regAccess inst
  else stOk

/-- Whether a port that is not up negotiates or trains its link (R59): how far it has come is its partner's and the
board's to decide, so that OPER_STATE reads DOWN or TRAINING, as a free choice (assumption log 75). -/
def Body.mayTrain (b : Body) (cls p : Nat) (f : Fld) : Bool :=
  cls == clsPort && f == FPort.operState && decide (p < 64) && b.fget clsPort p FPort.operState == 1 &&
    (b.fget clsPort p FPort.adminUp == 1 && b.fget clsPort p FPort.anEn == 1 && b.modeAllowsPort p && b.linkReady p ||
      b.surveyTrains p)

/-- A field read in word `off`: its value, and what the read leaves. A 64-bit field is latched by its low word, whose
half the read of the high word returns (R32); an RC field is cleared by a read, a 64-bit one by that of its low word. -/
def Dev.readField (d : Dev) (cls inst off : Nat) (f : Fld) : Nat × Dev :=
  let k := fieldKey cls inst f.lo
  let v := d.view cls inst f
  let cleared := if f.acc = .rc then d.b.fset cls inst f f.reset else d.b
  if f.acc = .wo then (0, d)
  else if d.b.mayTrain cls inst f then let r := d.b.fresh; (1 + r.1 % 2, { d with b := r.2 })
  else if f.width = 64 then
    (if off = f.word then (v, { d with b := { cleared with latches := mapPut k v cleared.latches } })
     else ((mapFind k d.b.latches).getD v, { d with b.latches := mapDel k d.b.latches }))
  else (v, { d with b := cleared })

/-- A word read (R10): the low word of TX_TS latches the head record first, and a read of the word of TX_TS_TAG removes
it (R77). -/
def Dev.readWord (d : Dev) (cls inst off : Nat) : Nat × Dev :=
  let port := decide (cls = clsPort)
  let d0 := if port && off == FPort.txTs.word then { d with b := d.b.latchTxTs inst } else d
  let r := (fieldsOfWord cls inst off).foldl (fun (x : Nat × Dev) f =>
    let y := x.2.readField cls inst off f
    (x.1 + f.inWord off y.1, y.2)) (0, d0)
  (r.1, if port && off == FPort.txTsTag.word then { r.2 with b := r.2.b.popTxTs inst } else r.2)

end Sys2Proof.Machine
end

