-- ==== Sys2Proof/Machine/WriteChecks.lean ====
section
/-! DEFINITION. What an object write is judged by: the reach of a host, the values that a word and its whole access
leave, and the checks of each class (spec/00, R7 to R12; spec/20, R478; the field rules of every chapter). -/

namespace Sys2Proof.Machine

/-! Reach (R285, R304, R311, R329, R371, R396 and the access rules of the other classes). -/

/-- The tent of a TABLE or PREFIX instance. -/
def Body.tableTent (b : Body) (cls inst : Nat) : Nat :=
  b.fget cls inst (if cls = clsTable then FTable.tent else FPrefix.tent)

/-- Whether an instance is of a kind that a host may reach in its own tent. -/
def hostKind (cls inst : Nat) : Bool :=
  match cls with
  | 4 => decide (0x40000 ≤ inst)
  | 6 => decide (1 ≤ inst ∧ inst < 0x10000)
  | 7 | 8 | 11 | 25 => true
  | 13 | 17 => decide (1 ≤ inst)
  | 18 => decide (0x200 ≤ inst)
  | 21 => decide (inst < 0x20000)
  | 22 => decide (1024 ≤ inst ∧ inst < 4096)
  | 23 => decide (inst < 64 ∨ 0x1000 ≤ inst)
  | _ => false

/-- Whether an authority reaches an instance; `write` where the access writes. -/
def Body.reaches (b : Body) (au : Auth) (cls inst : Nat) (write : Bool) : Bool :=
  match au with
  | .biv => true
  | .host t =>
    if cls = clsTable ∨ cls = clsPrefix then b.tableTent cls inst == t
    else if cls = clsIrq ∧ write ∧ b.completeReach au inst then true
    else hostKind cls inst && ownerOf b.nLogN cls inst == some t

/-- The access code that a field has for an authority. -/
def Body.accessOf (b : Body) (au : Auth) (cls inst : Nat) (f : Fld) : Access :=
  match au with
  | .biv => f.acc
  | .host t =>
    let free := match cls with
      | 14 | 16 => decide (f = FTable.cmdBlock ∨ f = FTable.cmdIssue)
      | 22 => b.ownDoorbell t inst || decide (f = FIrq.complete)
      | 23 => decide (0x1000 ≤ inst ∨ f = FTent.hostReset ∨ f = FTent.apertureBase)
      | _ => true
    if free || (f.acc == .rc && cls != clsTable && cls != clsPrefix) then f.acc else .ro

/-- Whether an access code lets a write have an effect. -/
def Access.writable : Access → Bool
  | .rw | .w1c | .wo => true
  | .ro | .rc => false

/-! A word in its access. -/

/-- One word of a write: the device as the earlier words leave it, the authority, the address, the word, and the later
words of the access. -/
structure Wr where
  d : Dev
  au : Auth
  cls : Nat
  inst : Nat
  off : Nat
  word : Nat
  later : List (Nat × Nat)

/-- Whether a field has a bit in a word. -/
def Fld.inWordOf (f : Fld) (off : Nat) : Bool := decide (f.lo < 32 * off + 32 ∧ 32 * off < f.lo + f.width)

def Wr.fields (w : Wr) : List Fld := fieldsOfWord w.cls w.inst w.off
def Wr.acc (w : Wr) (f : Fld) : Access := w.d.b.accessOf w.au w.cls w.inst f
def Wr.old (w : Wr) (f : Fld) : Nat := w.d.view w.cls w.inst f

/-- The value of a field after this word. -/
def Wr.next (w : Wr) (f : Fld) : Nat := if f.inWordOf w.off then f.splice w.off w.word (w.old f) else w.old f

/-- The value of a field after the whole access. -/
def Wr.leaves (w : Wr) (f : Fld) : Nat :=
  w.later.foldl (fun v e => if w.off < e.1 ∧ f.inWordOf e.1 then f.splice e.1 e.2 v else v) (w.next f)

/-- The bits that this word carries for a W1C or WO field. -/
def Wr.bits (w : Wr) (f : Fld) : Nat :=
  if f.inWordOf w.off ∧ (w.acc f).writable then f.splice w.off w.word 0 else 0

/-- Whether this word writes one of the RW fields of a list: it holds no other field that may be written, or the value
changes (assumption log 50). -/
def Wr.hits (w : Wr) (l : List Fld) : Bool :=
  let only := (w.fields.filter (fun f => (w.acc f).writable)).all (fun f => l.contains f)
  l.any (fun f => f.inWordOf w.off && w.acc f == .rw && (only || w.next f != w.old f))

/-- Whether this word writes an RW field. -/
def Wr.hit (w : Wr) (f : Fld) : Bool := w.hits [f]

/-- Whether this word writes any RW field. -/
def Wr.hitAny (w : Wr) : Bool := w.hits (w.fields.filter (fun f => w.acc f == .rw))

/-- Whether every RW field of the word is in its stated range after the whole access (R478, assumption log 40). -/
def Wr.inRange (w : Wr) : Bool := w.fields.all (fun f => w.acc f != .rw || f.inRange (w.leaves f))

/-! The verdict of each class: whether the mode admits the write, whether its values do, and whether it would meet work
in progress. -/

structure Verdict where
  mode : Bool
  range : Bool
  busy : Bool

def Verdict.fine : Verdict := ⟨true, true, false⟩

/-- The status of a verdict, in the order of R478. -/
def Verdict.status (v : Verdict) (inRange : Bool) : Nat :=
  if !v.mode then stNotInMode else if !(inRange && v.range) then stOutOfRange else if v.busy then stBusy else stOk

/-- Row 8 of Survey, in which the configuration is restored (R453), and Standby. -/
def Body.configMode (b : Body) : Bool := decide (b.modeCode = 3)

/-- PORT (R57, R59, R65, R83). PORT[64], the service port, has no FEC and no column in Table 3.2; every code of its FEC
field is accepted and none has an effect (DESIGN CHOICE; assumption log 151). -/
def Wr.judgePort (w : Wr) : Verdict :=
  let b := w.d.b
  let p := w.inst
  let mode := w.leaves FPort.mode
  let group := if p = 64 then [64] else groupPorts (p / 4)
  let fecOf := fun q => if q = p then w.leaves FPort.fec else b.fget clsPort q FPort.fec
  let modeOk :=
    if p = 64 then decide (mode = 4 ∨ mode = 5)
    else decide (mode ≤ 3) && group.all (fun q => !presentIn mode q || fecAllowed (modeSpeed mode q) (fecOf q))
  let fecOk := decide (p = 64) || !presentIn mode p || fecAllowed (modeSpeed mode p) (w.leaves FPort.fec)
  let range :=
    (!w.hit FPort.mode || modeOk) && (!w.hit FPort.fec || fecOk) &&
      (!(FPort.adminUp.inWordOf w.off && w.next FPort.adminUp == 1) || presentIn mode p) &&
      (!w.hits [FPort.xoffKib, FPort.xonKib] || decide (w.leaves FPort.xoffKib ≤ w.leaves FPort.xonKib)) &&
      (!w.hit FPort.excOffset || decide (w.next FPort.excOffset < 1048576 / b.tents))
  ⟨true, range,
   w.hit FPort.mode && group.any (fun q => b.fget clsPort q FPort.adminUp == 1 || decide (0 < b.queuedFrames q))⟩

/-- EGRESS (R75): the administrative list, ADMIN_LEN and CYCLE_MULT while a swap is pending. -/
def Wr.judgeEgress (w : Wr) : Verdict :=
  ⟨true, true, w.hitAny && w.d.b.fget clsEgress w.inst FEgress.swapPending == 1⟩

/-- REDUND (R80). -/
def Wr.judgeRedund (w : Wr) : Verdict :=
  let fn := w.leaves FRedund.function
  ⟨true,
   !(w.hits [FRedund.function, FRedund.portA, FRedund.portB] && (fn == 1 || fn == 2)) ||
     w.leaves FRedund.portA != w.leaves FRedund.portB, false⟩

/-- The segments whose descriptors lie at given bits (R113). -/
def Wr.segmentsOk (w : Wr) (at_ : Nat → Nat) (limit : Nat) : Bool :=
  let ks := (List.range 8).filter (fun k => w.leaves (segSrc (at_ k)) != 0)
  !w.hitAny || (ks.all (fun k => w.leaves (segLength (at_ k)) != 0) &&
    decide ((ks.map (fun k => w.leaves (segLength (at_ k)))).sum ≤ limit))

/-- Whether an action word keeps its stated ranges (Table 4.5). -/
def actionOk (a : Nat) : Bool :=
  match a % 16 with
  | 1 =>
    let n := bitsAt a 24 3
    decide (1 ≤ n ∧ n ≤ 6) && (a.testBit 27 || decide (n ≤ 4))
  | 2 => bitsAt a 17 2 != 3
  | 4 => decide (bitsAt a 4 6 + bitsAt a 10 6 + 1 ≤ 64)
  | op => decide (op < 11)

/-- The bits of an action word that its OP names; the others read 0 (Table 4.5, assumption log 51). -/
def actionMask (op : Nat) : Nat :=
  match op with
  | 1 => 0xFFFFFFFF1FFFFFFF
  | 2 => 0xFFFFFFFF0007FFFF
  | 3 => 0xFFFF
  | 4 => 0xFFFFFFFF0001FFFF
  | 5 => 0x0000FFFF0000001F
  | 6 => 0x000000070000001F
  | 7 => 0x00FFFFFF0001FFFF
  | _ => 0xF

/-- The epoch of whose rule set an INTAKE instance is part (Table 4.8). -/
def intakeEpoch (inst : Nat) : Option Nat :=
  if 0x100 ≤ inst ∧ inst < 0x180 then some ((inst - 0x100) / 64)
  else if 0x200 ≤ inst ∧ inst < 0x300 then some ((inst - 0x200) / 128)
  else if 0x400 ≤ inst ∧ inst < 0x420 then some ((inst - 0x400) / 16)
  else if 0x1000 ≤ inst ∧ inst < 0x3000 then some ((inst - 0x1000) / 4096)
  else none

/-- INTAKE (R110, R113, Tables 4.5, 4.10). -/
def Wr.judgeIntake (w : Wr) : Verdict :=
  let b := w.d.b
  let i := w.inst
  let range :=
    if 0x100 ≤ i ∧ i < 0x180 then
      !w.hits [FNode.lenBitpos, FNode.lenWidth] || decide (w.leaves FNode.lenBitpos + w.leaves FNode.lenWidth ≤ 8)
    else if 0x400 ≤ i ∧ i < 0x420 then w.segmentsOk hashSegBit 48
    else if 0x1000 ≤ i ∧ i < 0x3000 then actionOk (w.leaves (actionWord (w.off / 2)))
    else true
  ⟨true, range, w.hitAny && (match intakeEpoch i with
    | some e => b.epochLive e
    | none => false)⟩

/-- STAGE (R110, R113). -/
def Wr.judgeStage (w : Wr) : Verdict :=
  ⟨true, w.segmentsOk stageSegBit 16, w.hitAny && w.d.b.epochLive (w.inst / 8)⟩

/-- QUEUE (R138): a word that holds HOME_FURROW names a furrow of the tent (R140). -/
def Wr.judgeQueue (w : Wr) : Verdict :=
  let n := w.d.b.nLogN
  ⟨true, !(w.acc FQueue.homeFurrow == .rw && FQueue.homeFurrow.inWordOf w.off) ||
    furrowTent n (w.next FQueue.homeFurrow) == queueTent n w.inst, false⟩

/-- FURROW (R138). -/
def Wr.judgeFurrow (w : Wr) : Verdict :=
  let b := w.d.b
  ⟨true, !w.hit FFurrow.excOffset || decide (w.next FFurrow.excOffset < 1048576 / b.tents),
   w.hit FFurrow.nextSeq && decide (0 < b.fget clsFurrow w.inst FFurrow.outstanding)⟩

/-- Whether a log holds a message committed on an endpoint. -/
def logSends (ep : Nat) (l : List LogEntry) : Bool :=
  l.any (fun e => match e with
    | .chan own _ _ _ => own == ep
    | _ => false)

/-- Whether a log holds a counter increment. -/
def logCounts (l : List LogEntry) : Bool :=
  l.any (fun e => match e with
    | .stg kind _ => kind == 3
    | _ => false)

/-- Whether an endpoint of a thread has staged words, or a committed message not yet released (R158). -/
def Body.endpointBusy (b : Body) (h ep : Nat) : Bool :=
  let x := b.hart h
  mapGet [] ep x.staging != [] || ((x.item.map Item.log).map (logSends ep)).getD false ||
    b.work.commits.any (fun o => decide (o.writer = some h) && o.divert.isNone && logSends ep o.item.log)

/-- The channel bindings that a word writes. -/
def Wr.bindings (w : Wr) : List Nat :=
  (List.range 8).filter (fun k =>
    w.hits [FThread.chanPeer k, FThread.chanPeerEp k, FThread.chanDelivery k, FThread.chanValid k])

/-- THREAD (R158). -/
def Wr.judgeThread (w : Wr) : Verdict :=
  let b := w.d.b
  ⟨true, w.bindings.all (fun k => b.threadTent (w.next (FThread.chanPeer k)) == b.threadTent w.inst),
   w.bindings.any (fun k => b.endpointBusy w.inst (8 + k))⟩

/-- OUTFALL (R255): the counter area while a release of the tent holds a counter increment. -/
def Wr.judgeOutfall (w : Wr) : Verdict :=
  ⟨true, true,
   w.hits [FOut.ctrBase, FOut.ctrCount] && w.d.b.work.commits.any (fun o =>
     decide (1 + o.item.tent = w.inst) && o.divert.isNone && logCounts o.item.log)⟩

/-- TABLE (R256, R275, R285). -/
def Wr.judgeTable (w : Wr) : Verdict :=
  let b := w.d.b
  let kind := w.leaves FTable.kind
  let size := w.leaves FTable.sizeLog2
  let base := w.leaves FTable.base
  let bounds := if kind = 2 then (1, 28) else if kind = 3 then (0, 21) else (2, 21)
  let sizeOk := decide (bounds.1 ≤ size ∧ size ≤ bounds.2)
  let baseOk := if kind = 2 then decide (base % 64 = 0) else if kind = 3 then true else decide (base % 4 = 0)
  let config := [FTable.kind, FTable.tent, FTable.sizeLog2, FTable.seed0, FTable.seed1, FTable.base, FTable.portEn,
    FTable.portLsb]
  ⟨true,
   (!w.hit FTable.tent || decide (w.next FTable.tent < b.tents)) &&
     (!w.hits [FTable.kind, FTable.sizeLog2] || sizeOk) && (!w.hits [FTable.kind, FTable.base] || baseOk) &&
     !(w.hits [FTable.shadowEn, FTable.kind] && w.leaves FTable.shadowEn == 1 && kind == 4),
   (w.hits config && b.tableOn w.inst) ||
     (w.bits FTable.cmdIssue == 1 && b.fget clsTable w.inst FTable.cmdBusy == 1)⟩

/-- PREFIX (R281, R285). -/
def Wr.judgePrefix (w : Wr) : Verdict :=
  let b := w.d.b
  let config := [FPrefix.tent, FPrefix.sizeLog2, FPrefix.seed0, FPrefix.seed1, FPrefix.base, FPrefix.filterBase,
    FPrefix.countBase]
  ⟨true, !w.hit FPrefix.tent || decide (w.next FPrefix.tent < b.tents), w.hits config && b.prefixOn w.inst⟩

/-- A snapshot list (R301, Table 11.12). -/
def Wr.judgeList (w : Wr) : Verdict :=
  let b := w.d.b
  let port := w.next FList.port
  let len := w.next FList.templateLen
  ⟨true,
   (!w.hits [FList.phase, FList.period] || decide (w.leaves FList.phase < w.leaves FList.period)) &&
     (!w.hits [FList.firstSlot, FList.span] ||
       decide (w.leaves FList.firstSlot + w.leaves FList.span ≤ b.slotShare)) &&
     (!w.hit FList.port || decide (port ≤ 65 ∨ port = 67)) &&
     (!w.hit FList.furrow || furrowTent b.nLogN (w.next FList.furrow) == tentOf b.nLogN 4096 (w.inst - 0x10000)) &&
     (!w.hit FList.templateLen || decide (len = 14 ∨ len = 18 ∨ len = 22)), false⟩

/-- BASIN (R294, R300, R304). -/
def Wr.judgeBasin (w : Wr) : Verdict :=
  let b := w.d.b
  let i := w.inst
  if i = 0 then
    ⟨true, true, w.hits [FBasin.spillBase, FBasin.spillMib] && decide (basinOnchip < b.bas.queue.length)⟩
  else if i < 0x1000 then Verdict.fine
  else if i < 0x10000 then
    ⟨true, true, w.hits [FRing.base, FRing.lenLog2] && b.fget clsBasin i FRing.enable == 1⟩
  else if i < 0x100000 then w.judgeList
  else ⟨true, !(w.bits FForce.force == 1 && w.bits FForce.unforce == 1), false⟩

/-- The bytes that the pools take on chip or in DRAM, if pool `p` had `n` buffers there. -/
def Body.poolBytes (b : Body) (dram : Bool) (p n : Nat) : Nat :=
  ((List.range 8).map (fun k =>
    (if k = p then n else if dram then b.dramCount k else b.onchipCount k) * poolSize k)).sum

/-- POOL (R330, R331, R333). -/
def Wr.judgePool (w : Wr) : Verdict :=
  let b := w.d.b
  let p := w.inst
  if p < 8 then
    let on := w.leaves FPool.onchipCount
    let dr := w.leaves FPool.dramCount
    let hit := w.hits [FPool.onchipCount, FPool.dramCount]
    ⟨!hit || b.configMode,
     !hit || (decide (on + dr ≤ 2 ^ 29) && decide (b.poolBytes false p on ≤ 41680896) &&
       decide (b.poolBytes true p dr ≤ b.fget clsPool 0x100 FPoolDev.overflowLimitMib * 2 ^ 20)),
     hit && b.work.bufs.any (fun e => handlePool e.1 == p)⟩
  else if p = 0x100 then
    let hit := w.hits [FPoolDev.overflowEn, FPoolDev.overflowBase, FPoolDev.overflowLimitMib]
    ⟨!hit || b.configMode,
     (!w.hit FPoolDev.overflowLimitMib ||
         decide (b.poolBytes true 8 0 ≤ w.next FPoolDev.overflowLimitMib * 2 ^ 20)) &&
       (!w.hits [FPoolDev.rxQuotaKib, FPoolDev.bivQuotaKib] ||
         decide (w.leaves FPoolDev.rxQuotaKib + w.leaves FPoolDev.bivQuotaKib ≤
           b.fget clsPool 0x100 FPoolDev.capacityKib)), false⟩
  else Verdict.fine

/-- MEMREGION (Table 12.12): a host master has no region of the data space. -/
def Wr.judgeRegion (w : Wr) : Verdict :=
  ⟨true, !(decide (0x10000 + 8 * 1028 ≤ w.inst ∧ w.off = 0) && w.next FRegion.space == 0), false⟩

/-- DRAM (R349). -/
def Wr.judgeDram (w : Wr) : Verdict :=
  ⟨!(w.inst == 0 && w.hit FDram.speedMax) || w.d.b.configMode, !(w.inst == 0x107 && w.hit FReqPort.targetNs), false⟩

/-- LOCK (R371, R372, Tables 14.6 to 14.8). -/
def Wr.judgeLock (w : Wr) : Verdict :=
  let b := w.d.b
  let i := w.inst
  if i < 0x4000 then Verdict.fine
  else if i < 0x10000 then ⟨true, true, w.hit FSem.maxF && decide ((b.sem (i - 0x4000)).waiters ≠ [])⟩
  else
    ⟨true,
     (!(w.hit FWindow.reqTent && decide (0x20000 ≤ i)) || decide (w.next FWindow.reqTent < b.tents)) &&
       (!w.hit FWindow.reqNum || decide (w.next FWindow.reqNum < 16384 / b.tents)) &&
       (!w.hit FWindow.reqQueue || decide (w.next FWindow.reqQueue < 1048576 / b.tents)), false⟩

/-- IRQ (R365). -/
def Wr.judgeIrq (w : Wr) : Verdict :=
  let b := w.d.b
  let s := w.inst
  let kind := w.leaves FIrq.targetKind
  let tent := w.leaves FIrq.targetTent
  let limit := if kind = 0 then 4 else if kind = 1 then 1048576 / b.tents else 2048 / b.tents
  let hit := w.hits [FIrq.targetKind, FIrq.targetTent, FIrq.target]
  if 4096 ≤ s then Verdict.fine
  else
    ⟨true,
     !hit || (decide (tent < b.tents) && decide (w.leaves FIrq.target < limit) &&
       (decide (s < 1024) || kind == 0 || tent == tentOf b.nLogN 3072 (s - 1024))),
     hit && !b.irqIdle s⟩

/-- TENT (R379, R393, R396): the PASID of a pitched tent, and a ring's configuration while it is enabled. -/
def Wr.judgeTent (w : Wr) : Verdict :=
  let b := w.d.b
  let i := w.inst
  if i < 64 then
    let b1 := (b.setTent i FTent.pasid (w.leaves FTent.pasid)).setTent i FTent.pasidEn (w.leaves FTent.pasidEn)
    ⟨true, !w.hits [FTent.pasid, FTent.pasidEn] || !b1.pasidClash, false⟩
  else if i = 0x100 then Verdict.fine
  else
    ⟨true, true, w.hits [FHostRing.kind, FHostRing.pool, FHostRing.lenLog2, FHostRing.base] &&
      b.fget clsTent i FHostRing.enable == 1⟩

/-- SENSOR and POWER (Tables 18.9 and 18.12). -/
def Wr.judgeSensor (w : Wr) : Verdict :=
  ⟨true, !(decide (w.inst < 12) && w.hits [FSupply.lowMv, FSupply.highMv]) ||
    decide (w.leaves FSupply.lowMv < w.leaves FSupply.highMv), false⟩

def Wr.judgePower (w : Wr) : Verdict :=
  let ms := w.next FPower.ckptMs
  ⟨true,
   (!w.hits [FPower.measLoMv, FPower.measHiMv] || decide (w.leaves FPower.measLoMv < w.leaves FPower.measHiMv)) &&
     (!w.hit FPower.ckptMs || decide (ms = 0 ∨ (100 ≤ ms ∧ ms ≤ 60000))), false⟩

/-- DEBUG (R166). -/
def Wr.judgeDebug (w : Wr) : Verdict :=
  let b := w.d.b
  if w.inst < 1024 then
    let st := b.regAccess w.inst
    let data := decide (w.off = FDebug.regData.word)
    let bench := w.bits FDebug.halt == 1 || w.bits FDebug.step == 1 || w.bits FDebug.reset == 1
    ⟨!((bench && !b.inBench) || (data && st == stNotInMode)), true, data && st == stBusy⟩
  else Verdict.fine

/-- The verdict on a word, by class. -/
def Wr.judge (w : Wr) : Verdict :=
  match w.cls with
  | 3 => w.judgePort
  | 4 => w.judgeIntake
  | 5 => w.judgeStage
  | 7 => w.judgeQueue
  | 8 => w.judgeFurrow
  | 11 => w.judgeThread
  | 13 => if w.inst < 0x10000 then w.judgeOutfall else Verdict.fine
  | 14 => w.judgeTable
  | 16 => w.judgePrefix
  | 17 => w.judgeBasin
  | 18 => w.judgePool
  | 19 => if 0x10000 ≤ w.inst then w.judgeRegion else Verdict.fine
  | 20 => w.judgeDram
  | 21 => w.judgeLock
  | 22 => w.judgeIrq
  | 23 => w.judgeTent
  | 24 => w.judgeEgress
  | 25 => w.judgeRedund
  | 27 => w.judgeSensor
  | 28 => w.judgePower
  | 30 => w.judgeDebug
  | _ => Verdict.fine

/-- The status with which the checks of a word end. -/
def Wr.check (w : Wr) : Nat := w.judge.status w.inRange

end Sys2Proof.Machine
end

