-- ==== Sys2Proof/Machine/WriteActs.lean ====
section
/-! DEFINITION. What a word that passes its checks writes: RW fields, W1C bits, and the actions of WO fields
(Table 0.4 and the field rules of every chapter). -/

namespace Sys2Proof.Machine

/-- The RW fields that the word writes take their values, but for those that `skip` names. A field of several words takes
at once the value that the whole access leaves (R416). -/
def Wr.setFields (w : Wr) (skip : Fld → Bool) : Body :=
  w.fields.foldl (fun (x : Body) f => if w.hit f && !skip f then x.fset w.cls w.inst f (w.leaves f) else x) w.d.b

def Wr.setAll (w : Wr) : Body := w.setFields (fun _ => false)

/-- Each 1 clears its bit of a W1C field. -/
def Wr.clearBits (w : Wr) (b : Body) : Body :=
  w.fields.foldl (fun (x : Body) f =>
    if w.acc f == .w1c then
      let v := x.fget w.cls w.inst f
      x.fset w.cls w.inst f (v - (v &&& w.bits f))
    else x) b

/-- Whether the word writes 1 to a WO bit. -/
def Wr.does (w : Wr) (f : Fld) : Bool := w.acc f == .wo && w.bits f == 1

/-- An action that cannot fail. -/
def Wr.acts (w : Wr) (f : Fld) (g : Body → Body) (b : Body) : Body := when (w.does f) g b

/-- An action with a status, which stops what follows it. -/
def Wr.tries (w : Wr) (f : Fld) (g : Body → Nat × Body) (r : Nat × Body) : Nat × Body :=
  if r.1 = stOk ∧ w.does f then g r.2 else r

/-- DEVICE: SENDER_k, CLEAR and KICK (Tables 16.8, 16.9). -/
def Wr.actDevice (w : Wr) : Body :=
  let i := w.inst
  let b := w.setAll
  if i = 0 then b
  else if i ≤ 4 then w.acts FBiv.kick (fun x => x.kick w.d.tm (i - 1)) b
  else
    let k := i - 0x100
    let b1 := (List.range 4).foldl (fun (x : Body) n =>
      if w.hit (FKey.sender n) then x.fset clsDevice i FKey.seen (setBits (x.fget clsDevice i FKey.seen) n 1 0) else x) b
    w.acts FKey.clear (fun x =>
      let y := { (x.fset clsDevice i FKey.valid 0).fset clsDevice i FKey.seen 0 with adm.keys := mapDel k x.adm.keys }
      if k = 0xFF then y.fset clsDevice 0 FDevice.bivKeyValid 0 else y) b1

/-- PORT: a MODE write sets the mode of the group (R57); ADMIN_UP brings a port down (R60); MOD_POWER_MAX (R67). -/
def Wr.actPort (w : Wr) : Body :=
  let p := w.inst
  let group := if p = 64 then [64] else groupPorts (p / 4)
  let b := w.setFields (fun f => decide (f = FPort.mode))
  let b1 := if w.hit FPort.mode then
      group.foldl (fun (x : Body) q => (x.fset clsPort q FPort.mode (w.next FPort.mode)).linkDown q) b
    else b
  let b2 := if w.hit FPort.modPowerMax ∧ p < 64 ∧ p % 4 = 0 then b1.modulePower (p / 4) else b1
  if w.hit FPort.adminUp then (if w.next FPort.adminUp = 0 then b2.linkDown p else b2.linkLevel p) else b2

/-- INTAKE: action words keep the bits that their OP names; SWAP (R99, R110). -/
def Wr.actIntake (w : Wr) : Nat × Body :=
  let b := w.setAll
  if 0x1000 ≤ w.inst ∧ w.inst < 0x3000 then
    let f := actionWord (w.off / 2)
    let v := b.fget clsIntake w.inst f
    (stOk, b.fset clsIntake w.inst f (v &&& actionMask (v % 16)))
  else if w.inst = 0 then w.tries FIntake.swap (fun x => x.epochSwap) (stOk, b)
  else (stOk, b)

/-- QUEUE (R126, R127, Table 5.9): a WEIR_LEVEL that falls below DEPTH sets OVER_SHARE (R123), a binding that only a
fallback serves is counted (R134). -/
def Wr.actQueue (w : Wr) : Body :=
  let q := w.inst
  let b := (w.acts FQueue.hwReset (fun x => x.fset clsQueue q FQueue.highWater (x.depth q)) w.setAll)
  let b1 := if w.bits FQueue.flags = 0 then b else b.clearFlags q (w.bits FQueue.flags)
  let b2 := if w.bits FQueue.flagSet = 0 then b1 else b1.setFlags q (w.bits FQueue.flagSet)
  let b3 := (b2.syncReady q).checkOver q (w.d.b.weir q)
  if w.hits [FQueue.cluster, FQueue.group] then b3.syncFallbacks else b3

/-- FURROW: REL_SEQ follows NEXT_SEQ (Table 9.6). -/
def Wr.actFurrow (w : Wr) : Body :=
  if w.hit FFurrow.nextSeq then w.setAll.fset clsOutfall (outFur w.inst) FOutFur.relSeq (w.next FFurrow.nextSeq)
  else w.setAll

/-- The tent whose authority a request has. -/
def authTent : Auth → Option Nat
  | .biv => none
  | .host t => some t

/-- TABLE and PREFIX: ENABLE (R286) and CMD_ISSUE (R287). -/
def Wr.actTable (w : Wr) : Nat × Body :=
  let b := w.setFields (fun f => decide (f = FTable.enable))
  let r := if w.hit FTable.enable then b.tableEnable (decide (w.cls = clsPrefix)) w.inst (w.next FTable.enable == 1)
    else (stOk, b)
  if w.cls = clsTable then
    w.tries FTable.cmdIssue (fun x =>
      (stOk, (x.fset clsTable w.inst FTable.cmdBusy 1).askTable (.window w.inst) (authTent w.au)
        (x.fget clsTable w.inst FTable.cmdBlock))) r
  else r

/-- BASIN slots: CFG_INDEX, FORCE and UNFORCE enter the input queue (R292, R300). Room that a larger spill gives goes to
the operations that wait (R295). -/
def Wr.actBasin (w : Wr) : Nat × Body :=
  let b := w.setFields (fun f => decide (f = FSlot.cfgIndex ∧ 0x100000 ≤ w.inst))
  if 0x100000 ≤ w.inst then
    let a := w.inst - 0x100000
    let r := if w.hit FSlot.cfgIndex then b.basinObject a (.cfg (w.next FSlot.cfgIndex)) else (stOk, b)
    w.tries FForce.unforce (fun x => x.basinObject a .unforce)
      (w.tries FForce.force (fun x => x.basinObject a (x.forceOp w.d.tm a)) r)
  else (stOk, if w.inst = 0 ∧ w.hit FBasin.spillMib then b.basinAdmit else b)

/-- POOL: LOW_WATER follows a count, or is reset (Table 12.8). -/
def Wr.actPool (w : Wr) : Body :=
  let p := w.inst
  if p < 8 then
    w.acts FPool.lwReset (fun x => x.fset clsPool p FPool.lowWater (x.freeOnchip p + x.freeDram p)) (w.setAll.noteLowWater p)
  else w.setAll

/-- DRAM: THAW (R347), whose retry succeeds (assumption log 52). -/
def Wr.actDram (w : Wr) : Nat × Body :=
  if 1 ≤ w.inst ∧ w.inst ≤ 8 then
    w.tries FChan.thaw (fun x => x.thaw w.d.tm (w.inst - 1) none) (stOk, w.setAll)
  else (stOk, w.setAll)

/-- LOCK: ABANDONED, MAX and the windows (R360, R372, Table 14.6). -/
def Wr.actLock (w : Wr) : Nat × Body :=
  let i := w.inst
  let b := w.clearBits w.setAll
  if i < 0x4000 then (stOk, b)
  else if i < 0x10000 then
    (stOk, if w.hit FSem.maxF then b.fset clsLock i FSem.count (w.next FSem.maxF - (b.sem (i - 0x4000)).held) else b)
  else
    let win : Win := if i < 0x20000 then .tent (i - 0x10000) else .biv (i - 0x20000)
    w.tries FWindow.reqCancel (fun x => (stOk, x.winCancel win))
      (w.tries FWindow.reqIssue (fun x => x.winIssue w.d.tm win) (stOk, b))

/-- IRQ: RING and COMPLETE (R363, R368). -/
def Wr.actIrq (w : Wr) : Body :=
  let s := w.inst
  if s < 4096 then
    w.acts FIrq.complete (fun x => x.hostComplete w.au s) (w.acts FIrq.ring (fun x => x.ringWrite s) w.setAll)
  else w.setAll

/-- TENT: the operations of a tent (R387 to R392), and REPITCH (R393). -/
def Wr.actTent (w : Wr) : Nat × Body :=
  let t := w.inst
  let b := w.setAll
  if t < 64 then
    w.tries FTent.hostReset (fun x => x.tentHostReset t)
      (w.tries FTent.restore (fun x => x.tentRestore t)
        (w.tries FTent.save (fun x => x.tentSave w.d.tm t)
          (w.tries FTent.unfreeze (fun x => x.tentUnfreeze t)
            (w.tries FTent.freeze (fun x => x.tentFreeze t)
              (w.tries FTent.strike (fun x => x.tentStrike t)
                (w.tries FTent.pitch (fun x => x.tentPitch t) (stOk, b)))))))
  else if t = 0x100 then w.tries FTents.repitch (fun x => x.repitchWrite) (stOk, b)
  else (stOk, b)

/-- CLOCK: REF_MONITOR_EN (R430). -/
def Wr.actClock (w : Wr) : Body :=
  if w.inst = 0 ∧ w.hit FClock.refMonitorEn then
    (w.setFields (fun f => decide (f = FClock.refMonitorEn))).setMonitor (w.next FClock.refMonitorEn)
  else w.setAll

/-- DEBUG: REG_DATA, and HALT, RESUME, STEP and RESET in the order of their bits (R166, R167). -/
def Wr.actDebug (w : Wr) : Nat × Body :=
  let h := w.inst
  if h < 1024 then
    let b := w.setFields (fun f => decide (f = FDebug.regData))
    let b1 := if w.hit FDebug.regData then
        b.modHart h (fun x => x.setSelected (b.fget clsDebug h FDebug.regSel) (w.next FDebug.regData))
      else b
    w.tries FDebug.reset (fun x => x.debugReset w.d.tm h)
      (w.tries FDebug.step (fun x => x.debugStep h)
        (w.tries FDebug.resume (fun x => x.debugResume h)
          (w.tries FDebug.halt (fun x => x.debugHalt h) (stOk, b1))))
  else (stOk, w.setAll)

/-- MEMREGION: a region's write applies from the next cycle (R325). -/
def Wr.actRegion (w : Wr) : Body :=
  if 0x10000 ≤ w.inst then Wr.setAll { w with d := { w.d with b := w.d.b.keepRegion w.inst } } else w.setAll

/-- What a word writes, by class. -/
def Wr.act (w : Wr) : Nat × Body :=
  match w.cls with
  | 1 => (stOk, w.actDevice)
  | 3 => (stOk, w.actPort)
  | 4 => w.actIntake
  | 7 => (stOk, w.actQueue)
  | 8 => (stOk, w.actFurrow)
  | 9 => (stOk, when w.hitAny Body.syncFallbacks (w.clearBits w.setAll))
  | 14 | 16 => w.actTable
  | 17 => w.actBasin
  | 18 => (stOk, w.actPool)
  | 19 => (stOk, w.actRegion)
  | 20 => w.actDram
  | 21 => w.actLock
  | 22 => (stOk, w.actIrq)
  | 23 => w.actTent
  | 24 => (stOk, w.acts FEgress.swap (fun x => x.fset clsEgress w.inst FEgress.swapPending 1) w.setAll)
  | 25 => (stOk, if FRedund.function.inWordOf w.off then w.setAll.resetRecov w.inst else w.setAll)
  | 26 => (stOk, w.actClock)
  | 28 => (stOk, w.acts FPower.fwReady (fun x => x.fwReady w.d.tm) w.setAll)
  | 30 => w.actDebug
  | _ => (stOk, w.setAll)

end Sys2Proof.Machine
end

