-- ==== Sys2Proof/Machine/Objects.lean ====
section
/-! DEFINITION. Object accesses: words read and written as one access, and the time base's object
(spec/00, R7 to R12; spec/02, R32 to R43; spec/16, R416, R417). -/

namespace Sys2Proof.Machine

/-! TICK[0] (R33). -/

/-- The fields whose low word is held. -/
def wideTick : List Fld := [FTick.rate, FTick.anchor, FTick.step, FTick.ppsOutNext]

/-- The whole value that a write of a high word makes: the held low word, or the field's current one. -/
def Time.joined (t : Time) (f : Fld) (high : Nat) : Nat :=
  let low := match t.held with
    | some (lo, x) => if lo = f.lo then x else (t.field f).getD 0 % 2 ^ 32
    | none => (t.field f).getD 0 % 2 ^ 32
  low + high * 2 ^ 32 % 2 ^ f.width

/-- A wide field takes its whole value. -/
def Time.writeWide (t : Time) (code : Nat) (f : Fld) (v : Nat) : Nat × Time :=
  if f = FTick.rate then t.writeRate v
  else if f = FTick.step then t.writeStep code v
  else if f = FTick.ppsOutNext then (stOk, t.writePpsNext v)
  else (stOk, { t with anchor := v % 2 ^ 64 })

/-- A write of PPS_OUT_PERIOD or PPS_OUT_WIDTH that leaves the width as long as the period. -/
def Wr.badPulse (w : Wr) : Bool :=
  w.hits [FTick.ppsOutPeriod, FTick.ppsOutWidth] &&
    decide (w.leaves FTick.ppsOutPeriod ≤ w.leaves FTick.ppsOutWidth)

/-- A field of the time base takes its value where the word writes it. -/
def Wr.put (w : Wr) (f : Fld) (g : Time → Nat → Time) (t : Time) : Time := if w.hit f then g t (w.next f) else t

/-- The narrow fields of TICK[0] that only take values. -/
def Wr.putNarrow (w : Wr) (t : Time) : Time :=
  let t1 := w.put FTick.era (fun x v => { x with era := v }) t
  let t2 := w.put FTick.slewPpm (fun x v => { x with slewPpm := v }) t1
  let t3 := w.put FTick.syncState (fun x v => { x with syncState := v }) t2
  let t4 := w.put FTick.ppsOutPeriod (fun x v => { x with ppsOutPeriod := v }) t3
  let t5 := w.put FTick.ppsOutWidth (fun x v => { x with ppsOutWidth := v }) t4
  let t6 := w.put FTick.ppsOutEn (fun x v => x.writePpsEn v) t5
  let t7 := w.put FTick.ppsInEn (fun x v => { x with ppsInEn := v }) t6
  w.put FTick.anchorTick (fun x v => { x with anchorTick := v }) t7

/-- The narrow fields of TICK[0]. -/
def Wr.writeNarrow (w : Wr) : Nat × Time :=
  if w.does FTick.arm then w.d.tm.writeArm w.d.b.modeCode
  else if !w.inRange || w.badPulse then (stOutOfRange, w.d.tm)
  else if FTick.slew.inWordOf w.off then w.d.tm.writeSlew w.word
  else if w.hit FTick.periodNext then w.d.tm.writePeriodNext w.word
  else if w.hit FTick.applyTick then w.d.tm.writeApplyTick w.word
  else (stOk, w.putNarrow w.d.tm)

/-- The time base forgets a held low word. -/
def Time.unhold (t : Time) : Time := { t with held := none }

/-- A word of TICK[0]. -/
def Wr.writeTick (w : Wr) : Nat × Time :=
  match wideTick.find? (fun f => f.inWordOf w.off) with
  | some f =>
    if w.off = f.word then (stOk, { w.d.tm with held := some (f.lo, w.word) })
    else let r := w.d.tm.writeWide w.d.b.modeCode f (w.d.tm.joined f w.word); (r.1, r.2.unhold)
  | none => let r := w.writeNarrow; (r.1, r.2.unhold)

/-! Words. -/

/-- Whether an instance is the time base's. -/
def isTick (cls inst : Nat) : Bool := cls == clsTick && inst == 0

/-- A word is judged and written. -/
def Wr.write (w : Wr) : Nat × Dev :=
  if isTick w.cls w.inst then let r := w.writeTick; (r.1, { w.d with tm := r.2 })
  else if w.check ≠ stOk then (w.check, w.d)
  else let r := w.act; (r.1, { w.d with b := r.2 })

/-- The words of an access with their offsets. -/
def wordsAt (off : Nat) (ws : List Nat) : List (Nat × Nat) := ws.zipIdx.map (fun e => (off + e.2, e.1))

/-- Words written in ascending offset, each after the ones before it: the status, the index of the word that fails (the
first one beyond the object among them, R416), and the device. -/
def Dev.writeWords (au : Auth) (cls inst : Nat) : Nat → Nat → List Nat → Dev → Nat × Nat × Dev
  | _, _, [], d => (stOk, 0xFFFF, d)
  | off, i, x :: r, d =>
    let y := if lastWord cls inst < off then (stOutOfRange, d)
      else (Wr.mk d au cls inst off x (wordsAt (off + 1) r)).write
    if y.1 = stOk then Dev.writeWords au cls inst (off + 1) (i + 1) r y.2 else (y.1, i, y.2)

/-- The 1s of a word in bits of no field (Table 0.4, RS). -/
def reservedOnes (cls inst off x : Nat) : Nat :=
  let fs := fieldsOfWord cls inst off
  (List.range 32).countP (fun k => x.testBit k && !fs.any (fun f => decide (f.lo ≤ 32 * off + k ∧ 32 * off + k < f.lo + f.width)))

/-- RESERVED_WRITES counts the reserved 1s of an access to an instance that exists, whatever its status (R12). -/
def Body.countReserved (b : Body) (cls inst off : Nat) (ws : List Nat) : Body :=
  let here := (wordsAt off ws).filter (fun e => decide (e.1 ≤ lastWord cls inst))
  let n := (here.map (fun e => reservedOnes cls inst e.1 e.2)).sum
  if instExists b.nLogN cls inst = false ∨ n = 0 then b else b.bumpSat clsDevice 0 FDevice.reservedWrites n

/-- Whether every field of every word is RO, or RS (Table 0.4). -/
def Body.readOnly (b : Body) (au : Auth) (cls inst off n : Nat) : Bool :=
  (List.range n).all (fun k => (fieldsOfWord cls inst (off + k)).all (fun f => b.accessOf au cls inst f == .ro))

/-! Accesses. -/

/-- Whether an access is one that meets no answer, and the device once it is withdrawn (R433). -/
def Dev.withdrawn (d : Dev) : Dev := { d with b.adm.unanswered := false }

/-- Words written as one access (R416): the status, INDEX and the device. A failed access writes nothing; what stays is
the count of R12, and that a failed write of TICK[0] discards a held low word. -/
def Dev.objWrite (d : Dev) (au : Auth) (cls inst off : Nat) (ws : List Nat) : Nat × Nat × Dev :=
  let d0 := { d with b := d.b.countReserved cls inst off ws }
  if d.b.adm.unanswered then (stBusy, 0, d0.withdrawn)
  else if instExists d.b.nLogN cls inst && d.b.reaches au cls inst true then
    if off + ws.length - 1 ≤ lastWord cls inst ∧ d.b.readOnly au cls inst off ws.length then (stReadOnly, 0, d0)
    else
      let r := Dev.writeWords au cls inst off 0 ws d0
      if r.1 = stOk then r else (r.1, r.2.1, if isTick cls inst then { d0 with tm := d0.tm.unhold } else d0)
  else (stNoSuchObject, 0, d0)

/-- Words read in ascending offset. -/
def Dev.readWords (cls inst : Nat) : Nat → Nat → Dev → List Nat × Dev
  | 0, _, d => ([], d)
  | n + 1, off, d =>
    let r := d.readWord cls inst off
    let rest := Dev.readWords cls inst n (off + 1) r.2
    (r.1 :: rest.1, rest.2)

/-- Words read as one access: the status, the words and the device. -/
def Dev.objRead (d : Dev) (au : Auth) (cls inst off n : Nat) : Nat × List Nat × Dev :=
  if d.b.adm.unanswered then (stBusy, [], d.withdrawn)
  else if instExists d.b.nLogN cls inst && d.b.reaches au cls inst false then
    if lastWord cls inst < off + n - 1 then (stOutOfRange, [], d)
    else
      match ((List.range n).map (fun k => d.b.readCheck cls inst (off + k))).find? (fun st => st != stOk) with
      | some st => (st, [], d)
      | none => let r := Dev.readWords cls inst n off d; (stOk, r.1, r.2)
  else (stNoSuchObject, [], d)

/-- The word that OBJ_MODIFY makes of an old one (R417). -/
def modified (old mask value : Nat) : Nat := (old - (old &&& mask)) ||| (value &&& mask)

/-- A word modified (R417): the status, the old word and the device. -/
def Dev.objModify (d : Dev) (au : Auth) (cls inst off mask value : Nat) : Nat × Nat × Dev :=
  let old := d.peek cls inst off
  let r := d.objWrite au cls inst off [modified old mask value]
  (r.1, if r.1 = stOk then old else 0, r.2.2)

/-- The word in which a field takes a value and every other RW field keeps its own. -/
def Dev.wordWith (d : Dev) (cls inst off : Nat) (f : Fld) (v : Nat) : Nat :=
  ((fieldsOfWord cls inst off).map (fun g =>
    if g = f then g.inWord off v else if g.acc = .rw then g.inWord off (d.view cls inst g) else 0)).sum

/-- A write of one field alone. -/
def Dev.fieldWrite (d : Dev) (au : Auth) (cls inst : Nat) (f : Fld) (v : Nat) : Nat × Nat × Dev :=
  let n := (f.lo + f.width - 1) / 32 + 1 - f.word
  d.objWrite au cls inst f.word ((List.range n).map (fun k => d.wordWith cls inst (f.word + k) f v))

end Sys2Proof.Machine
end

