-- ==== Sys2Proof/Machine/Loads.lean ====
section
/-! DEFINITION. Loads, stores, staged writes and atomics (spec/07, R187 to R195). -/

namespace Sys2Proof.Machine

/-- A load of `n` bytes, extended to a word (R188). -/
def loadInsn (h : Nat) (f : FmtM) (major n : Nat) (sx : Bool) (s : State) : Host.Outcome State Fault Refusal :=
  insn h (wordM major f) (badWord false (indexReserved f))
    (fun _ b =>
      let e := (b.hart h).ea f
      let a := e.1.toNat
      if a % n ≠ 0 then .trap trAlign a
      else match b.place h a n true false with
        | none => .trap trRegion a
        | some p =>
          if b.placeHeld p n then .wait .none
          else
            let v := b.loadAt h p n
            let w : Word := if sx then BitVec.ofInt 32 (signedOf (8 * n) v.1) else BitVec.ofNat 32 v.1
            .done ((v.2.writeBack h f e.2).setReg h f.rt w) p.cycles (b.nextPc h)) s

/-- A store of the low `n` bytes of rt (R188); rt is read before the write-back (R187). -/
def storeInsn (h : Nat) (f : FmtM) (major n : Nat) (s : State) : Host.Outcome State Fault Refusal :=
  insnBuf h (wordM major f) (badWord false (indexReserved f))
    (fun _ b =>
      let e := (b.hart h).ea f
      let a := e.1.toNat
      if a % n ≠ 0 then .trap trAlign a
      else match b.place h a n false true with
        | none => .trap trRegion a
        | some p =>
          if b.placeHeld p n then .wait .none
          else .done ((b.storeAt h p n (b.reg h f.rt).toNat).writeBack h f e.2) p.cycles (b.nextPc h)) s

/-- LDB (R188). -/
def execLdb (h : Nat) (f : FmtM) (s : State) : Host.Outcome State Fault Refusal := loadInsn h f 0x18 1 true s
/-- LDBU (R188). -/
def execLdbu (h : Nat) (f : FmtM) (s : State) : Host.Outcome State Fault Refusal := loadInsn h f 0x19 1 false s
/-- LDH (R188). -/
def execLdh (h : Nat) (f : FmtM) (s : State) : Host.Outcome State Fault Refusal := loadInsn h f 0x1A 2 true s
/-- LDHU (R188). -/
def execLdhu (h : Nat) (f : FmtM) (s : State) : Host.Outcome State Fault Refusal := loadInsn h f 0x1B 2 false s
/-- LDW (R188). -/
def execLdw (h : Nat) (f : FmtM) (s : State) : Host.Outcome State Fault Refusal := loadInsn h f 0x1C 4 false s
/-- STB (R188). -/
def execStb (h : Nat) (f : FmtM) (s : State) : Host.Outcome State Fault Refusal := storeInsn h f 0x1D 1 s
/-- STH (R188). -/
def execSth (h : Nat) (f : FmtM) (s : State) : Host.Outcome State Fault Refusal := storeInsn h f 0x1E 2 s
/-- STW (R188). -/
def execStw (h : Nat) (f : FmtM) (s : State) : Host.Outcome State Fault Refusal := storeInsn h f 0x1F 4 s

/-! Staged writes (R190). -/

/-- The address checks of R190: ALIGN, then the scratchpad and the region registers. -/
def Body.scratchTrap (b : Body) (h a : Nat) (r w : Bool) : Option (Nat × Nat) :=
  if a % 4 ≠ 0 then some (trAlign, a)
  else match b.place h a 4 r w with
    | some (.scratch _) => none
    | _ => some (trRegion, a)

/-- An entry joins the staged-write buffer of 16, or LF is set (R190, R199). A Bivouac core has no item to stage for
(assumption log 24). -/
def Body.stageWrite (b : Body) (h : Nat) (e : Staged) : Body :=
  match (b.hart h).item with
  | some it =>
    if 16 ≤ it.staged.length then b.setLf h
    else b.modHart h (fun x => { x with item := some { it with staged := it.staged ++ [e] } })
  | none => b

def stagedInsn (h : Nat) (f : FmtM) (major : Nat) (mk : Nat → Word → Staged) (s : State) :
    Host.Outcome State Fault Refusal :=
  insn h (wordM major f) (badWord false (indexReserved f))
    (fun _ b =>
      let e := (b.hart h).ea f
      let a := e.1.toNat
      match b.scratchTrap h a false true with
      | some t => .trap t.1 t.2
      | none => .done ((b.stageWrite h (mk a (b.reg h f.rt))).writeBack h f e.2) 1 (b.nextPc h)) s

/-- SSTW (R190). -/
def execSstw (h : Nat) (f : FmtM) (s : State) : Host.Outcome State Fault Refusal := stagedInsn h f 0x20 .store s
/-- SSADD (R190). -/
def execSsadd (h : Nat) (f : FmtM) (s : State) : Host.Outcome State Fault Refusal := stagedInsn h f 0x21 .add s

/-! Atomics (R194). -/

/-- An atomic on the scratchpad word at a_val: `op` of the old value gives the new one. -/
def atomInsn (h : Nat) (f : FmtA) (minor : Nat) (op : Word → Word → Word → Word) (s : State) :
    Host.Outcome State Fault Refusal :=
  insn h (wordA 0x22 minor f) (badWord false (f.rsv != 0))
    (fun _ b =>
      let a := (b.reg h f.ra).toNat
      match b.scratchTrap h a true true with
      | some t => .trap t.1 t.2
      | none =>
        let old : Word := BitVec.ofNat 32 (b.loadAt h (.scratch a) 4).1
        let b1 := b.storeAt h (.scratch a) 4 (op old (b.reg h f.rb) (b.reg h f.rd)).toNat
        let b2 := if minor = 2 then b1.setFl h (fun fl => { fl with z := decide (old = b.reg h f.rd) }) else b1
        .done (b2.setReg h f.rd old) 8 (b.nextPc h)) s

/-- ATOM FADD (R194). -/
def execAtomFadd (h : Nat) (f : FmtA) (s : State) : Host.Outcome State Fault Refusal :=
  atomInsn h f 0 (fun old v _ => old + v) s
/-- ATOM SWAP (R194). -/
def execAtomSwap (h : Nat) (f : FmtA) (s : State) : Host.Outcome State Fault Refusal :=
  atomInsn h f 1 (fun _ v _ => v) s
/-- ATOM CAS (R194): the only atomic that changes a flag. -/
def execAtomCas (h : Nat) (f : FmtA) (s : State) : Host.Outcome State Fault Refusal :=
  atomInsn h f 2 (fun old v cmp => if old = cmp then v else old) s

end Sys2Proof.Machine
end

