-- ==== Sys2Proof/Machine/Chan.lean ====
section
/-! DEFINITION. Channels, WAIT, Basin atomics, requests, lock instructions (spec/07, R195 to R199; spec/06, R153 to
R159; spec/14, R351 to R357). -/

namespace Sys2Proof.Machine

/-! Channels (R155, R156, R196). -/

/-- Whether the binding of software endpoint `ep` of a thread is in force. -/
def Body.bound (b : Body) (h ep : Nat) : Bool := b.fget clsThread h (FThread.chanValid (ep - 8)) == 1

/-- The next word of an endpoint, whether it ends its message, and what remains. -/
def Hart.takeWord (x : Hart) (ep : Nat) : Option (Word × Bool × Hart) :=
  match x.unread ep with
  | (w :: r) :: l =>
    some (w, r.isEmpty, { x with inbox := mapPut ep (if r.isEmpty then l else r :: l) x.inbox })
  | _ => none

/-- CHR (R155, R196): blocks while the endpoint is empty. -/
def execChr (h : Nat) (f : FmtE) (s : State) : Host.Outcome State Fault Refusal :=
  insn h (wordE 0x24 0 f) (badWord false (f.ra != 0 || f.rb != 0 || f.e != 0 || f.rsv != 0))
    (fun _ b =>
      let ep := f.ep.toNat
      if ep = 0 ∨ ep = 6 ∨ ep = 7 ∨ (8 ≤ ep ∧ ¬ b.bound h ep) then .trap trChannel 0
      else match (b.hart h).takeWord ep with
        | none => .wait (.readEp ep)
        | some (w, last, x) =>
          .done (b.setHart h { x.setReg f.rd w with flags := { x.flags with eom := last } }) 1 (b.nextPc h)) s

/-- A completed message (R156): direct delivery, at once where the peer endpoint has room, or one entry of the commit
log, discarded with LF where the log holds 32. A message to a retired thread is lost. A binding that a re-pitch has left
naming a thread of another tent still sends: R158 checks the tent where the binding is written and drops, at the boundary,
the messages committed before it (DESIGN CHOICE; assumption log 152). -/
def Body.sendMessage (b : Body) (h ep : Nat) (ws : List Word) : Body :=
  let k := ep - 8
  let peer := b.fget clsThread h (FThread.chanPeer k)
  let pe := 8 + b.fget clsThread h (FThread.chanPeerEp k)
  if b.fget clsThread h (FThread.chanDelivery k) = 1 then
    if !b.live peer then b
    else if (b.hart peer).wordsIn pe + ws.length ≤ 16 then b.pushMsg peer pe ws
    else b.modHart h (fun x => { x with block := .direct ep peer pe ws })
  else match (b.hart h).item with
    | some it =>
      if 32 ≤ it.log.length then b.setLf h
      else b.modHart h (fun x => { x with item := some { it with log := it.log ++ [.chan ep peer pe ws] } })
    | none => b

/-- CHW (R155, R156, R196): words are staged by endpoint; a ninth word traps and discards them. -/
def execChw (h : Nat) (f : FmtE) (s : State) : Host.Outcome State Fault Refusal :=
  insn h (wordE 0x24 1 f) (badWord false (f.rd != 0 || f.rb != 0 || f.rsv != 0))
    (fun _ b =>
      let ep := f.ep.toNat
      let st := mapGet [] ep (b.hart h).staging
      if ep < 8 ∨ ¬ b.bound h ep then .trap trChannel 0
      else if 8 ≤ st.length then
        .trapAfter (b.modHart h (fun x => { x with staging := mapDel ep x.staging })) trChannel
      else
        let ws := st ++ [b.reg h f.ra]
        if f.e = 0 then .done (b.modHart h (fun x => { x with staging := mapPut ep ws x.staging })) 1 (b.nextPc h)
        else
          let b1 := b.modHart h (fun x => { x with staging := mapDel ep x.staging })
          .done (b1.sendMessage h ep ws) 1 (b.nextPc h)) s

/-- The endpoints of a mask that hold an unread message. -/
def Hart.holding (x : Hart) (mask : Nat) : Nat :=
  ((List.range 16).map (fun e => if mask.testBit e && x.holds e then 2 ^ e else 0)).sum

/-- WAIT (R159, R197). -/
def execWait (h : Nat) (f : FmtB) (s : State) : Host.Outcome State Fault Refusal :=
  insn h (wordB 0x25 f) (badWord false (f.ra != 0))
    (fun _ b =>
      let m := f.imm.toNat
      if m = 0 ∨ m.testBit 0 ∨ m.testBit 6 ∨ m.testBit 7 ∨
          (List.range 8).any (fun k => m.testBit (8 + k) && !b.bound h (8 + k)) then .trap trChannel 0
      else
        let r := (b.hart h).holding m
        if r = 0 then .wait (.waitMask m)
        else .done (b.setReg h f.rd (BitVec.ofNat 32 r)) 1 (b.nextPc h)) s

/-! Requests (R153, R195, R198). -/

/-- A request is noted on its endpoint, with its number. -/
def Body.addReq (b : Body) (h ep : Nat) (k : ReqKind) : Nat × Body :=
  let (n, b1) := b.tick
  (n, b1.modHart h (fun x => { x with reqs := x.reqs ++ [⟨ep, n, k, none⟩] }))

/-- A request is sent at core commit; a fifth one on its endpoint stalls (R153). -/
def Body.request (b : Body) (h ep : Nat) (k : ReqKind) (f : Nat → Body → Body) : Effect :=
  if 4 ≤ (b.hart h).outstanding ep then .wait (.reqFull ep)
  else
    let r := b.addReq h ep k
    .done (f r.1 r.2) 1 (b.nextPc h)

/-- BATOM (R195): the Basin performs it in its turn; the old value returns on endpoint 3. -/
def batomInsn (h : Nat) (f : FmtA) (minor : Nat) (s : State) : Host.Outcome State Fault Refusal :=
  insn h (wordA 0x23 minor f) (badWord false (f.rsv != 0))
    (fun _ b =>
      let a := (b.reg h f.ra).toNat
      b.request h 3 (.batom minor (a % 4) (b.reg h f.rb) (b.reg h f.rd)) (fun n b1 =>
        b1.basinAsk h (b.masterTent h) (a / 4) (.batom h n minor (a % 4) (b.reg h f.rb) (b.reg h f.rd)))) s

/-- BATOM FADD (R195). -/
def execBatomFadd (h : Nat) (f : FmtA) (s : State) : Host.Outcome State Fault Refusal := batomInsn h f 0 s
/-- BATOM SWAP (R195). -/
def execBatomSwap (h : Nat) (f : FmtA) (s : State) : Host.Outcome State Fault Refusal := batomInsn h f 1 s
/-- BATOM CAS (R195): rd gives the compare value. -/
def execBatomCas (h : Nat) (f : FmtA) (s : State) : Host.Outcome State Fault Refusal := batomInsn h f 2 s

/-- FRD (R198, R325): EP + 1 words of the item's frame; above 8 words the field is not allowed (R175). The bytes named need
R in a region of SPACE 0 (assumption log 70). -/
def execFrd (h : Nat) (f : FmtE) (s : State) : Host.Outcome State Fault Refusal :=
  insn h (wordE 0x26 0 f) (badWord false (f.rd != 0 || f.rb != 0 || f.e != 0 || f.rsv != 0 || decide (7 < f.ep.toNat)))
    (fun _ b =>
      let a := (b.reg h f.ra).toNat
      let n := f.ep.toNat + 1
      if !b.regionGrants h 0 a (4 * n) true false then .trap trRegion a
      else b.request h 3 (.frd a n) (fun _ b1 => b1)) s

/-- BRD (R198, R299). -/
def execBrd (h : Nat) (f : FmtE) (s : State) : Host.Outcome State Fault Refusal :=
  insn h (wordE 0x26 1 f) (badWord false (f.rd != 0 || f.rb != 0 || f.ep != 0 || f.e != 0 || f.rsv != 0))
    (fun _ b =>
      let a := (b.reg h f.ra).toNat
      b.request h 3 (.brd a) (fun n b1 => b1.basinAsk h (b.masterTent h) a (.brd h n))) s

/-- A DRD's requests, one for each line, with the words as the latest earlier writes left them (R337); one
beyond the capacity reaches no channel and returns zeros (R336). -/
def Body.drdAsk (b : Body) (h num a n : Nat) : Body :=
  let p := if h < 1024 then 4 else 6
  let l := b.dramBytes a n
  let b1 := b.dramSend p (b.masterTent h) a n false (.thread h num) (atAddr a l)
  if b.dramCapacity ≤ a then
    (b1.dramDone p 0).modHart h (fun x => { x with
      reqs := x.reqs.map (fun q => if q.num = num then { q with reply := some (wordsOf l) } else q) })
  else b1

/-- DRD (R198): a misaligned address traps ALIGN, a denied one REGION; the request goes to the memory controller. -/
def execDrd (h : Nat) (f : FmtE) (s : State) : Host.Outcome State Fault Refusal :=
  insn h (wordE 0x26 2 f) (badWord false (f.rd != 0 || f.e != 0 || f.rsv != 0 || decide (7 < f.ep.toNat)))
    (fun _ b =>
      let a := (b.reg h f.rb).toNat * 2 ^ 32 + (b.reg h f.ra).toNat
      let n := 4 * (f.ep.toNat + 1)
      if a % 4 ≠ 0 then .trap trAlign a
      else if !b.regionGrants h 1 a n true false then .trap trRegion a
      else b.request h 3 (.drd a n) (fun k b1 => b1.drdAsk h k a n)) s

/-- A block of `n` bytes in local memory, aligned to 16 (R198, R201): the trap, or its bytes as a number. -/
def Body.localBlock (b : Body) (h a n : Nat) : (Nat × Nat) ⊕ Nat :=
  if a % 16 ≠ 0 then .inl (trAlign, a)
  else match b.place h a n true false with
    | some (.local x) => .inr (b.loadAt h (.local x) n).1
    | some (.biv x) => .inr (b.loadAt h (.biv x) n).1
    | _ => .inl (trRegion, a)

/-- TREQ (R198, R268): the request block goes to the table engine with the thread's authority, or the Bivouac's. -/
def execTreq (h : Nat) (f : FmtE) (s : State) : Host.Outcome State Fault Refusal :=
  insn h (wordE 0x26 3 f) (badWord false (f.rd != 0 || f.rb != 0 || f.ep != 0 || f.e != 0 || f.rsv != 0))
    (fun _ b =>
      let a := (b.reg h f.ra).toNat
      match b.localBlock h a 32 with
      | .inl t => .trap t.1 t.2
      | .inr block =>
        b.request h 1 (.treq (rqOp block)) (fun n b1 =>
          b1.treqAsk h n a (if h < 1024 then some (b.masterTent h) else none) block)) s

/-! Locks and semaphores (R199, R353, R354, R357). -/

/-- The absolute number that ra names (R351). -/
def Body.lockNum (b : Body) (sem : Bool) (h : Nat) (r : BitVec 5) : Nat := b.lockAbs sem (b.masterTent h) (b.reg h r).toNat

/-- Fields of a LOCK instruction other than ra. -/
def lockReserved (f : FmtE) : Option Nat :=
  badWord false (f.rd != 0 || f.rb != 0 || f.ep != 0 || f.e != 0 || f.rsv != 0)

/-- The priority of a thread's request (R355). -/
def Body.threadPrio (b : Body) (h : Nat) : Nat :=
  match (b.hart h).item with
  | some it => b.fget clsQueue it.queue FQueue.priority
  | none => 0

/-- LKACQ or SEMP: a seventeenth holding traps (R353). -/
def acquireInsn (h : Nat) (f : FmtE) (minor : Nat) (sem : Bool) (s : State) : Host.Outcome State Fault Refusal :=
  insn h (wordE 0x27 minor f) (lockReserved f)
    (fun tm b =>
      let n := b.lockNum sem h f.ra
      if 16 ≤ b.holdings h ∧ ¬ b.holdsEntry h sem n then .trap trChannel 0
      else b.request h 2 (if sem then .sem n else .lock n) (fun _ b1 =>
        if sem then b1.requestSem (b.hartCycle tm h) n (.thread h) none (b.threadPrio h)
        else b1.requestLock tm (b.hartCycle tm h) n (.thread h) none (b.threadPrio h))) s

/-- LKREL or SEMV: performed at core commit (R357 to R359). -/
def releaseInsn (h : Nat) (f : FmtE) (minor : Nat) (sem : Bool) (s : State) : Host.Outcome State Fault Refusal :=
  insn h (wordE 0x27 minor f) (lockReserved f)
    (fun tm b =>
      let n := b.lockNum sem h f.ra
      let c := b.hartCycle tm h
      .done (if sem then (b.releaseSem c n (.thread h)).2 else (b.releaseLock tm c n (b.threadReleasers h)).2) 1
        (b.nextPc h)) s

/-- LKRELC or SEMVC: staged (R199). -/
def deferInsn (h : Nat) (f : FmtE) (minor : Nat) (sem : Bool) (s : State) : Host.Outcome State Fault Refusal :=
  insn h (wordE 0x27 minor f) (lockReserved f)
    (fun _ b =>
      let n := b.lockNum sem h f.ra
      .done (b.stageWrite h (if sem then .semRel n else .lockRel n)) 1 (b.nextPc h)) s

/-- LKACQ (R199). -/
def execLkacq (h : Nat) (f : FmtE) (s : State) : Host.Outcome State Fault Refusal := acquireInsn h f 0 false s
/-- LKREL (R199). -/
def execLkrel (h : Nat) (f : FmtE) (s : State) : Host.Outcome State Fault Refusal := releaseInsn h f 1 false s
/-- LKRELC (R199). -/
def execLkrelc (h : Nat) (f : FmtE) (s : State) : Host.Outcome State Fault Refusal := deferInsn h f 2 false s
/-- SEMP (R199). -/
def execSemp (h : Nat) (f : FmtE) (s : State) : Host.Outcome State Fault Refusal := acquireInsn h f 3 true s
/-- SEMV (R199). -/
def execSemv (h : Nat) (f : FmtE) (s : State) : Host.Outcome State Fault Refusal := releaseInsn h f 4 true s
/-- SEMVC (R199). -/
def execSemvc (h : Nat) (f : FmtE) (s : State) : Host.Outcome State Fault Refusal := deferInsn h f 5 true s

end Sys2Proof.Machine
end

