-- ==== Sys2Proof/Machine/Tasks.lean ====
section
/-! DEFINITION. Commit-log entries, task flags, timers and system instructions (spec/07, R201 to R207; spec/06, R161). -/

namespace Sys2Proof.Machine

/-- STG (R201): the body is copied into the commit log of 32 entries, or LF is set. A Bivouac core has no item to stage
for (assumption log 24). -/
def execStg (h : Nat) (f : FmtB) (s : State) : Host.Outcome State Fault Refusal :=
  let k := f.imm.toNat % 8
  insn h (wordB 0x28 f) (badWord (decide (4 < k)) (f.rd != 0 || decide (f.imm.toNat / 8 ≠ 0)))
    (fun _ b =>
      match b.localBlock h (b.reg h f.ra).toNat 16 with
      | .inl t => .trap t.1 t.2
      | .inr body =>
        match (b.hart h).item with
        | some it =>
          .done (if 32 ≤ it.log.length then b.setLf h
            else b.modHart h (fun x => { x with item := some { it with log := it.log ++ [.stg k body] } })) 1 (b.nextPc h)
        | none => .done b 1 (b.nextPc h)) s

/-- Whether a queue lies in the tent of a hart (R203, R204). -/
def Body.ownQueue (b : Body) (h q : Nat) : Bool := decide (q < 1048576) && queueTent b.nLogN q == b.masterTent h

/-- TFSET or TFCLR: `f` of the queue in a_val (R203). -/
def flagInsn (h : Nat) (f : FmtB) (major : Nat) (bad : Option Nat) (g : Body → Nat → Body) (s : State) :
    Host.Outcome State Fault Refusal :=
  insn h (wordB major f) bad
    (fun _ b =>
      let q := (b.reg h f.ra).toNat
      if b.ownQueue h q then .done (g b q) 1 (b.nextPc h) else .trap trRegion q) s

/-- TFSET (R203): bits 7:0 of IMM16 are reserved. -/
def execTfset (h : Nat) (f : FmtB) (s : State) : Host.Outcome State Fault Refusal :=
  flagInsn h f 0x29 (badWord false (f.rd != 0 || decide (f.imm.toNat % 256 ≠ 0))) (fun b q => b.setFlags q f.imm.toNat) s

/-- TFCLR (R203): bit 0 of IMM16 is reserved. -/
def execTfclr (h : Nat) (f : FmtB) (s : State) : Host.Outcome State Fault Refusal :=
  flagInsn h f 0x2A (badWord false (f.rd != 0 || f.imm.getLsbD 0)) (fun b q => b.clearFlags q f.imm.toNat) s

/-- Fields of a TIMER instruction other than ra and rb. -/
def timerReserved (f : FmtE) : Option Nat := badWord false (f.rd != 0 || f.ep != 0 || f.e != 0 || f.rsv != 0)

/-- The time a delay in ns after now; `none` for a delay of 0, which cancels (R204). -/
def armAt {α : Type} (tm : Time) (delay : Word) (x : α) : Option (Nat × α) :=
  if delay = 0 then none else some ((tm.now + delay.toNat * 2 ^ 16) % 2 ^ 64, x)

/-- TARM (R204). -/
def execTarm (h : Nat) (f : FmtE) (s : State) : Host.Outcome State Fault Refusal :=
  insn h (wordE 0x2B 0 f) (timerReserved f)
    (fun tm b =>
      .done (b.modHart h (fun x => { x with timer := armAt tm (b.reg h f.ra) (b.reg h f.rb) })) 1 (b.nextPc h)) s

/-- QARM (R204). -/
def execQarm (h : Nat) (f : FmtE) (s : State) : Host.Outcome State Fault Refusal :=
  insn h (wordE 0x2B 1 f) (timerReserved f)
    (fun tm b =>
      let q := (b.reg h f.rb).toNat
      if b.ownQueue h q then
        .done (b.modHart h (fun x => { x with taskTimer := armAt tm (b.reg h f.ra) q })) 1 (b.nextPc h)
      else .trap trRegion q) s

/-! System instructions (Table 7.10). -/

/-- The reserved fields of a SYS or PRIV row, by the fields that it names. -/
def sysReserved (f : FmtE) (rd ra rb e : Bool) : Bool :=
  (!rd && f.rd != 0) || (!ra && f.ra != 0) || (!rb && f.rb != 0) || f.ep != 0 || (!e && f.e != 0) || f.rsv != 0

/-- NOP. -/
def execNop (h : Nat) (f : FmtE) (s : State) : Host.Outcome State Fault Refusal :=
  insn h (wordE 0x3F 0 f) (badWord false (sysReserved f false false false false)) (fun _ b => .done b 1 (b.nextPc h)) s

/-- The end of an item by COMMIT or DIVERT; a Bivouac core holds none (assumption log 24), and leaves its handler
(R206). -/
def Body.endBy (b : Body) (tm : Time) (h : Nat) (divert : Bool) : Effect :=
  if h < 1024 then .done ((b.chargeCycles h 1).endItem tm h divert) 0 (b.nextPc h)
  else .done (b.modHart h (fun x => { x with inTrap := false })) 1 (b.nextPc h)

/-- COMMIT (R200, R205, R206). -/
def execCommit (h : Nat) (f : FmtE) (s : State) : Host.Outcome State Fault Refusal :=
  insnBuf h (wordE 0x3F 1 f) (badWord false (sysReserved f false false false false)) (fun tm b => b.endBy tm h false) s

/-- DIVERT (R200, R205, R206). -/
def execDivert (h : Nat) (f : FmtE) (s : State) : Host.Outcome State Fault Refusal :=
  insnBuf h (wordE 0x3F 2 f) (badWord false (sysReserved f false false false false)) (fun tm b => b.endBy tm h true) s

/-- TRET (R161, R205, R206): undefined with IN_TRAP = 0; in a BUDGET_OVERRUN handler it ends the handler. -/
def execTret (h : Nat) (f : FmtE) (s : State) : Host.Outcome State Fault Refusal :=
  insnBuf h (wordE 0x3F 3 f) none
    (fun tm b =>
      let x := b.hart h
      if !x.inTrap then .trap trReserved 0
      else if sysReserved f false false false true then .trap trField 0
      else if (x.item.map Item.overrun).getD false then b.endBy tm h false
      else .done (b.modHart h (fun y => { y with inTrap := false })) 1 (x.trapPc + 4 * f.e.toNat)) s

/-- BREAK (R168, R205): bits 25:11 are a free code. -/
def execBreak (h : Nat) (f : FmtE) (s : State) : Host.Outcome State Fault Refusal :=
  insn h (wordE 0x3F 4 f) (badWord false (sysReserved f true true true false)) (fun _ _ => .brk) s

/-- MFF. -/
def execMff (h : Nat) (f : FmtE) (s : State) : Host.Outcome State Fault Refusal :=
  insn h (wordE 0x3F 5 f) (badWord false (sysReserved f true false false false))
    (fun _ b => .done (b.setReg h f.rd (BitVec.ofNat 32 (b.hart h).flags.toNat)) 1 (b.nextPc h)) s

/-- MTF: bits 31:7 of a_val are ignored. -/
def execMtf (h : Nat) (f : FmtE) (s : State) : Host.Outcome State Fault Refusal :=
  insn h (wordE 0x3F 6 f) (badWord false (sysReserved f false true false false))
    (fun _ b => .done (b.setFl h (fun _ => Flags.ofNat (b.reg h f.ra).toNat)) 1 (b.nextPc h)) s

/-- RDT: bits 63:32 are latched for the thread. -/
def execRdt (h : Nat) (f : FmtE) (s : State) : Host.Outcome State Fault Refusal :=
  insn h (wordE 0x3F 7 f) (badWord false (sysReserved f true false false false))
    (fun tm b =>
      .done (b.modHart h (fun x => { x.setReg f.rd (BitVec.ofNat 32 tm.now) with rdt := some (tm.now / 2 ^ 32) })) 1
        (b.nextPc h)) s

/-- RDTH: the latched bits 63:32, or the present ones. -/
def execRdth (h : Nat) (f : FmtE) (s : State) : Host.Outcome State Fault Refusal :=
  insn h (wordE 0x3F 8 f) (badWord false (sysReserved f true false false false))
    (fun tm b =>
      .done (b.setReg h f.rd (BitVec.ofNat 32 ((b.hart h).rdt.getD (tm.now / 2 ^ 32)))) 1 (b.nextPc h)) s

/-- RDTICK. -/
def execRdtick (h : Nat) (f : FmtE) (s : State) : Host.Outcome State Fault Refusal :=
  insn h (wordE 0x3F 9 f) (badWord false (sysReserved f true false false false))
    (fun tm b => .done (b.setReg h f.rd (BitVec.ofNat 32 tm.tickNumber)) 1 (b.nextPc h)) s

/-! Privileged instructions (R165, R207). -/

/-- Decode of the PRIV major: PRIVILEGE on a data-plane thread, then the reserved fields. -/
def privBad (h : Nat) (reserved : Bool) : Option Nat := if h < 1024 then some trPrivilege else badWord false reserved

/-- LSTAT: the status of the last ORD or OWR. -/
def execLstat (h : Nat) (f : FmtE) (s : State) : Host.Outcome State Fault Refusal :=
  insn h (wordE 0x3E 2 f) (privBad h (sysReserved f true false false false))
    (fun _ b => .done (b.setReg h f.rd (BitVec.ofNat 32 (b.hart h).status)) 1 (b.nextPc h)) s

/-- What CLAIM does: the claim word goes into rd. -/
def claimEffect (h : Nat) (f : FmtE) (b : Body) : Effect :=
  let r := b.claim (h - 1024)
  .done (r.2.setReg h f.rd (BitVec.ofNat 32 r.1)) 1 (b.nextPc h)

/-- CLAIM (R367), in a cycle after every ring so far (R369). -/
def execClaim (h : Nat) (f : FmtE) (s : State) : Host.Outcome State Fault Refusal :=
  onDev (fun d =>
    let e := if decide (1024 ≤ h) && d.b.mayIssue h then d.pastRings else d
    { e with b := e.b.runInsn e.tm h (wordE 0x3E 3 f) (privBad h (sysReserved f true false false false)) (claimEffect h f) }) s

/-- CPLT (R368). -/
def execCplt (h : Nat) (f : FmtE) (s : State) : Host.Outcome State Fault Refusal :=
  insn h (wordE 0x3E 4 f) (privBad h (sysReserved f false true false false))
    (fun _ b => .done (b.complete (h - 1024) (b.reg h f.ra).toNat) 1 (b.nextPc h)) s

end Sys2Proof.Machine
end

