-- ==== Sys2Proof/Machine/ObjectCmds.lean ====
section
/-! DEFINITION. The commands that access objects: register writes, the writes of single fields, host windows and
apertures, ORD and OWR (spec/00, R10; spec/02; spec/15, R376 to R378, R387 to R393; spec/07, R207). -/

namespace Sys2Proof.Machine

/-- An object access by an authority: nothing in Cold; a host reaches only the page of a tent that exists and is not
STRUCK, over a link that runs (R376, R431, R437); `sleep` is what it meets while the device sleeps. -/
def Dev.accessIn (d : Dev) (au : Auth) (sleep f : Dev → Dev) : Dev :=
  let there : Bool := match au with
    | .biv => true
    | .host t => d.b.hostIn && d.b.tentReached t
  if d.b.sys.base = .cold ∨ ¬ there then d
  else if d.b.asleep then sleep d
  else let r := f d; { r with b := r.b.settle r.tm }

/-- The answer of a device that sleeps (R454). -/
def Dev.busy (d : Dev) : Dev := { d with b := d.b.answer stBusy }

/-- An access of an object that needs the device awake. -/
def Dev.access (d : Dev) (au : Auth) (f : Dev → Dev) : Dev := d.accessIn au Dev.busy f

/-- An access of an instance. The Bivouac's TICK[0] is reached while the device sleeps too, since the time base runs on
(R35, R36, R41, R42, R427; assumption log 117). -/
def Dev.accessOf (d : Dev) (au : Auth) (cls inst : Nat) (f : Dev → Dev) : Dev :=
  d.accessIn au (if au = .biv ∧ isTick cls inst then f else Dev.busy) f

/-- A write answers with its status and INDEX. -/
def Dev.answerWrite (r : Nat × Nat × Dev) : Dev := { r.2.2 with b := { r.2.2.b with reply := ⟨r.1, r.2.1, []⟩ } }

/-- A read answers with its status and words. -/
def Dev.answerRead (r : Nat × List Nat × Dev) : Dev :=
  { r.2.2 with b := r.2.2.b.answerWords r.1 (r.2.1.map (BitVec.ofNat 32)) }

/-- A command that writes one field. -/
def fieldCommand (au : Auth) (cls inst : Nat) (f : Fld) (v : Nat) (s : State) : Host.Outcome State Fault Refusal :=
  onDev (fun d => d.accessOf au cls inst (fun x => Dev.answerWrite (x.fieldWrite au cls inst f v))) s

/-- REGISTER_WRITE (R10, R478); its reserved 1s are counted while the device sleeps too (R12). -/
def execRegisterWrite (au : Auth) (a : ObjAddr) (w : Word) (s : State) : Host.Outcome State Fault Refusal :=
  let cls := a.cls.toNat
  let inst := a.inst.toNat
  let f := fun (x : Dev) => Dev.answerWrite (x.objWrite au cls inst a.off.toNat [w.toNat])
  onDev (fun d => d.accessIn au (if au = .biv ∧ isTick cls inst then f else fun x =>
    Dev.busy { x with b := x.b.countReserved cls inst a.off.toNat [w.toNat] }) f) s

/-- A command that reads a word which holds a field of a kind; of another word it is no such event. -/
def readCommand (au : Auth) (a : ObjAddr) (p : Fld → Bool) (s : State) : Host.Outcome State Fault Refusal :=
  onDev (fun d =>
    if (fieldsOfWord a.cls.toNat a.inst.toNat a.off.toNat).any p then
      d.accessOf au a.cls.toNat a.inst.toNat (fun x =>
        Dev.answerRead (x.objRead au a.cls.toNat a.inst.toNat a.off.toNat 1))
    else d) s

/-- LOW_WORD_LATCH (R32): a read of the low word of a 64-bit field latches it whole. -/
def execLowWordLatch (au : Auth) (a : ObjAddr) (s : State) : Host.Outcome State Fault Refusal :=
  readCommand au a (fun f => decide (f.width = 64 ∧ f.word = a.off.toNat)) s

/-- COUNTER_READ_CLEAR (R10, R11): a read of an RC field clears it. -/
def execCounterReadClear (au : Auth) (a : ObjAddr) (s : State) : Host.Outcome State Fault Refusal :=
  readCommand au a (fun f => decide (f.acc = .rc)) s

/-! The time base and the tick (R33 to R43). -/

/-- ARM (R41). -/
def execArm (au : Auth) (s : State) : Host.Outcome State Fault Refusal := fieldCommand au clsTick 0 FTick.arm 1 s

/-- TIME_STEP (R36): STEP written, low word first. -/
def execTimeStep (au : Auth) (v : BitVec 64) (s : State) : Host.Outcome State Fault Refusal :=
  fieldCommand au clsTick 0 FTick.step v.toNat s

/-- SLEW (R35). -/
def execSlew (au : Auth) (v : BitVec 32) (s : State) : Host.Outcome State Fault Refusal :=
  fieldCommand au clsTick 0 FTick.slew v.toNat s

/-- APPLY_TICK (R42). -/
def execApplyTick (au : Auth) (v : BitVec 32) (s : State) : Host.Outcome State Fault Refusal :=
  fieldCommand au clsTick 0 FTick.applyTick v.toNat s

/-- PPS_OUT_NEXT_WRITE (R39): PPS_OUT_NEXT written, low word first. -/
def execPpsOutNextWrite (au : Auth) (v : BitVec 64) (s : State) : Host.Outcome State Fault Refusal :=
  fieldCommand au clsTick 0 FTick.ppsOutNext v.toNat s

/-! Queues, pools and Basin slots. -/

/-- HW_RESET (Table 5.9). -/
def execHwReset (au : Auth) (q : Nat) (s : State) : Host.Outcome State Fault Refusal :=
  fieldCommand au clsQueue q FQueue.hwReset 1 s

/-- FLAG_SET (R126). -/
def execFlagSet (au : Auth) (q : Nat) (flags : BitVec 16) (s : State) : Host.Outcome State Fault Refusal :=
  fieldCommand au clsQueue q FQueue.flagSet flags.toNat s

/-- LW_RESET (Table 12.8). -/
def execLwReset (au : Auth) (pool : Nat) (s : State) : Host.Outcome State Fault Refusal :=
  fieldCommand au clsPool pool FPool.lwReset 1 s

/-- FORCE (R300); `slot` is the absolute number. -/
def execForce (au : Auth) (slot : Nat) (s : State) : Host.Outcome State Fault Refusal :=
  fieldCommand au clsBasin (slotInst slot) FForce.force 1 s

/-- UNFORCE (R300). -/
def execUnforce (au : Auth) (slot : Nat) (s : State) : Host.Outcome State Fault Refusal :=
  fieldCommand au clsBasin (slotInst slot) FForce.unforce 1 s

/-- A write of CFG_INDEX enters the input queue whether or not it changes the index (R292). -/
def Dev.cfgIndexWrite (d : Dev) (au : Auth) (slot v : Nat) : Nat × Nat × Dev :=
  if instExists d.b.nLogN clsBasin (slotInst slot) && d.b.reaches au clsBasin (slotInst slot) true then
    let r := d.b.basinObject slot (.cfg v)
    (r.1, if r.1 = stOk then 0xFFFF else 0, { d with b := r.2 })
  else (stNoSuchObject, 0, d)

/-- CFG_INDEX_WRITE (R292). -/
def execCfgIndexWrite (au : Auth) (slot : Nat) (v : BitVec 16) (s : State) : Host.Outcome State Fault Refusal :=
  onDev (fun d => d.access au (fun x => Dev.answerWrite (x.cfgIndexWrite au slot v.toNat))) s

/-! Interrupt sources, lists, time stamps, cores and firmware. -/

/-- An instance below a limit; a number at or above it names none. -/
def below (limit n : Nat) : Nat := if n < limit then n else 0xFFFFFF

/-- DOORBELL_RING (R363): by the host of the source's tent, or by the Bivouac. -/
def execDoorbellRing (au : Auth) (src : Nat) (s : State) : Host.Outcome State Fault Refusal :=
  fieldCommand au clsIrq (below 4096 src) FIrq.ring 1 s

/-- HOST_COMPLETE (R368, R371). -/
def execHostComplete (au : Auth) (src : Nat) (s : State) : Host.Outcome State Fault Refusal :=
  fieldCommand au clsIrq (below 4096 src) FIrq.complete 1 s

/-- EPOCH_SWAP (R110): by the Bivouac; INTAKE[0] lies outside a host's reach. -/
def execEpochSwap (au : Auth) (s : State) : Host.Outcome State Fault Refusal :=
  fieldCommand au clsIntake 0 FIntake.swap 1 s

/-- GATE_LIST_SWAP (R75): SWAP_PENDING sets; the next gate cycle makes the swap. -/
def execGateListSwap (au : Auth) (p : Nat) (s : State) : Host.Outcome State Fault Refusal :=
  fieldCommand au clsEgress p FEgress.swap 1 s

/-- A read of one word as a command. -/
def wordCommand (au : Auth) (cls inst off : Nat) (s : State) : Host.Outcome State Fault Refusal :=
  onDev (fun d => d.access au (fun x => Dev.answerRead (x.objRead au cls inst off 1))) s

/-- TX_TS_LATCH (R77): a read of the low word of TX_TS. -/
def execTxTsLatch (au : Auth) (p : Nat) (s : State) : Host.Outcome State Fault Refusal :=
  wordCommand au clsPort p FPort.txTs.word s

/-- TX_TS_TAG_READ (R77): a read of the word that holds TX_TS_TAG removes the record. -/
def execTxTsTagRead (au : Auth) (p : Nat) (s : State) : Host.Outcome State Fault Refusal :=
  wordCommand au clsPort p FPort.txTsTag.word s

/-- KICK (R401). -/
def execKick (au : Auth) (j : Nat) (s : State) : Host.Outcome State Fault Refusal :=
  fieldCommand au clsDevice (below 5 (1 + j)) FBiv.kick 1 s

/-- FW_READY (R447): the new slot is the active one and the base mode returns. -/
def execFwReady (au : Auth) (s : State) : Host.Outcome State Fault Refusal :=
  fieldCommand au clsPower 0 FPower.fwReady 1 s

/-! Lock windows (R372). -/

/-- By whose authority a window is written. -/
def winAuth : Win → Auth
  | .tent t => .host t
  | .biv _ => .biv

/-- A window request of one kind: the write of REQ_ISSUE while REQ_OP names that kind. -/
def windowCommand (w : Win) (op : Nat) (s : State) : Host.Outcome State Fault Refusal :=
  if s.b.winExists w && s.b.fget clsLock (winInst w) FWindow.reqOp == op then
    fieldCommand (winAuth w) clsLock (winInst w) FWindow.reqIssue 1 s
  else .next s

/-- WINDOW_ACQUIRE (R372). -/
def execWindowAcquire (w : Win) (s : State) : Host.Outcome State Fault Refusal := windowCommand w 0 s

/-- WINDOW_RELEASE (R372). -/
def execWindowRelease (w : Win) (s : State) : Host.Outcome State Fault Refusal := windowCommand w 1 s

/-- WINDOW_P (R372). -/
def execWindowP (w : Win) (s : State) : Host.Outcome State Fault Refusal := windowCommand w 2 s

/-- WINDOW_V (R372). -/
def execWindowV (w : Win) (s : State) : Host.Outcome State Fault Refusal := windowCommand w 3 s

/-- REQ_CANCEL (R372). -/
def execReqCancel (w : Win) (s : State) : Host.Outcome State Fault Refusal :=
  if s.b.winExists w then fieldCommand (winAuth w) clsLock (winInst w) FWindow.reqCancel 1 s else .next s

/-! Tables and DRAM channels. -/

/-- TABLE_ENABLE (R286): ENABLE written by the Bivouac; to a host the field is read-only (R285). -/
def execTableEnable (au : Auth) (prefixClass : Bool) (n : Nat) (on : Bool) (s : State) :
    Host.Outcome State Fault Refusal :=
  fieldCommand au (if prefixClass then clsPrefix else clsTable) n FTable.enable (if on then 1 else 0) s

/-- CHANNEL_THAW (R347): THAW of channel `ch` written 1; `retryFails` is what the retry of the failing request meets. -/
def execChannelThaw (au : Auth) (ch : Nat) (retryFails : Option FreezeInfo) (s : State) :
    Host.Outcome State Fault Refusal :=
  onDev (fun d => d.access au (fun x =>
    if au = .biv ∧ ch < 8 then
      let r := x.b.thaw x.tm ch retryFails
      { x with b := { r.2 with reply := ⟨r.1, if r.1 = stOk then 0xFFFF else 0, []⟩ } }
    else { x with b := x.b.answer stNoSuchObject })) s

/-! Tents (R385, R387 to R393). -/

/-- A tent operation of TENT[t]; a number above 63 names no tent. -/
def tentCommand (au : Auth) (t : Nat) (f : Fld) (s : State) : Host.Outcome State Fault Refusal :=
  fieldCommand au clsTent (below 64 t) f 1 s

/-- PITCH (R387, R388). -/
def execPitch (au : Auth) (t : Nat) (s : State) : Host.Outcome State Fault Refusal := tentCommand au t FTent.pitch s

/-- STRIKE (R392). -/
def execStrike (au : Auth) (t : Nat) (s : State) : Host.Outcome State Fault Refusal := tentCommand au t FTent.strike s

/-- FREEZE (R389). -/
def execFreeze (au : Auth) (t : Nat) (s : State) : Host.Outcome State Fault Refusal := tentCommand au t FTent.freeze s

/-- UNFREEZE (R389). -/
def execUnfreeze (au : Auth) (t : Nat) (s : State) : Host.Outcome State Fault Refusal := tentCommand au t FTent.unfreeze s

/-- SAVE (R390). -/
def execSave (au : Auth) (t : Nat) (s : State) : Host.Outcome State Fault Refusal := tentCommand au t FTent.save s

/-- RESTORE (R391). -/
def execRestore (au : Auth) (t : Nat) (s : State) : Host.Outcome State Fault Refusal := tentCommand au t FTent.restore s

/-- HOST_RESET (R385). -/
def execHostReset (au : Auth) (t : Nat) (s : State) : Host.Outcome State Fault Refusal := tentCommand au t FTent.hostReset s

/-- REPITCH (R393). -/
def execRepitch (au : Auth) (s : State) : Host.Outcome State Fault Refusal :=
  fieldCommand au clsTent 0x100 FTents.repitch 1 s

/-! Keys and debugging. -/

/-- KEY_CLEAR (Table 16.9): `k` is a KEY_ID, 0 to 63 for a tent, 0xFF for the Bivouac. -/
def execKeyClear (au : Auth) (k : Nat) (s : State) : Host.Outcome State Fault Refusal :=
  fieldCommand au clsDevice (0x100 + k) FKey.clear 1 s

/-- A write to DEBUG[h]; a number above 1,023 names no thread. -/
def debugCommand (au : Auth) (h : Nat) (f : Fld) (s : State) : Host.Outcome State Fault Refusal :=
  fieldCommand au clsDebug (below 1024 h) f 1 s

/-- DEBUG_HALT (R166, R167). -/
def execDebugHalt (au : Auth) (h : Nat) (s : State) : Host.Outcome State Fault Refusal := debugCommand au h FDebug.halt s

/-- DEBUG_RESUME (R166, R167). -/
def execDebugResume (au : Auth) (h : Nat) (s : State) : Host.Outcome State Fault Refusal :=
  debugCommand au h FDebug.resume s

/-- DEBUG_STEP (R166, R167). -/
def execDebugStep (au : Auth) (h : Nat) (s : State) : Host.Outcome State Fault Refusal := debugCommand au h FDebug.step s

/-- DEBUG_RESET (R166, R167). -/
def execDebugReset (au : Auth) (h : Nat) (s : State) : Host.Outcome State Fault Refusal := debugCommand au h FDebug.reset s

/-- REG_DATA_ACCESS (R166): a read, or a write of `w`. -/
def execRegDataAccess (au : Auth) (h : Nat) (w : Option Word) (s : State) : Host.Outcome State Fault Refusal :=
  let i := below 1024 h
  onDev (fun d => d.access au (fun x =>
    match w with
    | some v => Dev.answerWrite (x.objWrite au clsDebug i FDebug.regData.word [v.toNat])
    | none => Dev.answerRead (x.objRead au clsDebug i FDebug.regData.word 1))) s

/-! The host's pages and apertures (R376 to R378, R382). -/

/-- The status of a window access is kept (Table 15.5). -/
def Dev.windowStatus (d : Dev) (t st : Nat) : Dev := { d with b.host.winStatus := mapPut t st d.b.host.winStatus }

/-- A window access while the device sleeps (R454). -/
def Dev.windowAsleep (d : Dev) (t : Nat) : Dev := d.busy.windowStatus t stBusy

/-- The object that a window addresses: class and instance, and the word. -/
def Body.winObject (b : Body) (t : Nat) : Nat × Nat × Nat :=
  let a := mapGet 0 t b.host.winAddr
  (a / 2 ^ 24 % 256, a % 2 ^ 24, mapGet 0 t b.host.winOff)

/-- A read of WIN_DATA; of a failed one the data is free (assumption log 53). -/
def Dev.windowRead (d : Dev) (t : Nat) : Dev :=
  let a := d.b.winObject t
  let r := d.objRead (.host t) a.1 a.2.1 a.2.2 1
  let x := r.2.2.b.fresh
  let word := if r.1 = stOk then r.2.1.headD 0 else x.1
  { r.2.2 with b := (if r.1 = stOk then r.2.2.b else x.2).answerWords r.1 [BitVec.ofNat 32 word] }.windowStatus t r.1

/-- A write of WIN_DATA counts its reserved 1s (R12). -/
def Dev.countWindow (d : Dev) (t v : Nat) : Dev :=
  let a := d.b.winObject t
  { d with b := d.b.countReserved a.1 a.2.1 a.2.2 [v] }

/-- A write of WIN_DATA. -/
def Dev.windowWrite (d : Dev) (t v : Nat) : Dev :=
  let a := d.b.winObject t
  let r := d.objWrite (.host t) a.1 a.2.1 a.2.2 [v]
  (Dev.answerWrite r).windowStatus t r.1

/-- A read of a doorbell word: HEAD and GENERATION of the ring (R382). -/
def Body.doorbellWord (b : Body) (t off : Nat) : Nat :=
  let rel := (off - 0x10000) / 8
  if rel < 4096 / b.tents then
    (if off % 8 < 4 then b.rg (b.ringAbs t rel) FHostRing.head else b.generation t)
  else 0

/-- A read of page offset `off`. -/
def Dev.pageRead (d : Dev) (t off : Nat) : Dev :=
  let word := fun (v : Nat) => { d with b := d.b.answerWords stOk [BitVec.ofNat 32 v] }
  if off / 4 = 0 then word (mapGet 0 t d.b.host.winAddr)
  else if off / 4 = 1 then word (mapGet 0 t d.b.host.winOff)
  else if off / 4 = 2 then (if d.b.asleep then d.windowAsleep t else d.windowRead t)
  else if off / 4 = 3 then word (mapGet 0 t d.b.host.winStatus)
  else if 0x10000 ≤ off ∧ off < 0x18000 then word (d.b.doorbellWord t off)
  else word 0

/-- A write of a word at page offset `off`; a doorbell takes one 64-bit write only. -/
def Dev.pageWrite (d : Dev) (t off v : Nat) : Dev :=
  if off / 4 = 0 then { d with b.host.winAddr := mapPut t v d.b.host.winAddr }
  else if off / 4 = 1 then { d with b.host.winOff := mapPut t (v % 2 ^ 16) d.b.host.winOff }
  else if off / 4 = 2 then (if d.b.asleep then (d.countWindow t v).windowAsleep t else d.windowWrite t v)
  else if 0x10000 ≤ off ∧ off < 0x18000 then { d with b := d.b.doorbell t ((off - 0x10000) / 8) false v }
  else d

/-- An access to a page or window that reads all ones and discards writes (R376). -/
def Dev.allOnes (d : Dev) (write : Bool) (n : Nat) : Dev :=
  if write then d else { d with b := d.b.answerWords stOk (List.replicate n (BitVec.ofNat 32 0xFFFFFFFF)) }

/-- A read or write of a word of BAR4. -/
def Dev.bar4 (d : Dev) (off : Nat) (w : Option Word) : Dev :=
  match w with
  | some v => { d with b := (d.b.bar4Write off v.toNat).settle d.tm }
  | none => { d with b := (d.b.answerWords stOk [BitVec.ofNat 32 (d.b.bar4Word off)]).settle d.tm }

/-- WINDOW_ACCESS (R376, R377): a word of tent page `t` is read, or written with `w`. Page 64 stands for BAR4, which
the opcode table gives no row of its own (assumption log 131). -/
def execWindowAccess (t : Nat) (off : Nat) (w : Option Word) (s : State) : Host.Outcome State Fault Refusal :=
  onDev (fun d =>
    if ¬ d.b.hostIn ∨ 64 < t ∨ 0x100000 ≤ off then d
    else if t = 64 then d.bar4 off w
    else if ¬ d.b.tentReached t then d.allOnes w.isSome 1
    else
      let r := match w with
        | some v => d.pageWrite t off v.toNat
        | none => d.pageRead t off
      { r with b := r.b.settle r.tm }) s

/-- An aperture access that the regions deny (R378): a read gets a Completer Abort, a write is discarded. -/
def Body.apertureDenied (b : Body) (t : Nat) (write : Bool) : Body :=
  (if write then b else b.emit (.completerAbort t)).bump clsTent t FTent.dmaDenied 1

/-- An aperture access to a frozen channel waits in its queue (R346), a read with the data of the latest earlier writes, a
write ahead of every later access of its line (R337); its answer comes with DRAM_COMPLETE. -/
def Body.apertureWaits (b : Body) (t a n : Nat) (w : Option (List Byte)) : Body :=
  match w with
  | some l => (b.dramPut a l).dramSend 5 t a n true (.aperture true) (atAddr a l)
  | none => b.dramSend 5 t a n false (.aperture false) (atAddr a (b.dramBytes a n))

/-- APERTURE_ACCESS (R378): `len` bytes at offset `off` of window `t` are read, or written with `w`. -/
def execApertureAccess (t : Nat) (off : Nat) (len : Nat) (w : Option (List Byte)) (s : State) :
    Host.Outcome State Fault Refusal :=
  onDev (fun d =>
    let n := match w with
      | some l => l.length
      | none => len
    if ¬ d.b.hostIn ∨ 64 ≤ t ∨ 2 ^ 28 < off + n ∨ n = 0 then d
    else if ¬ d.b.tentReached t then d.allOnes w.isSome (ceilDiv n 4)
    else
      let a := d.b.fget clsTent t FTent.apertureBase + off
      if d.b.asleep then { d with b := d.b.answer stBusy }
      else if !d.b.regionGrants (1028 + t) 1 a n w.isNone w.isSome then { d with b := d.b.apertureDenied t w.isSome }
      else if d.b.dramHeld a n then { d with b := d.b.apertureWaits t a n w }
      else match w with
        | some l => { d with b := (d.b.dramWrite 5 t a l).answer stOk }
        | none =>
          let r := d.b.dramRead 5 t a n
          { d with b := r.2.answerWords stOk (wordsOf r.1) }) s

/-! ORD and OWR (R207). -/

/-- The object word that ORD and OWR address: class, instance and offset. -/
def Body.ordAddress (b : Body) (h : Nat) (f : FmtE) : Nat × Nat × Nat :=
  let a := (b.reg h f.ra).toNat
  (a / 2 ^ 24, a % 2 ^ 24, (b.reg h f.rb).toNat % 2 ^ 16)

/-- ORD's access: the word, free where it fails (assumption log 53), and LSTAT's status. -/
def Dev.ordRead (d : Dev) (h : Nat) (f : FmtE) : Body :=
  let a := d.b.ordAddress h f
  let r := d.objRead .biv a.1 a.2.1 a.2.2 1
  let x := r.2.2.b.fresh
  let y := if r.1 = stOk then (r.2.1.headD 0, r.2.2.b) else x
  (y.2.setReg h f.rd (BitVec.ofNat 32 y.1)).modHart h (fun z => { z with status := r.1 })

/-- ORD. -/
def execOrd (h : Nat) (f : FmtE) (s : State) : Host.Outcome State Fault Refusal :=
  insnBuf h (wordE 0x3E 0 f) (privBad h (sysReserved f true true true false))
    (fun tm b => .done (Dev.ordRead ⟨tm, b⟩ h f) 1 (b.nextPc h)) s

/-- A core's write of IE = 1 to its own instance waits for its next JR (R400). -/
def Body.ownIe (b : Body) (h : Nat) (a : Nat × Nat × Nat) (was v : Nat) : Body :=
  if a = (clsDevice, bivInst h, 0) then
    if v % 2 = 1 then (b.fset clsDevice (bivInst h) FBiv.ie was).modHart h (fun x => { x with pendingIe := some true })
    else b.modHart h (fun x => { x with pendingIe := none })
  else b

/-- OWR's access: the device it leaves, with LSTAT's status. -/
def Dev.owrWrite (d : Dev) (h : Nat) (f : FmtE) : Dev :=
  let a := d.b.ordAddress h f
  let v := (d.b.reg h f.rd).toNat
  let r := d.objWrite .biv a.1 a.2.1 a.2.2 [v]
  let b1 := if r.1 = stOk then r.2.2.b.ownIe h a (d.b.fget clsDevice (bivInst h) FBiv.ie) v else r.2.2.b
  { r.2.2 with b := b1.modHart h (fun x => { x with status := r.1 }) }

/-- OWR. -/
def execOwr (h : Nat) (f : FmtE) (s : State) : Host.Outcome State Fault Refusal :=
  onDev (fun d =>
    let bad := privBad h (sysReserved f true true true false)
    let b1 := d.b.runInsn d.tm h (wordE 0x3E 1 f) bad (fun b => .done (Dev.owrWrite ⟨d.tm, b⟩ h f).b 1 (b.nextPc h))
    ⟨if d.b.mayIssue h && bad.isNone then (d.owrWrite h f).tm else d.tm, b1.settle d.tm⟩) s

end Sys2Proof.Machine
end

