-- ==== Sys2Proof/Machine/Messages.lean ====
section
/-! DEFINITION. Shesin messages: where they lie, their authentication, the checks of R413 and their replies
(spec/16, R402 to R415). -/

namespace Sys2Proof.Machine

/-! Where a message lies. -/

/-- Whether commands are served: READY, the BIV clock running, and no MODE_SET waiting for its sleep cycle (R406, R407,
R418, R454). -/
def Body.serves (b : Body) : Bool :=
  b.adm.mailbox.ready && b.bivRuns && decide (b.sys.base ≠ .boot) && b.adm.sleep.isNone

/-- How many bytes of a frame stand before the command header (R403): `none` where neither place holds it. A
direct-path frame carries it after its EtherType (R402). -/
def Body.headerLength (b : Body) (classified : Bool) (l : List Byte) : Option Nat :=
  let k := afterTags l 2 12
  let port := b.fget clsDevice 0 FDevice.cmdUdpPort
  let udp := fun (u : Nat) => if port ≠ 0 ∧ be16 l (u + 2) = port then some (u + 8) else none
  if ¬ classified ∨ be16 l k = b.fget clsDevice 0 FDevice.cmdEthertype then some (k + 2)
  else if be16 l k = 0x0800 ∧ byteAt l (k + 11) = 17 then udp (k + 2 + 4 * (byteAt l (k + 2) % 16))
  else if be16 l k = 0x86DD ∧ byteAt l (k + 8) = 17 then udp (k + 42)
  else none

/-- The bytes of the mailbox's request buffer, as far as LENGTH names them. -/
def Body.mailboxBytes (b : Body) : List Byte :=
  readBytes b.mem.bmem 0x7F0000 (min 16384 (max 20 (beNat (readBytes b.mem.bmem 0x7F0002 2))))

/-- What waits in a receive slot or in the mailbox: nothing, a frame without a command header, or the path and the
bytes from the header on, the FCS taken off. -/
def Body.messageAt (b : Body) (m : Msg) : Option (Option (ReplyPath × List Byte)) :=
  match m with
  | .mailbox => if b.adm.mailbox.busy then some (some (.mailbox, b.mailboxBytes)) else none
  | .slot x =>
    let w := b.bmemWord (rxRecord x)
    if x < 32 ∧ w.testBit 14 then
      let l := readBytes b.mem.bmem (slotMem x) (w % 2 ^ 14 - 4)
      some ((b.headerLength (w.testBit 15) l).map (fun n =>
        (if w.testBit 15 then .classified (l.take n) else .direct (l.take n) (bitsAt w 16 7), l.drop n)))
    else none

/-- Whether the command at `m` is the first that has come and waits (R407): slots and the mailbox are taken in the order of
their commands' arrival. -/
def Body.firstCome (b : Body) (m : Msg) : Bool :=
  match b.adm.arrivals.find? (fun x => (b.messageAt x).isSome) with
  | some x => x == m
  | none => true

/-- A command is taken up: its slot is free again (R404), and a wake source that it fired is consumed (R454). -/
def Body.takeUp (b : Body) (m : Msg) : Body :=
  let b0 := { b with adm.arrivals := b.adm.arrivals.erase m }
  match m with
  | .mailbox => { b0 with adm.fired := b0.adm.fired - (b0.adm.fired &&& 1) }
  | .slot x =>
    let w := b.bmemWord (rxRecord x)
    let b1 := b0.setBmemWord (rxRecord x) (w - 2 ^ 14)
    if w.testBit 15 = false ∧ bitsAt w 16 7 = 64 then { b1 with adm.fired := b1.adm.fired - (b1.adm.fired &&& 2) } else b1

/-! Authentication (R409 to R412). -/

/-- The authority of a key that may authenticate (R409). -/
def Body.keyAuthority (b : Body) (k : Nat) : Option Auth :=
  if k = 0xFF then some .biv else if k < 64 ∧ b.tentReached k then some (.host k) else none

/-- The slot of a key that names a sender: the lowest enabled one. -/
def Body.senderSlot (b : Body) (k sender : Nat) : Option Nat :=
  (List.range 4).find? (fun j => (b.fget clsDevice (0x100 + k) FKey.senderEn).testBit j &&
    b.fget clsDevice (0x100 + k) (FKey.sender j) == sender)

/-- What a replay window becomes: the sequence it stands at and its bits. -/
def Body.setWindow (b : Body) (k j h : Nat) (win : BitVec 64) : Body :=
  let i := 0x100 + k
  let b1 := (b.fset clsDevice i (FKey.highSeq j) h).fset clsDevice i FKey.seen (b.fget clsDevice i FKey.seen ||| 2 ^ j)
  { b1 with adm.windows := mapPut (4 * k + j) win b1.adm.windows }

/-- The replay window of a slot (R411): whether SEQUENCE is accepted. -/
def Body.replayCheck (b : Body) (k j seq : Nat) : Bool × Body :=
  let h := b.fget clsDevice (0x100 + k) (FKey.highSeq j)
  let win := mapGet 0 (4 * k + j) b.adm.windows
  let d := tickDiff seq h
  if !(b.fget clsDevice (0x100 + k) FKey.seen).testBit j then (true, b.setWindow k j seq 1)
  else if 0 < d then (true, b.setWindow k j seq (if 64 ≤ d then 1 else (win <<< d.toNat) ||| 1))
  else if -64 < d ∧ win.getLsbD (-d).toNat = false then (true, b.setWindow k j h (win ||| (1 <<< (-d).toNat)))
  else (false, b.bump clsDevice 0 FDevice.replays 1)

/-- Step 3 of R413: the authority and the key of an authentic message, and what the check leaves. -/
def Body.authenticate (b : Body) (path : ReplyPath) (m : List Byte) : Option (Auth × Option (List Byte)) × Body :=
  let k := byteAt m 12
  let fail := fun (x : Body) => (none, x.bump clsDevice 0 FDevice.authFails 1)
  if (byteAt m 1).testBit 6 then
    match b.keyAuthority k, mapFind k b.adm.keys, b.senderSlot k (beNat ((m.drop 4).take 4)) with
    | some au, some key, some j =>
      if m.drop (m.length - 16) = Config.gmac key (gmacIv m false) (m.take (m.length - 16)) then
        let r := b.replayCheck k j (beNat ((m.drop 8).take 4))
        if r.1 then (some (au, some key), r.2.bump clsDevice (0x100 + k) FKey.uses 1) else fail r.2
      else fail b
    | _, _, _ => fail b
  else if path = .mailbox ∧ b.fget clsDevice 0 FDevice.bivKeyValid = 0 then (some (.biv, none), b)
  else fail b

/-! Opcodes (Table 16.5). -/

/-- The opcodes. -/
def opcodes : List Nat :=
  [0x0001, 0x0002, 0x0010, 0x0011, 0x0012, 0x0020, 0x0021, 0x0022, 0x0030, 0x0031, 0x0040, 0x0041, 0x0042, 0x0043,
    0x0050, 0x0051, 0x0060, 0x0061]

/-- Those that any key may use. -/
def anyOpcodes : List Nat := [0x0001, 0x0002, 0x0010, 0x0011, 0x0012]

/-- The modes of an opcode; a FW_ACTIVATE while another handover is in progress is answered BUSY (R447), outside Hold. -/
def Body.opcodeMode (b : Body) (op : Nat) : Bool :=
  let m := b.modeCode
  match op with
  | 0x02 | 0x10 | 0x41 => decide (2 ≤ m ∧ m ≤ 10)
  | 0x30 => decide (m = 3 ∨ m = 8)
  | 0x61 => decide (m = 3 ∨ m = 4 ∨ m = 5) || (b.adm.fw.isSome && decide (2 ≤ m ∧ m ≤ 9))
  | _ => decide (2 ≤ m ∧ m ≤ 9)

/-- Whether parameters have a length of their opcode; `plain` where a plain key may be given (R422). -/
def lengthOk (op : Nat) (plain : Bool) (p : List Byte) : Bool :=
  let n := p.length
  match op with
  | 0x01 => decide (n ≤ 256)
  | 0x02 | 0x42 | 0x61 => decide (n = 0)
  | 0x10 | 0x31 | 0x41 => decide (n = 8)
  | 0x11 => decide (8 ≤ n ∧ n = 8 + 4 * be16 p 6)
  | 0x12 => decide (n = 16)
  | 0x30 => decide (8 ≤ n ∧ n % 4 = 0 ∧ n ≤ 4 + 4 * 1024)
  | 0x43 => decide (n = 44) || (plain && decide (n = 36))
  | 0x51 => decide (4 ≤ n ∧ n = 4 + byteAt p 3)
  | 0x60 => decide (5 ≤ n ∧ n ≤ 4 + 4096)
  | _ => decide (n = 4)

/-- The reserved bits of parameters, as masks of their first bytes. -/
def reservedMask (op : Nat) : List Nat :=
  match op with
  | 0x20 | 0x22 | 0x40 | 0x43 => [0, 0xFF, 0xFF, 0xFF]
  | 0x21 => [0, 0xFE, 0xFF, 0xFF]
  | 0x30 | 0x41 => [0, 0xFF]
  | 0x31 => [0, 0xFF, 0, 0, 0, 0, 0xFF, 0xFF]
  | _ => []

def reservedOk (op : Nat) (p : List Byte) : Bool :=
  (reservedMask op).zipIdx.all (fun e => byteAt p e.2 &&& e.1 == 0)

/-! The checks of R413. -/

/-- Step 1: a message that is discarded without reply. -/
def badMessage (l : List Byte) : Bool :=
  decide (l.length < 20 ∨ be16 l 2 < 20 ∨ l.length < be16 l 2) || (byteAt l 1).testBit 7

/-- OPCODE of a message. -/
def opcodeOf (l : List Byte) : Nat := be16 l 14

/-- The parameters of a message: what stands between its header and its tag. -/
def paramsOf (m : List Byte) : List Byte :=
  (m.take (if (byteAt m 1).testBit 6 then m.length - 16 else m.length)).drop 20

/-- Step 4: a wrong VERSION or a reserved bit of the header. -/
def badHeader (m : List Byte) : Bool :=
  byteAt m 0 != 1 || byteAt m 1 % 64 != 0 || byteAt m 13 != 0 || byteAt m 18 != 0 || byteAt m 19 != 0

/-- Steps 4 to 9 for an authentic message. -/
def Body.laterChecks (b : Body) (au : Auth) (plain : Bool) (m : List Byte) : Nat :=
  let op := opcodeOf m
  let p := paramsOf m
  if badHeader m then stReservedField
  else if !opcodes.contains op then stUnknownOpcode
  else if au ≠ .biv ∧ !anyOpcodes.contains op then stNoSuchObject
  else if !lengthOk op plain p then stBadLength
  else if !reservedOk op p then stReservedField
  else if !b.opcodeMode op then stNotInMode
  else stOk

/-- Steps 2 to 9: the requester, the status, the authority and the parameters, and what the checks leave. -/
def Body.checks (b : Body) (path : ReplyPath) (m : List Byte) : Caller × Nat × Auth × Body :=
  let c : Caller := ⟨path, m.take 20, none⟩
  if (byteAt m 1).testBit 6 ∧ m.length < 36 then (c, stBadLength, .biv, b)
  else match b.authenticate path m with
    | (none, b1) => (c, stAuthFail, .biv, b1)
    | (some (au, key), b1) => ({ c with key := key }, b1.laterChecks au key.isNone m, au, b1)

/-- What an opcode does once its message has passed step 9: the status of step 10, or `none` where the reply waits, the
reply parameters, and the device. -/
abbrev Perform := Caller → Auth → List Byte → Dev → Option Nat × List Byte × Dev

/-- A reply carries its parameters with OK, and for OBJ_WRITE always (R414). -/
def replyParams (op st : Nat) (params : List Byte) : List Byte :=
  if op = 0x11 then (if params = [] then [0, 0, 0, 0] else params) else if st = stOk then params else []

/-- A message that has passed step 1 is checked, performed and answered. -/
def Dev.handle (d : Dev) (path : ReplyPath) (m : List Byte) (f : Perform) : Dev :=
  let op := opcodeOf m
  let k := d.b.checks path m
  if k.2.1 ≠ stOk then { d with b := k.2.2.2.sendReply k.1 k.2.1 (replyParams op k.2.1 []) }
  else
    let r := f k.1 k.2.2.1 (paramsOf m) { d with b := k.2.2.2 }
    match r.1 with
    | none => { r.2.2 with b := r.2.2.b.bump clsDevice 0 FDevice.cmdPerformed 1 }
    | some st =>
      let b1 := if st = stOk then r.2.2.b.bump clsDevice 0 FDevice.cmdPerformed 1 else r.2.2.b
      { r.2.2 with b := b1.sendReply k.1 st (replyParams op st r.2.1) }

/-- A message is discarded (R403, step 1 of R413); the mailbox takes another one (assumption log 54). -/
def Body.discardMsg (b : Body) (m : Msg) : Body :=
  let b1 := b.bump clsDevice 0 FDevice.malformed 1
  match m with
  | .mailbox => { b1 with adm.mailbox := { b1.adm.mailbox with busy := false } }
  | .slot _ => b1

/-- The Bivouac takes up what waits at `m`, for the row of opcode `op`: a message of that opcode, or one that no row
performs. -/
def Dev.serve (d : Dev) (op : Nat) (m : Msg) (f : Perform) : Dev :=
  if !d.b.serves || !d.b.firstCome m then d
  else match d.b.messageAt m with
    | none => d
    | some none => { d with b := (d.b.takeUp m).discardMsg m }
    | some (some (path, l)) =>
      if badMessage l then { d with b := (d.b.takeUp m).discardMsg m }
      else if opcodeOf l = op ∨ ¬ opcodes.contains (opcodeOf l) then
        ({ d with b := d.b.takeUp m } : Dev).handle path (l.take (be16 l 2)) f
      else d

/-- A Shesin command. -/
def shesin (op : Nat) (m : Msg) (f : Perform) (s : State) : Host.Outcome State Fault Refusal :=
  onDev (fun d => let r := d.serve op m f; { r with b := r.b.settle r.tm }) s

/-! The mailbox (R406). -/

/-- MAILBOX_GO: MB_CTRL is written with `w` after the request buffer with `request`. -/
def execMailboxGo (w : Word) (request : List Byte) (s : State) : Host.Outcome State Fault Refusal :=
  onBody (fun _ b =>
    if b.hostIn then
      { b with mem.bmem := writeBytes b.mem.bmem 0x7F0000 (request.take 16384) }.writeMailbox w.toNat
    else b) s

end Sys2Proof.Machine
end

