-- ==== Sys2Proof/Machine/Shesin.lean ====
section
/-! DEFINITION. The opcodes of Shesin commands (spec/16, R415 to R423; spec/17, R434; spec/18, R445, R447, R449,
R452, R453). -/

namespace Sys2Proof.Machine

/-- A performer that leaves the device as it is. -/
def sayOnly (f : Caller → Auth → List Byte → Dev → Nat × List Byte) : Perform :=
  fun c au p d => let r := f c au p d; (some r.1, r.2, d)

/-- A performer that changes the device and returns no parameters. -/
def doOnly (f : List Byte → Time → Body → Nat × Body) : Perform :=
  fun _ _ p d => let r := f p d.tm d.b; (some r.1, [], { d with b := r.2 })

/-- ECHO (R415). -/
def execEcho (m : Msg) (s : State) : Host.Outcome State Fault Refusal :=
  shesin 0x01 m (sayOnly (fun _ _ p _ => (stOk, p))) s

/-- The reply parameters of IDENTIFY (Table 16.5). -/
def Body.identity (b : Body) : List Byte :=
  beBytes 2 (b.fget clsDevice 0 FDevice.part) ++ beBytes 1 (b.fget clsDevice 0 FDevice.revision) ++ [0] ++
    beBytes 4 (b.fget clsDevice 0 FDevice.fwVersion) ++ beBytes 8 (b.fget clsDevice 0 FDevice.serial)

/-- IDENTIFY (R415). -/
def execIdentify (m : Msg) (s : State) : Host.Outcome State Fault Refusal :=
  shesin 0x02 m (sayOnly (fun _ _ _ d => (stOk, d.b.identity))) s

/-! Object commands (R416, R417). -/

/-- An object address (R416): class, instance, offset and count. -/
def objAddress (p : List Byte) : Nat × Nat × Nat × Nat :=
  (byteAt p 0, beNat ((p.drop 1).take 3), be16 p 4, be16 p 6)

/-- A count that an object address admits, up to `most`; another is OUT_OF_RANGE (assumption log 55). -/
def countOk (n most : Nat) : Bool := decide (1 ≤ n ∧ n ≤ most)

/-- Words of parameters (R415). -/
def paramWords (n : Nat) (p : List Byte) : List Nat := (List.range n).map (fun k => beNat ((p.drop (4 * k)).take 4))

/-- Words as parameters. -/
def wordParams (ws : List Nat) : List Byte := ws.flatMap (beBytes 4)

/-- A write whose count no object address admits is turned away; the reserved 1s of the words that it carries are counted
(R12). -/
def Dev.countWords (d : Dev) (a : Nat × Nat × Nat × Nat) (ws : List Nat) : Dev :=
  { d with b := d.b.countReserved a.1 a.2.1 a.2.2.1 ws }

/-- OBJ_READ (R416). -/
def execObjRead (m : Msg) (s : State) : Host.Outcome State Fault Refusal :=
  shesin 0x10 m (fun _ au p d =>
    let a := objAddress p
    if countOk a.2.2.2 1024 then
      let r := d.objRead au a.1 a.2.1 a.2.2.1 a.2.2.2
      (some r.1, wordParams r.2.1, r.2.2)
    else (some stOutOfRange, [], d)) s

/-- OBJ_WRITE (R416). -/
def execObjWrite (m : Msg) (s : State) : Host.Outcome State Fault Refusal :=
  shesin 0x11 m (fun _ au p d =>
    let a := objAddress p
    if countOk a.2.2.2 1024 then
      let r := d.objWrite au a.1 a.2.1 a.2.2.1 (paramWords a.2.2.2 (p.drop 8))
      (some r.1, beBytes 2 r.2.1 ++ [0, 0], r.2.2)
    else (some stOutOfRange, [], d.countWords a (paramWords a.2.2.2 (p.drop 8)))) s

/-- OBJ_MODIFY (R417). -/
def execObjModify (m : Msg) (s : State) : Host.Outcome State Fault Refusal :=
  shesin 0x12 m (fun _ au p d =>
    let a := objAddress p
    if countOk a.2.2.2 1 then
      let r := d.objModify au a.1 a.2.1 a.2.2.1 (beNat ((p.drop 8).take 4)) (beNat ((p.drop 12).take 4))
      (some r.1, beBytes 4 r.2.1, r.2.2)
    else (some stOutOfRange, [], d.countWords a
      [modified (d.peek a.1 a.2.1 a.2.2.1) (beNat ((p.drop 8).take 4)) (beNat ((p.drop 12).take 4))])) s

/-! Control commands (R419, R434, R445). -/

/-- MODE_SET (R445): to Dormant its reply waits (R454). -/
def execModeSet (m : Msg) (s : State) : Host.Outcome State Fault Refusal :=
  shesin 0x20 m (fun c _ p d =>
    let r := d.b.modeSet (byteAt p 0)
    match r.1 with
    | some st => (some st, [], { d with b := r.2 })
    | none => (none, [], { d with b := { r.2 with adm.sleep := some c } })) s

/-- THAW (R419, R347). -/
def execThaw (m : Msg) (s : State) : Host.Outcome State Fault Refusal :=
  shesin 0x21 m (doOnly (fun p tm b =>
    let c := byteAt p 0
    if 7 < c then (stOutOfRange, b)
    else if b.dramChannels ≤ c then (stNoSuchObject, b)
    else if !b.frozen c then (stNotInMode, b)
    else (b.fset clsDram (chanInst c) FChan.repair (byteAt p 1 % 2)).thaw tm c none)) s

/-- The status of a RESET command (R434). -/
def Body.scopeStatus (b : Body) (sc : Nat) : Nat :=
  if !scopeKnown sc then stOutOfRange
  else if 0x10 ≤ sc ∧ sc < 0x20 ∧ (groupPorts (sc - 0x10)).all (fun p => !b.portPresent p) then stNoSuchObject
  else stOk

/-- A reset is requested: of the device, whose drain begins (R435), or of one side (R437). -/
def Body.askReset (b : Body) (sc : Nat) : Body :=
  if sc = 0 then { b with adm.draining := some (b.adm.draining.getD 0) } else { b with adm.scopes := b.adm.scopes ++ [sc] }

/-- RESET (R419, R434): the reply leaves before the reset starts. -/
def execReset (m : Msg) (s : State) : Host.Outcome State Fault Refusal :=
  shesin 0x22 m (doOnly (fun p _ b =>
    let st := b.scopeStatus (byteAt p 0)
    (st, if st = stOk then b.askReset (byteAt p 0) else b))) s

/-! Instruction memories (R420). -/

/-- The checks of LOAD_IMEM and READ_IMEM in their order: CORE, then the range (assumption log 55). -/
def imemStatus (core off n : Nat) : Nat :=
  if 127 < core then stNoSuchObject
  else if off % 4 ≠ 0 ∨ n = 0 ∨ 1024 < n ∨ 0x10000 < off + 4 * n then stOutOfRange
  else stOk

/-- Whether a thread of a core holds an item and is not halted. -/
def Body.coreAtWork (b : Body) (core : Nat) : Bool :=
  (List.range 8).any (fun k => (b.hart (8 * core + k)).item.isSome && !(b.hart (8 * core + k)).halted)

/-- LOAD_IMEM (R420). -/
def execLoadImem (m : Msg) (s : State) : Host.Outcome State Fault Refusal :=
  shesin 0x30 m (doOnly (fun p _ b =>
    let core := byteAt p 0
    let off := be16 p 2
    let n := (p.length - 4) / 4
    let st := imemStatus core off n
    if st ≠ stOk then (st, b)
    else if b.inBench && b.coreAtWork core then (stBusy, b)
    else
      let l := (paramWords n (p.drop 4)).flatMap (leBytes 4)
      (stOk, { b with mem.imem := writeBytes b.mem.imem (imemAddr core off) l }))) s

/-- READ_IMEM (R420). -/
def execReadImem (m : Msg) (s : State) : Host.Outcome State Fault Refusal :=
  shesin 0x31 m (sayOnly (fun _ _ p d =>
    let core := byteAt p 0
    let off := be16 p 2
    let n := be16 p 4
    (imemStatus core off n,
     wordParams ((List.range n).map (fun k => readLE d.b.mem.imem (imemAddr core off + 4 * k) 4))))) s

/-! The persistent store (R421, R453, R457). -/

/-- The size of a slot of an area (Table 18.4). -/
def slotSize (area : Nat) : Nat :=
  match area with
  | 0 => 2 ^ 21
  | 1 => 2 ^ 18
  | 2 => 2 ^ 20
  | _ => 2 ^ 16

/-- The bytes of a slot: its 32-byte header and its body (R457). -/
def StoreSlot.bytes (x : StoreSlot) : List Byte :=
  let l := x.body.bytes
  leBytes 4 x.seq ++ leBytes 4 l.length ++ leBytes 4 (crc32c 0xFFFFFFFF l) ++ [if x.empty then 1 else 0] ++
    List.replicate 19 0xFF ++ l

/-- The bytes that reads of an area show: its current slot, or the factory area. -/
def Body.areaBytes (b : Body) (area : Nat) : List Byte :=
  if area = 2 then Config.factoryArea
  else match b.storeSlot area with
    | some x => x.bytes
    | none => []

/-- Whether a field belongs to the configuration set (R453): an RW field that is no calibration field, no field of
DEBUG or of a Basin slot and neither HEAD nor TAIL of a ring. -/
def configField (cls inst : Nat) (f : Fld) : Bool :=
  f.acc == .rw && cls != clsDebug && !(cls == clsBasin && decide (0x100000 ≤ inst)) && !calibFields.contains (cls, inst, f) &&
    !(cls == clsTent && decide (0x1000 ≤ inst) && (f == FHostRing.head || f == FHostRing.tail))

/-- Whether a field differs from its reset value. -/
def Dev.differs (d : Dev) (cls inst : Nat) (f : Fld) : Bool :=
  d.view cls inst f != resetAt d.b.sys.nLog.val cls inst f

/-- The records' words, by class, instance and offset: one for every field of the configuration set other than at reset,
or one for each word of a field of more than 32 bits (assumption log 56). -/
def Dev.configWords (d : Dev) : List (Nat × Nat × Nat) :=
  let wordsOf := fun (cls inst : Nat) (f : Fld) =>
    if configField cls inst f && d.differs cls inst f then
      (List.range ((f.lo + f.width - 1) / 32 + 1 - f.word)).map (fun k => (cls, inst, f.word + k))
    else []
  let time := FTick.all.flatMap (wordsOf clsTick 0)
  let rest := d.b.fields.flatMap (fun e =>
    let cls := keyClass e.1
    let inst := keyInst e.1
    let lo := e.1 % 2 ^ 16
    if cls = clsTick ∧ inst = 0 ∨ ¬ instExists d.b.nLogN cls inst then []
    else ((fieldsOfWord cls inst (lo / 32)).filter (fun f => f.lo == lo)).flatMap (wordsOf cls inst))
  sortBy (fun x y => decide (x.1 * 2 ^ 40 + x.2.1 * 2 ^ 16 + x.2.2 ≤ y.1 * 2 ^ 40 + y.2.1 * 2 ^ 16 + y.2.2))
    (time ++ rest)

/-- The value of a record: the RW fields of its word (assumption log 56). -/
def Dev.configValue (d : Dev) (cls inst off : Nat) : Nat :=
  ((fieldsOfWord cls inst off).map (fun f => if f.acc = .rw then f.inWord off (d.view cls inst f) else 0)).sum

/-- The configuration set (R453). -/
def Dev.configSet (d : Dev) : StoreBody :=
  .config d.b.tents ((List.range d.b.tents).map (fun t => d.b.fget clsTent t FTent.state))
    (d.configWords.map (fun a =>
      (⟨BitVec.ofNat 8 a.1, BitVec.ofNat 24 a.2.1, BitVec.ofNat 16 a.2.2⟩, d.configValue a.1 a.2.1 a.2.2)))

/-- A store write of a body that must fit its slot (R453). -/
def Body.saveArea (b : Body) (area : Nat) (body : StoreBody) : Nat × Body :=
  if slotSize area < 32 + body.bytes.length then (stOutOfRange, b) else b.storeWrite area false body

/-- STORE_SAVE (R421). Of the areas beyond 3 there are none: OUT_OF_RANGE (assumption log 55). -/
def execStoreSave (m : Msg) (s : State) : Host.Outcome State Fault Refusal :=
  shesin 0x40 m (fun _ _ p d =>
    let area := byteAt p 0
    let r :=
      if area = 0 then d.b.saveArea 0 d.configSet
      else if area = 1 then d.b.saveArea 1 (.calib d.b.calibSet)
      else (if area ≤ 3 then stReadOnly else stOutOfRange, d.b)
    (some r.1, [], { d with b := r.2 })) s

/-- STORE_READ (R421): beyond what is programmed an area reads as erased flash (assumption log 31). -/
def execStoreRead (m : Msg) (s : State) : Host.Outcome State Fault Refusal :=
  shesin 0x41 m (sayOnly (fun _ _ p d =>
    let area := byteAt p 0
    let n := be16 p 2
    let off := beNat ((p.drop 4).take 4)
    if area = 3 then (stNoSuchObject, [])
    else if 3 < area ∨ n = 0 ∨ 1024 < n ∨ slotSize area < off + n then (stOutOfRange, [])
    else let l := d.b.areaBytes area; (stOk, (List.range n).map (fun k => l.getD (off + k) 0xFF)))) s

/-- RESTORE_FACTORY (R421, R452): one store write, of a slot of area 1 marked EMPTY. -/
def execRestoreFactory (m : Msg) (s : State) : Host.Outcome State Fault Refusal :=
  shesin 0x42 m (doOnly (fun _ _ b => b.storeWrite 1 true .nothing)) s

/-! Keys (R422). -/

/-- A key becomes valid, with every sender slot unseen. -/
def Body.installKey (b : Body) (k : Nat) (key : List Byte) : Body :=
  let b1 := (b.fset clsDevice (0x100 + k) FKey.valid 1).fset clsDevice (0x100 + k) FKey.seen 0
  let b2 := { b1 with adm.keys := mapPut k key b1.adm.keys }
  if k = 0xFF then b2.fset clsDevice 0 FDevice.bivKeyValid 1 else b2

/-- The key that SET_KEY carries: plain, or wrapped under the Bivouac key. -/
def Body.carriedKey (b : Body) (p : List Byte) : Option (List Byte) :=
  if p.length = 36 then some (p.drop 4)
  else (mapFind 0xFF b.adm.keys).bind (fun kek => Config.keyUnwrap kek (p.drop 4))

/-- SET_KEY (R422). -/
def execSetKey (m : Msg) (s : State) : Host.Outcome State Fault Refusal :=
  shesin 0x43 m (doOnly (fun p _ b =>
    let k := byteAt p 0
    if k ≠ 0xFF ∧ b.tents ≤ k then (stNoSuchObject, b)
    else match b.carriedKey p with
      | none => (stAuthFail, b)
      | some key =>
        let r := b.storeWrite 3 false (.keys (mapPut k key b.adm.keys))
        (r.1, if r.1 = stOk then r.2.installKey k key else r.2))) s

/-! Modules and firmware (R423). -/

/-- The status of a module access (R423, R67); a cage above 15 is OUT_OF_RANGE (assumption log 55). -/
def moduleStatus (p : List Byte) (x : ModuleAnswer) : Nat :=
  let n := byteAt p 3
  if 15 < byteAt p 0 ∨ n = 0 ∨ 128 < n ∨ 256 < byteAt p 2 + n then stOutOfRange
  else match x with
    | .absent => stNoSuchObject
    | .nack => stBusy
    | .data _ => stOk

/-- The bytes that a module answers. -/
def moduleBytes : ModuleAnswer → List Byte
  | .data l => l
  | _ => []

/-- MOD_READ (R423): `module` is what the module answers. -/
def execModRead (m : Msg) (module : ModuleAnswer) (s : State) : Host.Outcome State Fault Refusal :=
  shesin 0x50 m (sayOnly (fun _ _ p _ =>
    (moduleStatus p module, (List.range (byteAt p 3)).map (fun k => (moduleBytes module).getD k 0)))) s

/-- MOD_WRITE (R423). -/
def execModWrite (m : Msg) (module : ModuleAnswer) (s : State) : Host.Outcome State Fault Refusal :=
  shesin 0x51 m (doOnly (fun p _ b =>
    let st := moduleStatus p module
    (st, if st = stOk then b.emit (.module (byteAt p 0) (byteAt p 1) (byteAt p 2) (p.drop 4)) else b))) s

/-- The firmware slot that FW_WRITE writes: the one that BOOT_SLOT does not show (R449). -/
def Body.idleSlot (b : Body) : Nat := 1 - b.fget clsPower 0 FPower.bootSlot

/-- FW_WRITE (R423, R449): BUSY while the store is written (R421, assumption log 16). -/
def execFwWrite (m : Msg) (s : State) : Host.Outcome State Fault Refusal :=
  shesin 0x60 m (doOnly (fun p _ b =>
    let off := beNat (p.take 4)
    let l := p.drop 4
    if fwSize < off + l.length then (stOutOfRange, b)
    else if b.adm.job.isSome then (stBusy, b)
    else (stOk, { b with adm.fwImage := writeBytes b.adm.fwImage (fwOffset b.idleSlot + off) l }))) s

/-- FW_ACTIVATE (R423, R447): a verified image makes the base mode Update. -/
def execFwActivate (m : Msg) (s : State) : Host.Outcome State Fault Refusal :=
  shesin 0x61 m (doOnly (fun _ _ b =>
    if b.adm.fw.isSome then (stBusy, b)
    else if imageGood (b.fwSlot b.idleSlot) then
      (stOk, { (b.enterMode .update) with
        sys := { (b.enterMode .update).sys with prevBase := b.sys.base, handover := true }
        adm := { (b.enterMode .update).adm with fw := some ⟨b.idleSlot, false, 0⟩ } })
    else (stAuthFail, b))) s

/-! The configuration at Survey (R453). -/

/-- The device under the mode checks of Standby, and back. -/
def Body.asStandby (b : Body) : Body := { b with sys := { b.sys with base := .standby, hold := false, row8 := true } }

/-- A record is written; one that is turned away is counted. -/
def Dev.restoreRecord (d : Dev) (r : ObjAddr × Nat) : Dev :=
  let w := d.objWrite .biv r.1.cls.toNat r.1.inst.toNat r.1.off.toNat [r.2]
  if w.1 = stOk then w.2.2 else { w.2.2 with b := w.2.2.b.bump clsPower 0 FPower.configRejected 1 }

/-- The saved tents that are STRUCK are pitched. -/
def Body.restoreTents (b : Body) (states : List Nat) : Body :=
  states.zipIdx.foldl (fun (x : Body) e =>
    if e.1 ≠ 0 ∧ e.2 < x.tents ∧ x.tentState e.2 = 0 then (x.tentPitch e.2).2 else x) b

/-- Row 8 under the mode checks of Standby: the re-pitch to the saved N, or, with that N, the tents and the records. -/
def Dev.restoreSet (d : Dev) (n : Nat) (states : List Nat) (records : List (ObjAddr × Nat)) : Dev :=
  if d.b.tents = n then
    let d1 := records.foldl Dev.restoreRecord { d with b := d.b.restoreTents states }
    { d1 with b := { d1.b with adm.bootSet := true } }
  else if d.b.pitchPending then d
  else
    let w := d.fieldWrite .biv clsTent 0x100 FTents.nNext n
    { w.2.2 with b := (w.2.2.b.repitchWrite).2 }

/-- CONFIG_RESTORE (R453): row 8, after rows 1 to 7, with AUTO_RESTORE = 1 and a valid slot in area 0; a set whose N is not
yet in force is re-pitched to first, and the next command after that boundary restores the rest. -/
def execConfigRestore (s : State) : Host.Outcome State Fault Refusal :=
  onDev (fun d =>
    match d.b.savedSet with
    | some (n, states, records) =>
      if d.b.sys.base = .survey ∧ d.b.rowEightDue ∧ d.b.adm.survey.bank ∧ d.b.adm.survey.shown then
        let r := ({ d with b := d.b.asStandby } : Dev).restoreSet n states records
        { r with b := ({ r.b with
            sys := { r.b.sys with base := d.b.sys.base, hold := d.b.sys.hold, row8 := false } } : Body).settle r.tm }
      else d
    | none => d) s

end Sys2Proof.Machine
end

