-- ==== Sys2Proof/Machine/Boundary.lean ====
section
/-! DEFINITION. The tick boundary and the commands that are boundaries of a kind (spec/02, R40 to R47; spec/11, R298;
spec/15, R394; spec/06, R154). -/

namespace Sys2Proof.Machine

/-- The tick message of one thread: it replaces an unread one, which TICK_MISSED counts (R154). A Bivouac core has no
THREAD instance to count in. -/
def Body.tickMessage (b : Body) (tick h : Nat) : Body :=
  let x := b.hart h
  if x.phase = .retired then b
  else
    let b1 := if h < 1024 ∧ x.unread 4 ≠ [] then b.bump clsThread h FThread.tickMissed 1 else b
    b1.putMsg h 4 [BitVec.ofNat 32 tick]

/-- Action 6 of Table 2.1. -/
def Body.postTicks (b : Body) (tick : Nat) : Body :=
  ((List.range 1024) ++ (List.range 4).map bivHart).foldl (fun (x : Body) h => x.tickMessage tick h) b.postTick

/-- What counts boundaries: the holding of locks (R362), quiet streams (R81), the drain of a DEVICE reset (R435), and
the TICK wake source (Table 18.6). -/
def Body.countTick (b : Body) (tick : Nat) : Body :=
  let b1 := b.ageLocks.quietStreams
  let b2 := { b1 with adm.draining := b1.adm.draining.map (fun n => n + 1) }
  if b2.fget clsPower 0 FPower.wakeTick = tick then b2.fire 3 else b2

/-- The actions of Table 2.1 after the first two, in their order, and what follows them in the boundary cycle. -/
def Body.boundaryActs (b : Body) (tm : Time) : Body :=
  let b1 := b.pitchBoundary tm
  let b2 := ((b1.openBanks tm.period).quotaRecompute).rollLoads tm
  let b3 := ((b2.basinCut tm b.sys.nLog).judgeFreezes).gateCycles tm
  ((b3.postTicks tm.tickNumber).countTick tm.tickNumber).scanWaits.settle tm

/-- The next boundary takes effect, in the first later cycle whose time is equal to it or later (R40, R44). -/
def Dev.boundary (d : Dev) : Dev :=
  if d.b.sys.base = .cold then d
  else
    let d1 := d.waitPast d.tm.nextBoundary
    ⟨d1.tm.cut, d1.b.boundaryActs d1.tm.cut⟩

/-- TICK_BOUNDARY (R44). -/
def execTickBoundary (s : State) : Host.Outcome State Fault Refusal := onDev (fun d => d.boundary) s

/-- Whether the next boundary is the apply boundary of a pending period change (R42). -/
def Time.changeDue (t : Time) : Bool := t.pendingChange == 1 && t.nextTick == t.applyTick

/-- PERIOD_CHANGE (R42): the boundary at which the scheduled period takes effect, where that is the next one. -/
def execPeriodChange (s : State) : Host.Outcome State Fault Refusal :=
  onDev (fun d => if d.tm.changeDue then d.boundary else d) s

/-- Whether the cut of the next boundary reaches the staleness deadline of a slot (R298). -/
def Dev.staleDue (d : Dev) (a : Nat) : Bool :=
  d.b.runs && (match mapFind a d.b.bas.deadlines with
    | some t => decide (0 ≤ tickDiff d.tm.nextTick t)
    | none => false)

/-- STALENESS_EXPIRY (R298): the boundary whose cut reaches the staleness deadline of slot `slot`, where that is the
next one. -/
def execStalenessExpiry (slot : Nat) (s : State) : Host.Outcome State Fault Refusal :=
  onDev (fun d => if d.staleDue slot then d.boundary else d) s

/-- REPITCH_APPLY (R394): the boundary at which a pending re-pitch is performed or abandoned. -/
def execRepitchApply (s : State) : Host.Outcome State Fault Refusal :=
  onDev (fun d => if d.b.pitchPending then d.boundary else d) s

end Sys2Proof.Machine
end

