-- ==== Sys2Proof/Machine/Branch.lean ====
section
/-! DEFINITION. Branches, jumps, calls and returns (spec/07, R184 to R186; spec/06, R152). -/

namespace Sys2Proof.Machine

/-- `a` plus 4 times a signed `w`-bit offset, modulo 2^16 (R173). -/
def branchTo (pc w off : Nat) : Nat := codeOf 16 (pc + 4 * signedOf w off)

/-- BCC (R184): one cycle when not taken, two when taken. -/
def execBcc (h : Nat) (f : FmtC) (s : State) : Host.Outcome State Fault Refusal :=
  insn h (wordC 0x10 f) (badWord (((Hart.reset.flags).holds f.cond.toNat).isNone) false)
    (fun _ b =>
      if (b.hart h).flags.holds f.cond.toNat = some true then .done b 2 (branchTo (b.hart h).pc 21 f.simm.toNat)
      else .done b 1 (b.nextPc h)) s

/-- The IE write of a Bivouac core that waits for its next JR takes effect (R400). -/
def Body.applyIe (b : Body) (h : Nat) : Body :=
  match (b.hart h).pendingIe with
  | some v => (b.modHart h (fun x => { x with pendingIe := none })).fset clsDevice (bivInst h) FBiv.ie (if v then 1 else 0)
  | none => b

/-- JR (R185): a target with bits 1:0 nonzero traps with ALIGN. -/
def execJr (h : Nat) (f : FmtB) (s : State) : Host.Outcome State Fault Refusal :=
  insn h (wordB 0x11 f) (badWord false (f.rd != 0 || f.imm != 0))
    (fun _ b =>
      let t := (b.reg h f.ra).toNat % 2 ^ 16
      if t % 4 ≠ 0 then .trap trAlign t else .done (b.applyIe h) 2 t) s

/-! The save area (R152, R186). -/

/-- STACK_LO and STACK_HI of a hart. -/
def Body.stackLo (b : Body) (h : Nat) : Nat :=
  if h < 1024 then b.fget clsThread h FThread.stackLo else b.fget clsDevice (bivInst h) FBiv.stackLo
def Body.stackHi (b : Body) (h : Nat) : Nat :=
  if h < 1024 then b.fget clsThread h FThread.stackHi else b.fget clsDevice (bivInst h) FBiv.stackHi

/-- The registers that a mask names, in rising order: bit k names w(16 + k). -/
def maskRegs (m : Nat) : List (BitVec 5) :=
  ((List.range 16).filter (fun k => m.testBit k)).map (fun k => BitVec.ofNat 5 (16 + k))

/-- The first of `n` words from `a` on that an access may not touch, as a trap. -/
def Body.wordsDenied (b : Body) (h a n : Nat) (r w : Bool) : Option Nat :=
  ((List.range n).map (fun k => a + 4 * k)).find? (fun x => (b.place h x 4 r w).isNone)

/-- Whether some of `n` words from `a` on lies behind a frozen channel. -/
def Body.wordsHeld (b : Body) (h a n : Nat) : Bool :=
  (List.range n).any (fun k => match b.place h (a + 4 * k) 4 false false with
    | some p => b.placeHeld p 4
    | none => false)

/-- Words stored from `a` upwards. -/
def Body.storeWords (b : Body) (h a : Nat) : List Word → Body
  | [] => b
  | v :: r => (match b.place h a 4 false true with
      | some p => b.storeAt h p 4 v.toNat
      | none => b).storeWords h (a + 4) r

/-- Words restored into registers from `a` upwards. -/
def Body.loadRegs (b : Body) (h a : Nat) : List (BitVec 5) → Body
  | [] => b
  | r :: l => (match b.place h a 4 true false with
      | some p => let v := b.loadAt h p 4; v.2.setReg h r (BitVec.ofNat 32 v.1)
      | none => b).loadRegs h (a + 4) l

/-- CALL and CALLR save a frame at w31 and go to `target` (R186). -/
def Body.call (b : Body) (h mask target : Nat) : Effect :=
  let sp := (b.reg h 31).toNat
  let regs := maskRegs mask
  let n := regs.length
  let base := (sp + 2 ^ 32 - 4 * (n + 1)) % 2 ^ 32
  if sp % 4 ≠ 0 then .trap trAlign sp
  else if base < b.stackLo h ∨ sp < base then .trap trStack base
  else match b.wordsDenied h base (n + 1) false true with
    | some a => .trap trRegion a
    | none =>
      if b.wordsHeld h base (n + 1) then .wait .none
      else
        let header : Word := BitVec.ofNat 32 (b.nextPc h * 2 ^ 16 + mask)
        let b1 := b.storeWords h base (header :: regs.map (fun r => b.reg h r))
        .done (b1.setReg h 31 (BitVec.ofNat 32 base)) (2 + (n + 1)) target

/-- CALL (R185, R186). -/
def execCall (h : Nat) (f : FmtD) (s : State) : Host.Outcome State Fault Refusal :=
  insnBuf h (wordD 0x12 f) none (fun _ b => b.call h f.mask.toNat (branchTo (b.hart h).pc 10 f.low.toNat)) s

/-- CALLR (R185, R186): the target comes from the register of bits 9:5. -/
def execCallr (h : Nat) (f : FmtD) (s : State) : Host.Outcome State Fault Refusal :=
  insnBuf h (wordD 0x13 f) (badWord false (f.low.extractLsb' 0 5 != 0))
    (fun _ b =>
      let t := (b.reg h (f.low.extractLsb' 5 5)).toNat % 2 ^ 16
      if t % 4 ≠ 0 then .trap trAlign t else b.call h f.mask.toNat t) s

/-- RET reads the header at w31 and restores what it names (R186). -/
def Body.ret (b : Body) (h : Nat) : Effect :=
  let sp := (b.reg h 31).toNat
  if sp % 4 ≠ 0 then .trap trAlign sp
  else if sp < b.stackLo h then .trap trStack sp
  else match b.place h sp 4 true false with
    | none => .trap trRegion sp
    | some p =>
      if b.placeHeld p 4 then .wait .none
      else
        let hd := b.loadAt h p 4
        let regs := maskRegs (hd.1 % 2 ^ 16)
        let n := regs.length
        let top := (sp + 4 * (n + 1) - 1) % 2 ^ 32
        if b.stackHi h < top ∨ top < sp then .trap trStack top
        else match b.wordsDenied h (sp + 4) n true false with
          | some a => .trap trRegion a
          | none =>
            if bitsAt hd.1 16 2 ≠ 0 then .trap trAlign (hd.1 / 2 ^ 16)
            else if b.wordsHeld h (sp + 4) n then .wait .none
            else
              let b1 := hd.2.loadRegs h (sp + 4) regs
              let b2 := if hd.1.testBit 15 then b1 else b1.setReg h 31 (BitVec.ofNat 32 (sp + 4 * (n + 1)))
              .done b2 (2 + (n + 1)) (hd.1 / 2 ^ 16)

/-- RET (R185, R186): all of bits 25:0 are reserved. -/
def execRet (h : Nat) (f : FmtD) (s : State) : Host.Outcome State Fault Refusal :=
  insnBuf h (wordD 0x14 f) (badWord false (f.mask != 0 || f.low != 0)) (fun _ b => b.ret h) s

end Sys2Proof.Machine
end

