-- ==== Sys2Proof/Machine/RunnelOps.lean ====
section
/-! DEFINITION. Runnel arithmetic: lanes, predicates, accumulators and transfers (spec/08, R220 to R224). -/

namespace Sys2Proof.Machine

/-! RLANE (R220, Table 8.8). -/

/-- A lane operation on two sample registers: `raw` rows need E = 0, `one` rows reserve rb. -/
def rlane (h minor : Nat) (f : FmtE) (raw one : Bool) (g : RCtx → Bool → Nat → Nat → LaneOut) (s : State) :
    Host.Outcome State Fault Refusal :=
  runnelInsn h 0x31 minor f false ((raw && f.e != 0) || (one && f.rb != 0))
    (fun b x v => b.ctxDone h x (v.writeSamples f.rd.toNat f.ep.toNat (fun n =>
      g v (f.e == 1) (laneOf 10 (v.sreg f.ra.toNat) n) (laneOf 10 (v.sreg f.rb.toNat) n)))) s

/-- A lane shift by w[rb] bits 7:0. -/
def rlaneShift (h minor : Nat) (f : FmtE) (g : Nat → Nat → Nat) (s : State) : Host.Outcome State Fault Refusal :=
  runnelInsn h 0x31 minor f false (f.e != 0)
    (fun b x v => b.ctxDone h x (v.writeSamples f.rd.toNat f.ep.toNat (fun n =>
      .plain (g (laneOf 10 (v.sreg f.ra.toNat) n) ((b.reg h f.rb).toNat % 256))))) s

/-- A lane quotient (R220). -/
def laneDiv (u : Bool) (a b : Int) : LaneOut :=
  if b = 0 then
    ⟨(if u then (if 0 < a then 1023 else 0) else if 0 < a then 511 else if a < 0 then 512 else 0), false, true⟩
  else .clamped (clampSample u (Int.tdiv a b))

/-- RADD (R220): a + b, clamped. -/
def execRadd (h : Nat) (f : FmtE) (s : State) : Host.Outcome State Fault Refusal :=
  rlane h 0 f false false (fun _ u a b => .clamped (clampSample u (sampleOf u a + sampleOf u b))) s
/-- RSUB (R220): a − b, clamped. -/
def execRsub (h : Nat) (f : FmtE) (s : State) : Host.Outcome State Fault Refusal :=
  rlane h 1 f false false (fun _ u a b => .clamped (clampSample u (sampleOf u a - sampleOf u b))) s
/-- RNEG (R220): −a, clamped. -/
def execRneg (h : Nat) (f : FmtE) (s : State) : Host.Outcome State Fault Refusal :=
  rlane h 2 f false true (fun _ u a _ => .clamped (clampSample u (-sampleOf u a))) s
/-- RABS (R220): the absolute value, clamped. -/
def execRabs (h : Nat) (f : FmtE) (s : State) : Host.Outcome State Fault Refusal :=
  rlane h 3 f false true (fun _ u a _ => .clamped (clampSample u (sampleOf u a).natAbs)) s
/-- RMIN (R220): the smaller. -/
def execRmin (h : Nat) (f : FmtE) (s : State) : Host.Outcome State Fault Refusal :=
  rlane h 4 f false false (fun _ u a b => .plain (if sampleOf u a ≤ sampleOf u b then a else b)) s
/-- RMAX (R220): the larger. -/
def execRmax (h : Nat) (f : FmtE) (s : State) : Host.Outcome State Fault Refusal :=
  rlane h 5 f false false (fun _ u a b => .plain (if sampleOf u a ≤ sampleOf u b then b else a)) s
/-- RMULF (R220): round(a × b, 9), clamped. -/
def execRmulf (h : Nat) (f : FmtE) (s : State) : Host.Outcome State Fault Refusal :=
  rlane h 6 f false false (fun v u a b => .clamped (clampSample u (roundShift v.rmode (sampleOf u a * sampleOf u b) 9))) s
/-- RDIV (R220): the integer quotient. -/
def execRdiv (h : Nat) (f : FmtE) (s : State) : Host.Outcome State Fault Refusal :=
  rlane h 7 f false false (fun _ u a b => laneDiv u (sampleOf u a) (sampleOf u b)) s
/-- RSHL (R220): logical left. -/
def execRshl (h : Nat) (f : FmtE) (s : State) : Host.Outcome State Fault Refusal :=
  rlaneShift h 8 f (fun c k => if 10 ≤ k then 0 else c * 2 ^ k % 1024) s
/-- RSHR (R220): logical right. -/
def execRshr (h : Nat) (f : FmtE) (s : State) : Host.Outcome State Fault Refusal :=
  rlaneShift h 9 f (fun c k => if 10 ≤ k then 0 else c / 2 ^ k) s
/-- RSAR (R220): arithmetic right, bit 9 as the sign. -/
def execRsar (h : Nat) (f : FmtE) (s : State) : Host.Outcome State Fault Refusal :=
  rlaneShift h 10 f (fun c k => codeOf 10 (signedOf 10 c / (2 ^ min k 10 : Nat))) s
/-- RAND (R220): a and b. -/
def execRand (h : Nat) (f : FmtE) (s : State) : Host.Outcome State Fault Refusal :=
  rlane h 11 f true false (fun _ _ a b => .plain (a &&& b)) s
/-- RLANE_ROR (R220): a or b. -/
def execRlaneRor (h : Nat) (f : FmtE) (s : State) : Host.Outcome State Fault Refusal :=
  rlane h 12 f true false (fun _ _ a b => .plain (a ||| b)) s
/-- RXOR (R220): a xor b. -/
def execRxor (h : Nat) (f : FmtE) (s : State) : Host.Outcome State Fault Refusal :=
  rlane h 13 f true false (fun _ _ a b => .plain (a ^^^ b)) s
/-- RSEL (R220): selected lanes take a and the others take b; every lane is written. -/
def execRsel (h : Nat) (f : FmtE) (s : State) : Host.Outcome State Fault Refusal :=
  runnelInsn h 0x31 14 f false (f.e != 0)
    (fun b x v => b.ctxDone h x (v.writeSamples f.rd.toNat 0 (fun n =>
      .plain (laneOf 10 (v.sreg (if v.selects f.ep.toNat n then f.ra.toNat else f.rb.toNat)) n)))) s
/-- RSMOV (R220): a. -/
def execRsmov (h : Nat) (f : FmtE) (s : State) : Host.Outcome State Fault Refusal :=
  rlane h 15 f true true (fun _ _ a _ => .plain a) s

/-! RPRED (R222, Table 8.9). -/

/-- A compare of lane codes into a predicate. -/
def rcompare (h minor : Nat) (f : FmtE) (raw : Bool) (g : Int → Int → Bool) (s : State) :
    Host.Outcome State Fault Refusal :=
  runnelInsn h 0x32 minor f false (predBad f.rd || (raw && f.e != 0))
    (fun b x v => b.ctxDone h x (v.writePreds f.rd.toNat f.ep.toNat (fun n =>
      g (sampleOf (f.e == 1) (laneOf 10 (v.sreg f.ra.toNat) n))
        (sampleOf (f.e == 1) (laneOf 10 (v.sreg f.rb.toNat) n))))) s

/-- A logical operation on predicates; `one` rows reserve rb. -/
def rpredOp (h minor : Nat) (f : FmtE) (one : Bool) (g : Bool → Bool → Bool) (s : State) :
    Host.Outcome State Fault Refusal :=
  runnelInsn h 0x32 minor f false
    (predBad f.rd || predBad f.ra || (if one then f.rb != 0 else predBad f.rb) || f.e != 0)
    (fun b x v => b.ctxDone h x (v.writePreds f.rd.toNat f.ep.toNat (fun n =>
      g ((v.pred f.ra.toNat).testBit n) ((v.pred f.rb.toNat).testBit n)))) s

/-- CEQ (R222). -/
def execCeq (h : Nat) (f : FmtE) (s : State) : Host.Outcome State Fault Refusal :=
  rcompare h 0 f true (fun a b => decide (a = b)) s
/-- CNE (R222). -/
def execCne (h : Nat) (f : FmtE) (s : State) : Host.Outcome State Fault Refusal :=
  rcompare h 1 f true (fun a b => decide (a ≠ b)) s
/-- CLT (R222). -/
def execClt (h : Nat) (f : FmtE) (s : State) : Host.Outcome State Fault Refusal :=
  rcompare h 2 f false (fun a b => decide (a < b)) s
/-- CLE (R222). -/
def execCle (h : Nat) (f : FmtE) (s : State) : Host.Outcome State Fault Refusal :=
  rcompare h 3 f false (fun a b => decide (a ≤ b)) s
/-- CGT (R222). -/
def execCgt (h : Nat) (f : FmtE) (s : State) : Host.Outcome State Fault Refusal :=
  rcompare h 4 f false (fun a b => decide (b < a)) s
/-- CGE (R222). -/
def execCge (h : Nat) (f : FmtE) (s : State) : Host.Outcome State Fault Refusal :=
  rcompare h 5 f false (fun a b => decide (b ≤ a)) s
/-- PAND (R222). -/
def execPand (h : Nat) (f : FmtE) (s : State) : Host.Outcome State Fault Refusal :=
  rpredOp h 6 f false (fun a b => a && b) s
/-- POR (R222). -/
def execPor (h : Nat) (f : FmtE) (s : State) : Host.Outcome State Fault Refusal :=
  rpredOp h 7 f false (fun a b => a || b) s
/-- PXOR (R222). -/
def execPxor (h : Nat) (f : FmtE) (s : State) : Host.Outcome State Fault Refusal :=
  rpredOp h 8 f false (fun a b => a != b) s
/-- PNOT (R222). -/
def execPnot (h : Nat) (f : FmtE) (s : State) : Host.Outcome State Fault Refusal :=
  rpredOp h 9 f true (fun a _ => !a) s

/-! RACC (R223, Table 8.10). -/

/-- Products into an accumulator; in a `mixed` row ra is read as U10 and rb as S10. -/
def rproduct (h minor : Nat) (f : FmtE) (mixed : Bool) (g : Int → Int → Int) (s : State) :
    Host.Outcome State Fault Refusal :=
  runnelInsn h 0x33 minor f false (accBad f.rd || (mixed && f.e != 0))
    (fun b x v => b.ctxDone h x (v.writeAccs f.rd.toNat f.ep.toNat (fun n =>
      .clamped (clampAcc (g (signedOf 32 (laneOf 32 (v.acc f.rd.toNat) n))
        (sampleOf (f.e == 1 || mixed) (laneOf 10 (v.sreg f.ra.toNat) n) *
          sampleOf (f.e == 1) (laneOf 10 (v.sreg f.rb.toNat) n))))))) s

/-- A clamped sum of two accumulators. -/
def raccPair (h minor : Nat) (f : FmtE) (g : Int → Int → Int) (s : State) : Host.Outcome State Fault Refusal :=
  runnelInsn h 0x33 minor f false (accBad f.rd || accBad f.ra || accBad f.rb || f.e != 0)
    (fun b x v => b.ctxDone h x (v.writeAccs f.rd.toNat f.ep.toNat (fun n =>
      .clamped (clampAcc (g (signedOf 32 (laneOf 32 (v.acc f.ra.toNat) n))
        (signedOf 32 (laneOf 32 (v.acc f.rb.toNat) n))))))) s

/-- An accumulator shift by w[rb] bits 7:0. -/
def raccShift (h minor : Nat) (f : FmtE) (g : Nat → Nat → Nat) (s : State) : Host.Outcome State Fault Refusal :=
  runnelInsn h 0x33 minor f false (accBad f.rd || accBad f.ra || f.e != 0)
    (fun b x v => b.ctxDone h x (v.writeAccs f.rd.toNat f.ep.toNat (fun n =>
      .plain (g (laneOf 32 (v.acc f.ra.toNat) n) ((b.reg h f.rb).toNat % 256))))) s

/-- RMUL (R223). -/
def execRmul (h : Nat) (f : FmtE) (s : State) : Host.Outcome State Fault Refusal :=
  rproduct h 0 f false (fun _ p => p) s
/-- RMAC (R223). -/
def execRmac (h : Nat) (f : FmtE) (s : State) : Host.Outcome State Fault Refusal :=
  rproduct h 1 f false (fun d p => d + p) s
/-- RMSU (R223). -/
def execRmsu (h : Nat) (f : FmtE) (s : State) : Host.Outcome State Fault Refusal :=
  rproduct h 2 f false (fun d p => d - p) s
/-- RMULUS (R223). -/
def execRmulus (h : Nat) (f : FmtE) (s : State) : Host.Outcome State Fault Refusal :=
  rproduct h 3 f true (fun _ p => p) s
/-- RMACUS (R223). -/
def execRmacus (h : Nat) (f : FmtE) (s : State) : Host.Outcome State Fault Refusal :=
  rproduct h 4 f true (fun d p => d + p) s
/-- RACC (R223): ad + a × 2^9. -/
def execRacc (h : Nat) (f : FmtE) (s : State) : Host.Outcome State Fault Refusal :=
  runnelInsn h 0x33 5 f false (accBad f.rd || f.rb != 0)
    (fun b x v => b.ctxDone h x (v.writeAccs f.rd.toNat f.ep.toNat (fun n =>
      .clamped (clampAcc (signedOf 32 (laneOf 32 (v.acc f.rd.toNat) n) +
        sampleOf (f.e == 1) (laneOf 10 (v.sreg f.ra.toNat) n) * 512))))) s
/-- RACLR (R223). -/
def execRaclr (h : Nat) (f : FmtE) (s : State) : Host.Outcome State Fault Refusal :=
  runnelInsn h 0x33 6 f false (accBad f.rd || f.ra != 0 || f.rb != 0 || f.e != 0)
    (fun b x v => b.ctxDone h x (v.writeAccs f.rd.toNat f.ep.toNat (fun _ => .plain 0))) s
/-- RAADD (R223). -/
def execRaadd (h : Nat) (f : FmtE) (s : State) : Host.Outcome State Fault Refusal :=
  raccPair h 7 f (fun a b => a + b) s
/-- RASUB (R223). -/
def execRasub (h : Nat) (f : FmtE) (s : State) : Host.Outcome State Fault Refusal :=
  raccPair h 8 f (fun a b => a - b) s
/-- RAMOV (R223). -/
def execRamov (h : Nat) (f : FmtE) (s : State) : Host.Outcome State Fault Refusal :=
  runnelInsn h 0x33 9 f false (accBad f.rd || accBad f.ra || f.rb != 0 || f.e != 0)
    (fun b x v => b.ctxDone h x (v.writeAccs f.rd.toNat f.ep.toNat (fun n =>
      .plain (laneOf 32 (v.acc f.ra.toNat) n)))) s
/-- RASHL (R223). -/
def execRashl (h : Nat) (f : FmtE) (s : State) : Host.Outcome State Fault Refusal :=
  raccShift h 10 f (fun c k => if 32 ≤ k then 0 else c * 2 ^ k % 2 ^ 32) s
/-- RASHR (R223). -/
def execRashr (h : Nat) (f : FmtE) (s : State) : Host.Outcome State Fault Refusal :=
  raccShift h 11 f (fun c k => if 32 ≤ k then 0 else c / 2 ^ k) s
/-- RASAR (R223). -/
def execRasar (h : Nat) (f : FmtE) (s : State) : Host.Outcome State Fault Refusal :=
  raccShift h 12 f (fun c k => codeOf 32 (signedOf 32 c / (2 ^ min k 32 : Nat))) s
/-- RASET (R223). -/
def execRaset (h : Nat) (f : FmtE) (s : State) : Host.Outcome State Fault Refusal :=
  runnelInsn h 0x33 13 f false (accBad f.rd || f.rb != 0 || f.e != 0)
    (fun b x v => b.ctxDone h x (v.writeAccs f.rd.toNat f.ep.toNat (fun _ => .plain (b.reg h f.ra).toNat))) s

/-! RXFER (R224, Table 8.11). -/

/-- The lane index in a word register. -/
def Body.laneIndex (b : Body) (h : Nat) (r : BitVec 5) : Nat := (b.reg h r).toNat % 32

/-- RNRW (R224). -/
def execRnrw (h : Nat) (f : FmtE) (s : State) : Host.Outcome State Fault Refusal :=
  runnelInsn h 0x34 0 f false (accBad f.ra)
    (fun b x v => b.ctxDone h x (v.writeSamples f.rd.toNat f.ep.toNat (fun n =>
      .clamped (clampSample (f.e == 1)
        (roundShift v.rmode (signedOf 32 (laneOf 32 (v.acc f.ra.toNat) n)) f.rb.toNat))))) s
/-- RBCAST (R224). -/
def execRbcast (h : Nat) (f : FmtE) (s : State) : Host.Outcome State Fault Refusal :=
  runnelInsn h 0x34 1 f false (f.rb != 0 || f.e != 0)
    (fun b x v => b.ctxDone h x (v.writeSamples f.rd.toNat f.ep.toNat (fun _ =>
      .plain ((b.reg h f.ra).toNat % 1024)))) s
/-- RINS (R224). -/
def execRins (h : Nat) (f : FmtE) (s : State) : Host.Outcome State Fault Refusal :=
  runnelInsn h 0x34 2 f false (f.ep != 0 || f.e != 0)
    (fun b x v => b.ctxDone h x (v.setSreg f.rd.toNat (setBits (v.sreg f.rd.toNat) (10 * b.laneIndex h f.rb) 10
      (b.reg h f.ra).toNat))) s
/-- REXT (R224). -/
def execRext (h : Nat) (f : FmtE) (s : State) : Host.Outcome State Fault Refusal :=
  runnelInsn h 0x34 3 f false (f.ep != 0)
    (fun b _ v => b.wordDone h f.rd
      (codeOf 32 (sampleOf (f.e == 1) (laneOf 10 (v.sreg f.ra.toNat) (b.laneIndex h f.rb))))) s
/-- RAINS (R224). -/
def execRains (h : Nat) (f : FmtE) (s : State) : Host.Outcome State Fault Refusal :=
  runnelInsn h 0x34 4 f false (accBad f.rd || f.ep != 0 || f.e != 0)
    (fun b x v => b.ctxDone h x (v.setAcc f.rd.toNat (setBits (v.acc f.rd.toNat) (32 * b.laneIndex h f.rb) 32
      (b.reg h f.ra).toNat))) s
/-- RAEXT (R224). -/
def execRaext (h : Nat) (f : FmtE) (s : State) : Host.Outcome State Fault Refusal :=
  runnelInsn h 0x34 5 f false (accBad f.ra || f.ep != 0 || f.e != 0)
    (fun b _ v => b.wordDone h f.rd (laneOf 32 (v.acc f.ra.toNat) (b.laneIndex h f.rb))) s
/-- RSUM (R224): a clamp sets WSAT. -/
def execRsum (h : Nat) (f : FmtE) (s : State) : Host.Outcome State Fault Refusal :=
  runnelInsn h 0x34 6 f false (accBad f.ra || f.rb != 0 || f.e != 0)
    (fun b x v =>
      let r := clampAcc ((List.range 32).map (fun n =>
        if v.selects f.ep.toNat n then signedOf 32 (laneOf 32 (v.acc f.ra.toNat) n) else 0)).sum
      (b.setCtx h x { v with wsat := v.wsat || r.2 }).wordDone h f.rd r.1) s
/-- RPCNT (R224). -/
def execRpcnt (h : Nat) (f : FmtE) (s : State) : Host.Outcome State Fault Refusal :=
  runnelInsn h 0x34 7 f false (predBad f.ra || f.rb != 0 || f.e != 0)
    (fun b _ v => b.wordDone h f.rd
      ((List.range 32).countP (fun n => v.selects f.ep.toNat n && (v.pred f.ra.toNat).testBit n))) s

end Sys2Proof.Machine
end

