-- ==== Sys2Proof/Machine/Dispatch.lean ====
section
/-! DEFINITION. The dispatch: one arm for each command, each a direct call of the command's meaning. -/

namespace Sys2Proof.Machine

def exec (i : Instr) (s : State) : Host.Outcome State Fault Refusal :=
  match i with
  | .resetNLow => Sys2Proof.Machine.execResetNLow s
  | .resetNRelease => Sys2Proof.Machine.execResetNRelease s
  | .suppliesLost => Sys2Proof.Machine.execSuppliesLost s
  | .sensorSample inst raw => Sys2Proof.Machine.execSensorSample inst raw s
  | .thermTrip sensor => Sys2Proof.Machine.execThermTrip sensor s
  | .pfail => Sys2Proof.Machine.execPfail s
  | .holdLift => Sys2Proof.Machine.execHoldLift s
  | .clockEdgeTimeout ck => Sys2Proof.Machine.execClockEdgeTimeout ck s
  | .clockFrequencyWindow ck ppb => Sys2Proof.Machine.execClockFrequencyWindow ck ppb s
  | .clockRestored ck => Sys2Proof.Machine.execClockRestored ck s
  | .bootComplete r => Sys2Proof.Machine.execBootComplete r s
  | .holdupMeasureDone senseMv dtUs => Sys2Proof.Machine.execHoldupMeasureDone senseMv dtUs s
  | .surveyComplete r => Sys2Proof.Machine.execSurveyComplete r s
  | .configRestore => Sys2Proof.Machine.execConfigRestore s
  | .tickBoundary => Sys2Proof.Machine.execTickBoundary s
  | .stalenessExpiry slot => Sys2Proof.Machine.execStalenessExpiry slot s
  | .gateEntryStart p => Sys2Proof.Machine.execGateEntryStart p s
  | .periodChange => Sys2Proof.Machine.execPeriodChange s
  | .linkHoldExpiry p => Sys2Proof.Machine.execLinkHoldExpiry p s
  | .streamReset n => Sys2Proof.Machine.execStreamReset n s
  | .waitCycleDeclare cluster group => Sys2Proof.Machine.execWaitCycleDeclare cluster group s
  | .lockHeldLong n => Sys2Proof.Machine.execLockHeldLong n s
  | .tentFrozen t => Sys2Proof.Machine.execTentFrozen t s
  | .freezeTimeout t => Sys2Proof.Machine.execFreezeTimeout t s
  | .strikeSettle t => Sys2Proof.Machine.execStrikeSettle t s
  | .repitchApply => Sys2Proof.Machine.execRepitchApply s
  | .shadowBlockCheck n => Sys2Proof.Machine.execShadowBlockCheck n s
  | .shadowRecheck n => Sys2Proof.Machine.execShadowRecheck n s
  | .agerScan n => Sys2Proof.Machine.execAgerScan n s
  | .bgTestStart m => Sys2Proof.Machine.execBgTestStart m s
  | .bgTestEnd m failing spare => Sys2Proof.Machine.execBgTestEnd m failing spare s
  | .counterCheckpoint => Sys2Proof.Machine.execCounterCheckpoint s
  | .storeWriteDone area => Sys2Proof.Machine.execStoreWriteDone area s
  | .ppsInEdge t => Sys2Proof.Machine.execPpsInEdge t s
  | .ppsOutEdge => Sys2Proof.Machine.execPpsOutEdge s
  | .ppsOutFall => Sys2Proof.Machine.execPpsOutFall s
  | .portLinkUp p fec speed => Sys2Proof.Machine.execPortLinkUp p fec speed s
  | .portLinkDown p => Sys2Proof.Machine.execPortLinkDown p s
  | .rxFrameStart p sof => Sys2Proof.Machine.execRxFrameStart p sof s
  | .rxBufferGrow p got => Sys2Proof.Machine.execRxBufferGrow p got s
  | .rxFrameEnd p got pcsError fcsGood => Sys2Proof.Machine.execRxFrameEnd p got pcsError fcsGood s
  | .pauseExpiry p cls => Sys2Proof.Machine.execPauseExpiry p cls s
  | .xoffRepeat p => Sys2Proof.Machine.execXoffRepeat p s
  | .bivouacRx direct => Sys2Proof.Machine.execBivouacRx direct s
  | .intakeEntry p => Sys2Proof.Machine.execIntakeEntry p s
  | .intakeDramStageReturn p => Sys2Proof.Machine.execIntakeDramStageReturn p s
  | .headgateCheck => Sys2Proof.Machine.execHeadgateCheck s
  | .dispatchSelect cluster => Sys2Proof.Machine.execDispatchSelect cluster s
  | .redispatchSelect cluster => Sys2Proof.Machine.execRedispatchSelect cluster s
  | .itemStart h => Sys2Proof.Machine.execItemStart h s
  | .threadSwitch core => Sys2Proof.Machine.execThreadSwitch core s
  | .cycleCapReached h => Sys2Proof.Machine.execCycleCapReached h s
  | .divertGraceExpiry h => Sys2Proof.Machine.execDivertGraceExpiry h s
  | .coreWatchdog core => Sys2Proof.Machine.execCoreWatchdog core s
  | .coreMemoryError core runnel => Sys2Proof.Machine.execCoreMemoryError core runnel s
  | .clusterRetire cluster => Sys2Proof.Machine.execClusterRetire cluster s
  | .threadTimerExpiry h => Sys2Proof.Machine.execThreadTimerExpiry h s
  | .taskTimerExpiry h => Sys2Proof.Machine.execTaskTimerExpiry h s
  | .requestReply h ep => Sys2Proof.Machine.execRequestReply h ep s
  | .directMessageDeliver h ep => Sys2Proof.Machine.execDirectMessageDeliver h ep s
  | .itemHandover h => Sys2Proof.Machine.execItemHandover h s
  | .logStoreEntry h => Sys2Proof.Machine.execLogStoreEntry h s
  | .releaseStart => Sys2Proof.Machine.execReleaseStart s
  | .diversionRelease => Sys2Proof.Machine.execDiversionRelease s
  | .egressStart p => Sys2Proof.Machine.execEgressStart p s
  | .transmitComplete p => Sys2Proof.Machine.execTransmitComplete p s
  | .redundEliminate p cls => Sys2Proof.Machine.execRedundEliminate p cls s
  | .basinApply => Sys2Proof.Machine.execBasinApply s
  | .snapshotFrame => Sys2Proof.Machine.execSnapshotFrame s
  | .tableSearch n => Sys2Proof.Machine.execTableSearch n s
  | .tableNext n => Sys2Proof.Machine.execTableNext n s
  | .tableInsert n => Sys2Proof.Machine.execTableInsert n s
  | .tableDelete n => Sys2Proof.Machine.execTableDelete n s
  | .flushByPort n => Sys2Proof.Machine.execFlushByPort n s
  | .flushStep n => Sys2Proof.Machine.execFlushStep n s
  | .learn n => Sys2Proof.Machine.execLearn n s
  | .tableEnable au prefixClass n on => Sys2Proof.Machine.execTableEnable au prefixClass n on s
  | .clearingDone prefixClass n => Sys2Proof.Machine.execClearingDone prefixClass n s
  | .lockGrant sem n => Sys2Proof.Machine.execLockGrant sem n s
  | .windowAcquire w => Sys2Proof.Machine.execWindowAcquire w s
  | .windowRelease w => Sys2Proof.Machine.execWindowRelease w s
  | .windowP w => Sys2Proof.Machine.execWindowP w s
  | .windowV w => Sys2Proof.Machine.execWindowV w s
  | .reqCancel w => Sys2Proof.Machine.execReqCancel w s
  | .doorbellRing au src => Sys2Proof.Machine.execDoorbellRing au src s
  | .routerDeliver => Sys2Proof.Machine.execRouterDeliver s
  | .hostComplete au src => Sys2Proof.Machine.execHostComplete au src s
  | .vectorUnmask v => Sys2Proof.Machine.execVectorUnmask v s
  | .hostDoorbell t ring whole v => Sys2Proof.Machine.execHostDoorbell t ring whole v s
  | .txRingServe entry => Sys2Proof.Machine.execTxRingServe entry s
  | .txDmaComplete ring data => Sys2Proof.Machine.execTxDmaComplete ring data s
  | .txOutcomeWriteback ring => Sys2Proof.Machine.execTxOutcomeWriteback ring s
  | .rxRingDeliver t cls entry => Sys2Proof.Machine.execRxRingDeliver t cls entry s
  | .windowAccess t off w => Sys2Proof.Machine.execWindowAccess t off w s
  | .apertureAccess t off len w => Sys2Proof.Machine.execApertureAccess t off len w s
  | .pcieReset => Sys2Proof.Machine.execPcieReset s
  | .hostReset au t => Sys2Proof.Machine.execHostReset au t s
  | .pitch au t => Sys2Proof.Machine.execPitch au t s
  | .freeze au t => Sys2Proof.Machine.execFreeze au t s
  | .unfreeze au t => Sys2Proof.Machine.execUnfreeze au t s
  | .save au t => Sys2Proof.Machine.execSave au t s
  | .saveDone t => Sys2Proof.Machine.execSaveDone t s
  | .restore au t => Sys2Proof.Machine.execRestore au t s
  | .restoreDone t image => Sys2Proof.Machine.execRestoreDone t image s
  | .strike au t => Sys2Proof.Machine.execStrike au t s
  | .repitch au => Sys2Proof.Machine.execRepitch au s
  | .epochSwap au => Sys2Proof.Machine.execEpochSwap au s
  | .gateListSwap au p => Sys2Proof.Machine.execGateListSwap au p s
  | .arm au => Sys2Proof.Machine.execArm au s
  | .timeStep au v => Sys2Proof.Machine.execTimeStep au v s
  | .slew au v => Sys2Proof.Machine.execSlew au v s
  | .applyTick au v => Sys2Proof.Machine.execApplyTick au v s
  | .ppsOutNextWrite au v => Sys2Proof.Machine.execPpsOutNextWrite au v s
  | .txTsLatch au p => Sys2Proof.Machine.execTxTsLatch au p s
  | .txTsTagRead au p => Sys2Proof.Machine.execTxTsTagRead au p s
  | .lowWordLatch au a => Sys2Proof.Machine.execLowWordLatch au a s
  | .counterReadClear au a => Sys2Proof.Machine.execCounterReadClear au a s
  | .hwReset au q => Sys2Proof.Machine.execHwReset au q s
  | .flagSet au q flags => Sys2Proof.Machine.execFlagSet au q flags s
  | .lwReset au pool => Sys2Proof.Machine.execLwReset au pool s
  | .force au slot => Sys2Proof.Machine.execForce au slot s
  | .unforce au slot => Sys2Proof.Machine.execUnforce au slot s
  | .cfgIndexWrite au slot v => Sys2Proof.Machine.execCfgIndexWrite au slot v s
  | .channelThaw au ch retryFails => Sys2Proof.Machine.execChannelThaw au ch retryFails s
  | .channelFreeze ch f => Sys2Proof.Machine.execChannelFreeze ch f s
  | .subchannelCommand ch sub c => Sys2Proof.Machine.execSubchannelCommand ch sub c s
  | .dramComplete ch n e => Sys2Proof.Machine.execDramComplete ch n e s
  | .dramRefresh ch rank => Sys2Proof.Machine.execDramRefresh ch rank s
  | .dqsRetrain ch rank => Sys2Proof.Machine.execDqsRetrain ch rank s
  | .scrubRead ch corrected => Sys2Proof.Machine.execScrubRead ch corrected s
  | .mgmtTimeout => Sys2Proof.Machine.execMgmtTimeout s
  | .crossingResync x => Sys2Proof.Machine.execCrossingResync x s
  | .deviceResetStart => Sys2Proof.Machine.execDeviceResetStart s
  | .drainSettle => Sys2Proof.Machine.execDrainSettle s
  | .firmwareHandover => Sys2Proof.Machine.execFirmwareHandover s
  | .fwReady au => Sys2Proof.Machine.execFwReady au s
  | .fwReadyTimeout => Sys2Proof.Machine.execFwReadyTimeout s
  | .dormantEntry => Sys2Proof.Machine.execDormantEntry s
  | .wake src => Sys2Proof.Machine.execWake src s
  | .bivouacInterrupt j => Sys2Proof.Machine.execBivouacInterrupt j s
  | .bivouacWatchdog j => Sys2Proof.Machine.execBivouacWatchdog j s
  | .kick au j => Sys2Proof.Machine.execKick au j s
  | .txRecordGo x w => Sys2Proof.Machine.execTxRecordGo x w s
  | .mailboxGo w request => Sys2Proof.Machine.execMailboxGo w request s
  | .keyClear au k => Sys2Proof.Machine.execKeyClear au k s
  | .debugHalt au h => Sys2Proof.Machine.execDebugHalt au h s
  | .debugResume au h => Sys2Proof.Machine.execDebugResume au h s
  | .debugStep au h => Sys2Proof.Machine.execDebugStep au h s
  | .debugReset au h => Sys2Proof.Machine.execDebugReset au h s
  | .regDataAccess au h w => Sys2Proof.Machine.execRegDataAccess au h w s
  | .registerWrite au a w => Sys2Proof.Machine.execRegisterWrite au a w s
  | .echo m => Sys2Proof.Machine.execEcho m s
  | .identify m => Sys2Proof.Machine.execIdentify m s
  | .objRead m => Sys2Proof.Machine.execObjRead m s
  | .objWrite m => Sys2Proof.Machine.execObjWrite m s
  | .objModify m => Sys2Proof.Machine.execObjModify m s
  | .modeSet m => Sys2Proof.Machine.execModeSet m s
  | .thaw m => Sys2Proof.Machine.execThaw m s
  | .resetCmd m => Sys2Proof.Machine.execReset m s
  | .loadImem m => Sys2Proof.Machine.execLoadImem m s
  | .readImem m => Sys2Proof.Machine.execReadImem m s
  | .storeSave m => Sys2Proof.Machine.execStoreSave m s
  | .storeRead m => Sys2Proof.Machine.execStoreRead m s
  | .restoreFactory m => Sys2Proof.Machine.execRestoreFactory m s
  | .setKey m => Sys2Proof.Machine.execSetKey m s
  | .modRead m module => Sys2Proof.Machine.execModRead m module s
  | .modWrite m module => Sys2Proof.Machine.execModWrite m module s
  | .fwWrite m => Sys2Proof.Machine.execFwWrite m s
  | .fwActivate m => Sys2Proof.Machine.execFwActivate m s
  | .add h f => Sys2Proof.Machine.execAdd h f s
  | .sub h f => Sys2Proof.Machine.execSub h f s
  | .adds h f => Sys2Proof.Machine.execAdds h f s
  | .subs h f => Sys2Proof.Machine.execSubs h f s
  | .neg h f => Sys2Proof.Machine.execNeg h f s
  | .andI h f => Sys2Proof.Machine.execAnd h f s
  | .orI h f => Sys2Proof.Machine.execOr h f s
  | .xorI h f => Sys2Proof.Machine.execXor h f s
  | .andn h f => Sys2Proof.Machine.execAndn h f s
  | .shl h f => Sys2Proof.Machine.execShl h f s
  | .shr h f => Sys2Proof.Machine.execShr h f s
  | .sar h f => Sys2Proof.Machine.execSar h f s
  | .rol h f => Sys2Proof.Machine.execRol h f s
  | .ror h f => Sys2Proof.Machine.execRor h f s
  | .mul h f => Sys2Proof.Machine.execMul h f s
  | .mulh h f => Sys2Proof.Machine.execMulh h f s
  | .mulhu h f => Sys2Proof.Machine.execMulhu h f s
  | .divI h f => Sys2Proof.Machine.execDiv h f s
  | .divu h f => Sys2Proof.Machine.execDivu h f s
  | .rem h f => Sys2Proof.Machine.execRem h f s
  | .remu h f => Sys2Proof.Machine.execRemu h f s
  | .min h f => Sys2Proof.Machine.execMin h f s
  | .max h f => Sys2Proof.Machine.execMax h f s
  | .minu h f => Sys2Proof.Machine.execMinu h f s
  | .maxu h f => Sys2Proof.Machine.execMaxu h f s
  | .clz h f => Sys2Proof.Machine.execClz h f s
  | .popc h f => Sys2Proof.Machine.execPopc h f s
  | .bswap h f => Sys2Proof.Machine.execBswap h f s
  | .addi h f => Sys2Proof.Machine.execAddi h f s
  | .subi h f => Sys2Proof.Machine.execSubi h f s
  | .andi h f => Sys2Proof.Machine.execAndi h f s
  | .ori h f => Sys2Proof.Machine.execOri h f s
  | .xori h f => Sys2Proof.Machine.execXori h f s
  | .lui h f => Sys2Proof.Machine.execLui h f s
  | .shi h f => Sys2Proof.Machine.execShi h f s
  | .bfx h f => Sys2Proof.Machine.execBfx h f s
  | .bcc h f => Sys2Proof.Machine.execBcc h f s
  | .jr h f => Sys2Proof.Machine.execJr h f s
  | .call h f => Sys2Proof.Machine.execCall h f s
  | .callr h f => Sys2Proof.Machine.execCallr h f s
  | .ret h f => Sys2Proof.Machine.execRet h f s
  | .ldb h f => Sys2Proof.Machine.execLdb h f s
  | .ldbu h f => Sys2Proof.Machine.execLdbu h f s
  | .ldh h f => Sys2Proof.Machine.execLdh h f s
  | .ldhu h f => Sys2Proof.Machine.execLdhu h f s
  | .ldw h f => Sys2Proof.Machine.execLdw h f s
  | .stb h f => Sys2Proof.Machine.execStb h f s
  | .sth h f => Sys2Proof.Machine.execSth h f s
  | .stw h f => Sys2Proof.Machine.execStw h f s
  | .sstw h f => Sys2Proof.Machine.execSstw h f s
  | .ssadd h f => Sys2Proof.Machine.execSsadd h f s
  | .atomFadd h f => Sys2Proof.Machine.execAtomFadd h f s
  | .atomSwap h f => Sys2Proof.Machine.execAtomSwap h f s
  | .atomCas h f => Sys2Proof.Machine.execAtomCas h f s
  | .batomFadd h f => Sys2Proof.Machine.execBatomFadd h f s
  | .batomSwap h f => Sys2Proof.Machine.execBatomSwap h f s
  | .batomCas h f => Sys2Proof.Machine.execBatomCas h f s
  | .chr h f => Sys2Proof.Machine.execChr h f s
  | .chw h f => Sys2Proof.Machine.execChw h f s
  | .waitI h f => Sys2Proof.Machine.execWait h f s
  | .frd h f => Sys2Proof.Machine.execFrd h f s
  | .brd h f => Sys2Proof.Machine.execBrd h f s
  | .drd h f => Sys2Proof.Machine.execDrd h f s
  | .treq h f => Sys2Proof.Machine.execTreq h f s
  | .lkacq h f => Sys2Proof.Machine.execLkacq h f s
  | .lkrel h f => Sys2Proof.Machine.execLkrel h f s
  | .lkrelc h f => Sys2Proof.Machine.execLkrelc h f s
  | .semp h f => Sys2Proof.Machine.execSemp h f s
  | .semv h f => Sys2Proof.Machine.execSemv h f s
  | .semvc h f => Sys2Proof.Machine.execSemvc h f s
  | .stg h f => Sys2Proof.Machine.execStg h f s
  | .tfset h f => Sys2Proof.Machine.execTfset h f s
  | .tfclr h f => Sys2Proof.Machine.execTfclr h f s
  | .tarm h f => Sys2Proof.Machine.execTarm h f s
  | .qarm h f => Sys2Proof.Machine.execQarm h f s
  | .nop h f => Sys2Proof.Machine.execNop h f s
  | .commitI h f => Sys2Proof.Machine.execCommit h f s
  | .divert h f => Sys2Proof.Machine.execDivert h f s
  | .tret h f => Sys2Proof.Machine.execTret h f s
  | .breakI h f => Sys2Proof.Machine.execBreak h f s
  | .mff h f => Sys2Proof.Machine.execMff h f s
  | .mtf h f => Sys2Proof.Machine.execMtf h f s
  | .rdt h f => Sys2Proof.Machine.execRdt h f s
  | .rdth h f => Sys2Proof.Machine.execRdth h f s
  | .rdtick h f => Sys2Proof.Machine.execRdtick h f s
  | .ord h f => Sys2Proof.Machine.execOrd h f s
  | .owr h f => Sys2Proof.Machine.execOwr h f s
  | .lstat h f => Sys2Proof.Machine.execLstat h f s
  | .claim h f => Sys2Proof.Machine.execClaim h f s
  | .cplt h f => Sys2Proof.Machine.execCplt h f s
  | .rbind h f => Sys2Proof.Machine.execRbind h f s
  | .rfree h f => Sys2Proof.Machine.execRfree h f s
  | .rsave h f => Sys2Proof.Machine.execRsave h f s
  | .rrestore h f => Sys2Proof.Machine.execRrestore h f s
  | .rmfc h f => Sys2Proof.Machine.execRmfc h f s
  | .rmtc h f => Sys2Proof.Machine.execRmtc h f s
  | .rfence h f => Sys2Proof.Machine.execRfence h f s
  | .radd h f => Sys2Proof.Machine.execRadd h f s
  | .rsub h f => Sys2Proof.Machine.execRsub h f s
  | .rneg h f => Sys2Proof.Machine.execRneg h f s
  | .rabs h f => Sys2Proof.Machine.execRabs h f s
  | .rmin h f => Sys2Proof.Machine.execRmin h f s
  | .rmax h f => Sys2Proof.Machine.execRmax h f s
  | .rmulf h f => Sys2Proof.Machine.execRmulf h f s
  | .rdiv h f => Sys2Proof.Machine.execRdiv h f s
  | .rshl h f => Sys2Proof.Machine.execRshl h f s
  | .rshr h f => Sys2Proof.Machine.execRshr h f s
  | .rsar h f => Sys2Proof.Machine.execRsar h f s
  | .rand h f => Sys2Proof.Machine.execRand h f s
  | .rlaneRor h f => Sys2Proof.Machine.execRlaneRor h f s
  | .rxor h f => Sys2Proof.Machine.execRxor h f s
  | .rsel h f => Sys2Proof.Machine.execRsel h f s
  | .rsmov h f => Sys2Proof.Machine.execRsmov h f s
  | .ceq h f => Sys2Proof.Machine.execCeq h f s
  | .cne h f => Sys2Proof.Machine.execCne h f s
  | .clt h f => Sys2Proof.Machine.execClt h f s
  | .cle h f => Sys2Proof.Machine.execCle h f s
  | .cgt h f => Sys2Proof.Machine.execCgt h f s
  | .cge h f => Sys2Proof.Machine.execCge h f s
  | .pand h f => Sys2Proof.Machine.execPand h f s
  | .por h f => Sys2Proof.Machine.execPor h f s
  | .pxor h f => Sys2Proof.Machine.execPxor h f s
  | .pnot h f => Sys2Proof.Machine.execPnot h f s
  | .rmul h f => Sys2Proof.Machine.execRmul h f s
  | .rmac h f => Sys2Proof.Machine.execRmac h f s
  | .rmsu h f => Sys2Proof.Machine.execRmsu h f s
  | .rmulus h f => Sys2Proof.Machine.execRmulus h f s
  | .rmacus h f => Sys2Proof.Machine.execRmacus h f s
  | .racc h f => Sys2Proof.Machine.execRacc h f s
  | .raclr h f => Sys2Proof.Machine.execRaclr h f s
  | .raadd h f => Sys2Proof.Machine.execRaadd h f s
  | .rasub h f => Sys2Proof.Machine.execRasub h f s
  | .ramov h f => Sys2Proof.Machine.execRamov h f s
  | .rashl h f => Sys2Proof.Machine.execRashl h f s
  | .rashr h f => Sys2Proof.Machine.execRashr h f s
  | .rasar h f => Sys2Proof.Machine.execRasar h f s
  | .raset h f => Sys2Proof.Machine.execRaset h f s
  | .rnrw h f => Sys2Proof.Machine.execRnrw h f s
  | .rbcast h f => Sys2Proof.Machine.execRbcast h f s
  | .rins h f => Sys2Proof.Machine.execRins h f s
  | .rext h f => Sys2Proof.Machine.execRext h f s
  | .rains h f => Sys2Proof.Machine.execRains h f s
  | .raext h f => Sys2Proof.Machine.execRaext h f s
  | .rsum h f => Sys2Proof.Machine.execRsum h f s
  | .rpcnt h f => Sys2Proof.Machine.execRpcnt h f s
  | .rld h minor f => Sys2Proof.Machine.execRld h minor f s
  | .rst h minor f => Sys2Proof.Machine.execRst h minor f s
  | .suppliesReturn => Sys2Proof.Machine.execSuppliesReturn s
  | .scopeResetStart scope => Sys2Proof.Machine.execScopeResetStart scope s
  | .timeBaseWrap => Sys2Proof.Machine.execTimeBaseWrap s
  | .memoryUncorrectable m addr j => Sys2Proof.Machine.execMemoryUncorrectable m addr j s

end Sys2Proof.Machine
end

