-- ==== Sys2Proof/Machine/Fetch.lean ====
section
/-! DEFINITION. Instruction words (spec/07, R173 to R175; spec/08, R209, R216): what a 32-bit word spells, and what a hart does
with the word at its PC. The table gives instructions no bits, so commands name them and no command carries a word
(assumption log 3). -/

namespace Sys2Proof.Machine

/-! The fields of Table 7.1. -/

def fmtA (w : Nat) : FmtA :=
  ⟨BitVec.ofNat 5 (w / 2 ^ 21), BitVec.ofNat 5 (w / 2 ^ 16), BitVec.ofNat 5 (w / 2 ^ 11), BitVec.ofNat 4 w⟩
def fmtB (w : Nat) : FmtB := ⟨BitVec.ofNat 5 (w / 2 ^ 21), BitVec.ofNat 5 (w / 2 ^ 16), BitVec.ofNat 16 w⟩
def fmtC (w : Nat) : FmtC := ⟨BitVec.ofNat 5 (w / 2 ^ 21), BitVec.ofNat 21 w⟩
def fmtD (w : Nat) : FmtD := ⟨BitVec.ofNat 16 (w / 2 ^ 10), BitVec.ofNat 10 w⟩
def fmtE (w : Nat) : FmtE :=
  ⟨BitVec.ofNat 5 (w / 2 ^ 21), BitVec.ofNat 5 (w / 2 ^ 16), BitVec.ofNat 5 (w / 2 ^ 11), BitVec.ofNat 4 (w / 2 ^ 3),
    BitVec.ofNat 1 (w / 2 ^ 2), BitVec.ofNat 2 w⟩
def fmtM (w : Nat) : FmtM :=
  ⟨BitVec.ofNat 5 (w / 2 ^ 21), BitVec.ofNat 5 (w / 2 ^ 16), BitVec.ofNat 2 (w / 2 ^ 14), BitVec.ofNat 14 w⟩

/-- What an instruction does. -/
abbrev Meaning := State → Host.Outcome State Fault Refusal

/-! The operations of the majors that have minors; another minor is undefined. -/

/-- Major 0x00, ALU (Table 7.4). -/
def decodeAlu (h : Nat) (f : FmtA) : Nat → Option Meaning
  | 0x1 => some (execAdd h f)
  | 0x2 => some (execSub h f)
  | 0x3 => some (execAdds h f)
  | 0x4 => some (execSubs h f)
  | 0x5 => some (execNeg h f)
  | 0x8 => some (execAnd h f)
  | 0x9 => some (execOr h f)
  | 0xA => some (execXor h f)
  | 0xB => some (execAndn h f)
  | 0x10 => some (execShl h f)
  | 0x11 => some (execShr h f)
  | 0x12 => some (execSar h f)
  | 0x13 => some (execRol h f)
  | 0x14 => some (execRor h f)
  | 0x18 => some (execMul h f)
  | 0x19 => some (execMulh h f)
  | 0x1A => some (execMulhu h f)
  | 0x1C => some (execDiv h f)
  | 0x1D => some (execDivu h f)
  | 0x1E => some (execRem h f)
  | 0x1F => some (execRemu h f)
  | 0x20 => some (execMin h f)
  | 0x21 => some (execMax h f)
  | 0x22 => some (execMinu h f)
  | 0x23 => some (execMaxu h f)
  | 0x28 => some (execClz h f)
  | 0x29 => some (execPopc h f)
  | 0x2A => some (execBswap h f)
  | _ => none

/-- Major 0x24. -/
def decode24 (h : Nat) (f : FmtE) : Nat → Option Meaning
  | 0 => some (execChr h f)
  | 1 => some (execChw h f)
  | _ => none

/-- Major 0x26. -/
def decode26 (h : Nat) (f : FmtE) : Nat → Option Meaning
  | 0 => some (execFrd h f)
  | 1 => some (execBrd h f)
  | 2 => some (execDrd h f)
  | 3 => some (execTreq h f)
  | _ => none

/-- Major 0x27. -/
def decode27 (h : Nat) (f : FmtE) : Nat → Option Meaning
  | 0 => some (execLkacq h f)
  | 1 => some (execLkrel h f)
  | 2 => some (execLkrelc h f)
  | 3 => some (execSemp h f)
  | 4 => some (execSemv h f)
  | 5 => some (execSemvc h f)
  | _ => none

/-- Major 0x2B. -/
def decode2B (h : Nat) (f : FmtE) : Nat → Option Meaning
  | 0 => some (execTarm h f)
  | 1 => some (execQarm h f)
  | _ => none

/-- Major 0x30. -/
def decode30 (h : Nat) (f : FmtE) : Nat → Option Meaning
  | 0 => some (execRbind h f)
  | 1 => some (execRfree h f)
  | 2 => some (execRsave h f)
  | 3 => some (execRrestore h f)
  | 4 => some (execRmfc h f)
  | 5 => some (execRmtc h f)
  | 6 => some (execRfence h f)
  | _ => none

/-- Major 0x31. -/
def decode31 (h : Nat) (f : FmtE) : Nat → Option Meaning
  | 0 => some (execRadd h f)
  | 1 => some (execRsub h f)
  | 2 => some (execRneg h f)
  | 3 => some (execRabs h f)
  | 4 => some (execRmin h f)
  | 5 => some (execRmax h f)
  | 6 => some (execRmulf h f)
  | 7 => some (execRdiv h f)
  | 8 => some (execRshl h f)
  | 9 => some (execRshr h f)
  | 10 => some (execRsar h f)
  | 11 => some (execRand h f)
  | 12 => some (execRlaneRor h f)
  | 13 => some (execRxor h f)
  | 14 => some (execRsel h f)
  | 15 => some (execRsmov h f)
  | _ => none

/-- Major 0x32. -/
def decode32 (h : Nat) (f : FmtE) : Nat → Option Meaning
  | 0 => some (execCeq h f)
  | 1 => some (execCne h f)
  | 2 => some (execClt h f)
  | 3 => some (execCle h f)
  | 4 => some (execCgt h f)
  | 5 => some (execCge h f)
  | 6 => some (execPand h f)
  | 7 => some (execPor h f)
  | 8 => some (execPxor h f)
  | 9 => some (execPnot h f)
  | _ => none

/-- Major 0x33. -/
def decode33 (h : Nat) (f : FmtE) : Nat → Option Meaning
  | 0 => some (execRmul h f)
  | 1 => some (execRmac h f)
  | 2 => some (execRmsu h f)
  | 3 => some (execRmulus h f)
  | 4 => some (execRmacus h f)
  | 5 => some (execRacc h f)
  | 6 => some (execRaclr h f)
  | 7 => some (execRaadd h f)
  | 8 => some (execRasub h f)
  | 9 => some (execRamov h f)
  | 10 => some (execRashl h f)
  | 11 => some (execRashr h f)
  | 12 => some (execRasar h f)
  | 13 => some (execRaset h f)
  | _ => none

/-- Major 0x34. -/
def decode34 (h : Nat) (f : FmtE) : Nat → Option Meaning
  | 0 => some (execRnrw h f)
  | 1 => some (execRbcast h f)
  | 2 => some (execRins h f)
  | 3 => some (execRext h f)
  | 4 => some (execRains h f)
  | 5 => some (execRaext h f)
  | 6 => some (execRsum h f)
  | 7 => some (execRpcnt h f)
  | _ => none

/-- Major 0x3E. -/
def decode3E (h : Nat) (f : FmtE) : Nat → Option Meaning
  | 0 => some (execOrd h f)
  | 1 => some (execOwr h f)
  | 2 => some (execLstat h f)
  | 3 => some (execClaim h f)
  | 4 => some (execCplt h f)
  | _ => none

/-- Major 0x3F. -/
def decode3F (h : Nat) (f : FmtE) : Nat → Option Meaning
  | 0 => some (execNop h f)
  | 1 => some (execCommit h f)
  | 2 => some (execDivert h f)
  | 3 => some (execTret h f)
  | 4 => some (execBreak h f)
  | 5 => some (execMff h f)
  | 6 => some (execMtf h f)
  | 7 => some (execRdt h f)
  | 8 => some (execRdth h f)
  | 9 => some (execRdtick h f)
  | _ => none

/-- The atomics: majors 0x22 and 0x23. -/
def decodeAtom (h : Nat) (f : FmtA) (basin : Bool) : Nat → Option Meaning
  | 0 => some (if basin then execBatomFadd h f else execAtomFadd h f)
  | 1 => some (if basin then execBatomSwap h f else execAtomSwap h f)
  | 2 => some (if basin then execBatomCas h f else execAtomCas h f)
  | _ => none

/-- What the word does on hart `h` (Tables 7.1 and 7.2), if its major and its selecting field are defined. -/
def decodeMajor (h w : Nat) : Option Meaning :=
  match w / 2 ^ 26 with
  | 0x00 => decodeAlu h (fmtA w) (w / 2 ^ 4 % 2 ^ 7)
  | 0x01 => some (execAddi h (fmtB w))
  | 0x02 => some (execSubi h (fmtB w))
  | 0x03 => some (execAndi h (fmtB w))
  | 0x04 => some (execOri h (fmtB w))
  | 0x05 => some (execXori h (fmtB w))
  | 0x06 => some (execLui h (fmtB w))
  | 0x07 => some (execShi h (fmtB w))
  | 0x08 => some (execBfx h (fmtB w))
  | 0x10 => some (execBcc h (fmtC w))
  | 0x11 => some (execJr h (fmtB w))
  | 0x12 => some (execCall h (fmtD w))
  | 0x13 => some (execCallr h (fmtD w))
  | 0x14 => some (execRet h (fmtD w))
  | 0x18 => some (execLdb h (fmtM w))
  | 0x19 => some (execLdbu h (fmtM w))
  | 0x1A => some (execLdh h (fmtM w))
  | 0x1B => some (execLdhu h (fmtM w))
  | 0x1C => some (execLdw h (fmtM w))
  | 0x1D => some (execStb h (fmtM w))
  | 0x1E => some (execSth h (fmtM w))
  | 0x1F => some (execStw h (fmtM w))
  | 0x20 => some (execSstw h (fmtM w))
  | 0x21 => some (execSsadd h (fmtM w))
  | 0x22 => decodeAtom h (fmtA w) false (w / 2 ^ 4 % 2 ^ 7)
  | 0x23 => decodeAtom h (fmtA w) true (w / 2 ^ 4 % 2 ^ 7)
  | 0x24 => decode24 h (fmtE w) (w / 2 ^ 7 % 2 ^ 4)
  | 0x25 => some (execWait h (fmtB w))
  | 0x26 => decode26 h (fmtE w) (w / 2 ^ 7 % 2 ^ 4)
  | 0x27 => decode27 h (fmtE w) (w / 2 ^ 7 % 2 ^ 4)
  | 0x28 => some (execStg h (fmtB w))
  | 0x29 => some (execTfset h (fmtB w))
  | 0x2A => some (execTfclr h (fmtB w))
  | 0x2B => decode2B h (fmtE w) (w / 2 ^ 7 % 2 ^ 4)
  | 0x30 => decode30 h (fmtE w) (w / 2 ^ 7 % 2 ^ 4)
  | 0x31 => decode31 h (fmtE w) (w / 2 ^ 7 % 2 ^ 4)
  | 0x32 => decode32 h (fmtE w) (w / 2 ^ 7 % 2 ^ 4)
  | 0x33 => decode33 h (fmtE w) (w / 2 ^ 7 % 2 ^ 4)
  | 0x34 => decode34 h (fmtE w) (w / 2 ^ 7 % 2 ^ 4)
  | 0x35 => some (execRld h (BitVec.ofNat 4 (w / 2 ^ 7)) (fmtE w))
  | 0x36 => some (execRst h (BitVec.ofNat 4 (w / 2 ^ 7)) (fmtE w))
  | 0x3E => decode3E h (fmtE w) (w / 2 ^ 7 % 2 ^ 4)
  | 0x3F => decode3F h (fmtE w) (w / 2 ^ 7 % 2 ^ 4)
  | _ => none

/-- The trap of a word that spells no instruction, in the order of R175: a reserved major, PRIVILEGE in a data-plane thread, an
undefined selecting field. Later checks are the instruction's own. -/
def wordTrap (h w : Nat) : Nat := if w / 2 ^ 26 = 0x3E ∧ h < 1024 then trPrivilege else trReserved

/-- The instruction word at a hart's PC (R173, R398). -/
def Body.wordAt (b : Body) (h : Nat) : Nat := if h < 1024 then b.insnAt h else b.bivWord (h - 1024)

/-- A hart issues the word at its PC: the instruction that it spells, or the trap of its decoding. -/
def issueAt (h : Nat) (s : State) : Host.Outcome State Fault Refusal :=
  match decodeMajor h (s.b.wordAt h) with
  | some f => f s
  | none => insnBuf h (s.b.wordAt h) (some (wordTrap h (s.b.wordAt h))) (fun _ _ => .brk) s

end Sys2Proof.Machine
end

