-- ==== Sys2Proof/Machine/Idle.lean ====
section
/-! DEFINITION. An idle cycle: the clock advances, and the on-chip memories go on correcting single-bit errors (spec/02,
R34; spec/06, R164; spec/10, R274; spec/12, R321). -/

namespace Sys2Proof.Machine

/-- A single-bit error at offset `a` of memory `m` is corrected in place and counted; `imem` says of a core's local memory
that its instruction memory holds the word (R164, R274, R321). -/
def Body.correct (b : Body) (m a : Nat) (imem : Bool) : Body :=
  let b1 := b.bump clsMemregion m FMem.corrected 1
  if m = 2 then
    match b1.tableAt (a / 16) with
    | some k => b1.bump clsTable k FTable.corrected 1
    | none => b1
  else if 0x100 ≤ m ∧ m < 0x180 then
    b1.bump clsCore (m - 0x100) (if imem then FCore.imemCorrected else FCore.dmemCorrected) 1
  else b1

/-- Whether an idle cycle meets a single-bit error, and where, is a free choice (assumption log 39). -/
def Body.correctErrors (b : Body) : Body :=
  let b1 := b.fresh.2
  match Config.bitError b.free with
  | some (m, a, imem) => if a < memBytes m then b1.correct m a imem else b1
  | none => b1

/-- On an empty queue one clock cycle passes (assumption log 1); in Cold no clock runs. -/
def idle (s : State) : Host.Outcome State Fault Refusal :=
  onDev (fun d => if d.b.sys.base = .cold then d else let e := d.wait 1; { e with b := e.b.correctErrors }) s

end Sys2Proof.Machine
end

