-- ==== Sys2Proof/Safety.lean ====
section
/-! DEFINITION. What counts as a safe step: the device goes on. The shapes that statements about instructions share:
when one issues, and the state in which it has reached core commit. -/

namespace Sys2Proof

/-- The step of a state answers a next state: neither a fault nor a refusal. -/
def Safe (s : Machine.State) : Prop := ∃ t, Machine.step s = .next t

namespace Machine

/-- An instruction of hart `h` starts: `h` may issue (R141, R143), its core does not switch away from it for a Runnel
result (R142, R226), and no breakpoint stops it (R168). -/
def Starts (s : State) (h : Nat) : Prop :=
  s.b.mayIssue h = true ∧ s.b.mustSwitch s.tm h = false ∧ (s.b.atBreakpoint h = false ∨ (s.b.hart h).stepping = true)

/-- The cycles that the thread may still spend hold an instruction of `n` cycles and its wait for operands: neither CYCLE_CAP
nor the grace of a handler overtakes it before its core commit (R51, R144). -/
def State.Room (s : State) (h n : Nat) : Prop := s.b.tooLong h (s.b.waitOf s.tm h n + n) = false

/-- An instruction of hart `h` starts and reaches its core commit after `n` cycles. -/
def Issues (s : State) (h : Nat) (n : Nat := 1) : Prop := Starts s h ∧ s.Room h n

/-- `s` with what an instruction of hart `h` changed, `b`, at its core commit: `cycles` are charged, its results are on their
way, and it goes on at `pc` (R141, R208). -/
def State.committed (s : State) (h : Nat) (b : Body) (cycles pc : Nat) : State :=
  { s with b := b.coreCommit s.tm h cycles pc (s.b.hart h).regs }

/-- A hart that issues is blocked on nothing. -/
def State.issued (s : State) (h : Nat) : Body := s.b.modHart h (fun x => { x with block := .none })

/-- The address after the instruction of hart `h` (R173). -/
def State.after (s : State) (h : Nat) : Nat := ((s.b.hart h).pc + 4) % 2 ^ 16

/-- The result `r` is in `rd` and the flags are `fl`, `cycles` are charged, and execution goes on at PC + 4. -/
def State.result (s : State) (h : Nat) (rd : BitVec 5) (r : Word) (fl : Flags) (cycles : Nat) : State :=
  s.committed h ((s.issued h).modHart h (fun x => { x.setReg rd r with flags := fl })) cycles (s.after h)

/-- `s` after a Runnel instruction of hart `h` that left `v` in its context `x`. -/
def State.runnel (s : State) (h x : Nat) (v : RCtx) : State :=
  s.committed h ((s.issued h).setCtx h x v) 1 (s.after h)

/-- `s` after an instruction of hart `h` that wrote `w` to `rd` and nothing else. -/
def State.wrote (s : State) (h : Nat) (rd : BitVec 5) (w : Word) : State :=
  s.committed h ((s.issued h).setReg h rd w) 1 (s.after h)

/-- A data-plane thread `h` that holds context `x` runs an instruction of `n` cycles (R141, R213). -/
structure HoldsContext (s : State) (h x : Nat) (n : Nat := 1) : Prop where
  issues : Issues s h n
  plane : h < 1024
  held : s.b.contextOf h = some x

/-- A PSEL value of Table 8.4. -/
def selectAllowed (p : BitVec 4) : Prop := p.toNat ∈ [0, 4, 5, 6, 7, 12, 13, 14, 15]

/-- The trap of an instruction of hart `h` whose word is `word` (R160, R399). -/
def State.trapped (s : State) (h word cause addr : Nat) : State :=
  { s with b := s.b.trapAt s.tm h word cause addr }

/-- An object access of `au` reaches instance `inst` of class `cls`: the device runs, a host's page is open, the access is
answered in time, the instance exists and is in the authority's reach (R10, R376, R431, R433, R454). -/
structure Admits (s : State) (au : Auth) (cls inst : Nat) (write : Bool) : Prop where
  runs : s.b.sys.base ≠ .cold
  awake : s.b.asleep = false
  page : ∀ t, au = .host t → s.b.hostIn = true ∧ s.b.tentReached t = true
  answered : s.b.adm.unanswered = false
  there : instExists s.b.nLogN cls inst = true
  reach : s.b.reaches au cls inst write = true

/-- Every RW field of a word holds a value of its width and its stated range. -/
def State.Fits (s : State) (cls inst off : Nat) : Prop :=
  ∀ f, f ∈ fieldsOfWord cls inst off → f.acc = .rw →
    (Dev.mk s.tm s.b).view cls inst f < 2 ^ f.width ∧ f.inRange ((Dev.mk s.tm s.b).view cls inst f) = true

/-- `s` after an object write that did `b`: the write answers OK, and what freed buffers, records or slots let happen
has happened. -/
def State.answered (s : State) (b : Body) : State :=
  { s with b := ({ b with reply := ⟨stOk, 0xFFFF, []⟩ } : Body).settle s.tm }

/-- `s` after an object read that returns the words `ws` and leaves `b`. -/
def State.answeredRead (s : State) (b : Body) (ws : List Nat) : State :=
  { s with b := ({ b with reply := ⟨stOk, 0, ws.map (BitVec.ofNat 32)⟩ } : Body).settle s.tm }

/-- What waits at `m`, the first to have come, is a message of opcode `op` that passes every check up to step 9 of R413:
its requester, its authority and its parameters, and the state in which it is performed. -/
structure Received (s : State) (m : Msg) (op : Nat) (c : Caller) (au : Auth) (p : List Byte) (b : Body) : Prop where
  serves : s.b.serves = true
  first : s.b.firstCome m = true
  msg : ∃ path l, s.b.messageAt m = some (some (path, l)) ∧ badMessage l = false ∧ opcodeOf l = op ∧
    opcodeOf (l.take (be16 l 2)) = op ∧ paramsOf (l.take (be16 l 2)) = p ∧
    (s.b.takeUp m).checks path (l.take (be16 l 2)) = (c, stOk, au, b)

/-- `s` after a Shesin command that was performed and left the device `d`: it is counted and answered OK with reply
parameters (R413, R414). -/
def State.replied (s : State) (c : Caller) (d : Dev) (params : List Byte) : State :=
  { s with tm := d.tm, b := ((d.b.bump clsDevice 0 FDevice.cmdPerformed 1).sendReply c stOk params).settle d.tm }

/-- `s` after a Shesin command that was answered with the status `st`, which is not OK, and left `b` (R414). -/
def State.declined (s : State) (c : Caller) (st : Nat) (b : Body) : State :=
  { s with b := (b.sendReply c st []).settle s.tm }

/-- What holds of the time base and the tick generator in every state: the widths and ranges of Table 2.3, and that the
next boundary lies on the grid in force. -/
structure Time.Inv (t : Time) : Prop where
  tb : t.tb < 2 ^ 80
  era : t.era < 2 ^ 32
  rate : 2861879875 ≤ t.rate ∧ t.rate ≤ 2864743187
  slew : -(2 ^ 31) * 2 ^ 32 ≤ t.slewRem ∧ t.slewRem ≤ (2 ^ 31 - 1) * 2 ^ 32
  ppm : 1 ≤ t.slewPpm ∧ t.slewPpm ≤ 500
  period : 4000 ≤ t.period ∧ t.period ≤ 1000000
  periodNext : 4000 ≤ t.periodNext ∧ t.periodNext ≤ 1000000
  change : t.pendingChange ≤ 1
  tick : t.tickNumber < 2 ^ 32
  bound : t.boundary < 2 ^ 64
  grids : 1 ≤ t.grids.length ∧ t.grids.length ≤ 4
  grid : ∃ g r, t.grids = g :: r ∧ g.period = t.period ∧
    ∃ n : Nat, (t.nextBoundary : Int) = (g.anchor + (n * t.period16 : Nat)) % 2 ^ 64 ∧ t.nextTick = (g.anchorTick + n) % 2 ^ 32

end Machine
end Sys2Proof
end

