-- ==== Sys2Proof/Certificates/Slice0/Obligations.lean ====
section
/-! DEFINITION. The statements for the provers. Each says what commands or instructions do in every state that meets
its hypotheses; the docstring names the rules of spec/ that it formalises. -/

open Sys2Proof Sys2Proof.Machine

/-- Time.Inv (the widths and ranges of Table 2.3, and the next boundary on the grid in force) holds of the reset
state. -/
def Obligations.TimeInvariantAtReset : Prop :=
  State.reset.tm.Inv

/-- For every state whose time part satisfies Time.Inv (TB below 2^80, RATE, SLEW_PPM, TICK_PERIOD and PERIOD_NEXT in
their ranges, TICK_NUMBER of 32 bits, one to four grids kept, and the next boundary and its number equal to the anchor
of the grid in force plus a whole number of periods), if a step answers a next state, that state satisfies it too:
whatever the command. The model's choices in it, which no rule states: the commands that wait for a time (assumption
log 1) and the slew of a sleeping device (28). -/
def Obligations.TimeInvariantKept : Prop :=
  ∀ s t : State, s.tm.Inv → step s = .next t → t.tm.Inv

/-- For every command c and state s whose queue is c followed by rest, step s is exec c on s with the queue rest. -/
def Obligations.StepRunsFront : Prop :=
  ∀ (s : State) (c : Instr) (rest : List Instr), s.pending = c :: rest →
    step s = exec c { s with pending := rest }

/-- With an empty queue a step leaves a device in Cold as it is, and otherwise passes one clock cycle (fifteen times
RATE while the core clock is stopped): a pending epoch swap is made, messages that wait for the PCIe clock count a
stall cycle, the cores' watchdogs see which cores can issue, and a single-bit error that the cycle may meet is
corrected and counted by its memory, its table and its core. A cycle of increment r adds r to TB modulo 2^80, plus or
minus a slew of at most d = r times SLEW_PPM over a million that moves SLEW_REM towards 0 and ends exactly at 0;
TB_ERA and the model's count of the turns of TB go up exactly when TB wraps; nothing else of the time part changes but
the cycle count. The model's choices in it, which no rule states: an idle step is a cycle (assumption log 1), the swap
at the start of the cycle (20), the slew of a 15-cycle span (28), from when a watchdog counts (35), which single-bit
errors there are (39, a free value) and what counts a stall cycle (114). -/
def Obligations.IdleAndClock : Prop :=
  (∀ s : State, s.pending = [] →
    (s.b.sys.base = .cold → step s = .next s) ∧
    (s.b.sys.base ≠ .cold →
      let t := s.tm.advance (if s.b.asleep then 15 * s.tm.rate else s.tm.rate) 1
      step s = .next { s with
        tm := t, b := ((s.b.endSwap.stallPcie 1).watchCores t.cycle).correctErrors }) ∧
    -- a cycle may meet a single-bit error, which is counted where it is corrected (R164, R274, R321)
    (∀ b : Body, b.correctErrors = match Config.bitError b.free with
      | some (m, a, imem) => if a < memBytes m then b.fresh.2.correct m a imem else b.fresh.2
      | none => b.fresh.2) ∧
    (∀ (b : Body) (m a : Nat) (imem : Bool), a < memBytes m →
      let count := fun (n : Nat) => addFree 32 n 1 % 2 ^ 32
      (b.correct m a imem).fget clsMemregion m FMem.corrected = count (b.fget clsMemregion m FMem.corrected) ∧
      (∀ k, m = 2 → b.tableAt (a / 16) = some k → k < 4096 →
        (b.correct m a imem).fget clsTable k FTable.corrected = count (b.fget clsTable k FTable.corrected)) ∧
      (0x100 ≤ m → m < 0x180 →
        let f := if imem then FCore.imemCorrected else FCore.dmemCorrected
        (b.correct m a imem).fget clsCore (m - 0x100) f = count (b.fget clsCore (m - 0x100) f)))) ∧
  (∀ (t : Time) (r : Nat), t.Inv → 2861879875 ≤ r → r ≤ 15 * 2864743187 →
    let d := r * t.slewPpm / 1000000
    let u := t.advance r 1
    (t.slewRem = 0 → u.tb = (t.tb + r) % 2 ^ 80 ∧ u.slewRem = 0) ∧
    ((d : Int) < t.slewRem → u.tb = (t.tb + r + d) % 2 ^ 80 ∧ u.slewRem = t.slewRem - d) ∧
    (t.slewRem < -(d : Int) → u.tb = (t.tb + r - d) % 2 ^ 80 ∧ u.slewRem = t.slewRem + d) ∧
    (-(d : Int) ≤ t.slewRem → t.slewRem ≤ d → (u.tb : Int) = (t.tb + r + t.slewRem) % 2 ^ 80 ∧ u.slewRem = 0) ∧
    (u.tb < t.tb → u.era = addFree 32 t.era 1 ∧ u.turns = t.turns + 1) ∧
    (t.tb ≤ u.tb → u.era = t.era ∧ u.turns = t.turns) ∧
    u = { t with tb := u.tb, turns := u.turns, slewRem := u.slewRem, era := u.era, cycle := t.cycle + 1 })

/-- For every command and every state exec answers a next state (never a fault and never a refusal), and the queue of
waiting commands is unchanged. No command of this block has a stop of its own: a command whose event cannot occur in
the state changes nothing (assumption log 2). -/
def Obligations.EveryCommandAnswers : Prop :=
  ∀ (c : Instr) (s : State), ∃ t, exec c s = .next t ∧ t.pending = s.pending

/-- While TB_ERA does not wrap, m cycles and then n cycles leave what m + n cycles leave. For every target time,
cyclesTo gives a number of cycles after which the time has reached the target, and no smaller number has: a boundary
or a timed event acts at the first cycle at or after its time. The model's choices in it, which no rule states: a
command that is timed waits for its cycle (assumption log 1). -/
def Obligations.CyclesAddUp : Prop :=
  (∀ (t : Time) (r m n : Nat), t.Inv → 2861879875 ≤ r → r ≤ 15 * 2864743187 → t.era + (m + n) < 2 ^ 32 →
    (t.advance r m).advance r n = t.advance r (m + n)) ∧
  (∀ (t : Time) (r target : Nat), t.Inv → 2861879875 ≤ r → r ≤ 15 * 2864743187 → target < 2 ^ 64 →
    let n := t.cyclesTo r target
    timeReached (t.advance r n).now target = true ∧
    ∀ m, m < n → timeReached (t.advance r m).now target = false)

/-- PPS_IN_EDGE captures the time and counts while PPS_IN_EN = 1 (and fires wake source 4 where enabled); PPS_OUT_EDGE
and PPS_OUT_FALL act at their times and set the next ones; TIME_BASE_WRAP waits until TB has wrapped once;
TICK_BOUNDARY, and PERIOD_CHANGE, STALENESS_EXPIRY and REPITCH_APPLY where they are due, wait for the next boundary,
advance the tick generator and do the acts of a boundary. ARM and TIME_STEP in Boot, Survey, Standby or Dormant, a
SLEW that stays in range, an APPLY_TICK 2 to 2^31 - 1 ahead with no change pending, and a PPS_OUT_NEXT write answer OK
with the time part the rules give. The model's choices in it, which no rule states: the waits (assumption log 1), TICK
writes in Dormant (117), the time of an edge outside the present cycle (139) and the wake source kept until a wake
uses it (91). -/
def Obligations.TimeCommandsComplete : Prop :=
  (∀ s : State, s.b.sys.base ≠ .cold →
    -- PPS_IN_EDGE (R38)
    (∀ x : BitVec 64, s.tm.ppsInEn = 1 →
      let r := clockRate s.tm s.b.asleep
      let v := if -((r / 2 ^ 16 + 2 ^ 17 : Nat) : Int) ≤ timeDiff x.toNat s.tm.now ∧ timeDiff x.toNat s.tm.now ≤ 2 ^ 17
        then x.toNat else s.tm.now
      exec (.ppsInEdge x) s = .next { s with
        tm := { s.tm with ppsInTime := v, ppsInCount := (s.tm.ppsInCount + 1) % 2 ^ 32 }
        b := if (s.b.fget clsPower 0 FPower.wakeEn).testBit 4 then { s.b with adm.fired := s.b.adm.fired ||| 16 }
          else s.b }) ∧
    -- PPS_OUT_EDGE and PPS_OUT_FALL (R39)
    (s.tm.ppsOutEn = 1 →
      let d := (Dev.mk s.tm s.b).waitUntil s.tm.ppsOutNext
      exec .ppsOutEdge s = .next { s with
        tm := { d.tm with
          ppsFall := some ((s.tm.ppsOutNext + s.tm.ppsOutWidth * 2 ^ 16) % 2 ^ 64)
          ppsOutNext := (s.tm.ppsOutNext + s.tm.ppsOutPeriod * 2 ^ 16) % 2 ^ 64 }
        b := d.b }) ∧
    (∀ x, s.tm.ppsFall = some x →
      let d := (Dev.mk s.tm s.b).waitUntil x
      exec .ppsOutFall s = .next { s with tm := { d.tm with ppsFall := none }, b := d.b }) ∧
    -- TIME_BASE_WRAP (R31)
    (s.tm.Inv → ∃ n, exec .timeBaseWrap s =
        .next { s with tm := s.tm.advance (clockRate s.tm s.b.asleep) n, b := ((Dev.mk s.tm s.b).wait n).b } ∧
      (s.tm.advance (clockRate s.tm s.b.asleep) n).tb < 2 ^ 36 ∧
      (s.tm.advance (clockRate s.tm s.b.asleep) n).era = addFree 32 s.tm.era 1) ∧
    -- the commands that are boundaries (R40, R42, R44, R298, R394)
    (let d := (Dev.mk s.tm s.b).waitPast s.tm.nextBoundary
     let t := Host.Outcome.next (φ := Fault) (ρ := Refusal) { s with tm := d.tm.cut, b := d.b.boundaryActs d.tm.cut }
     exec .tickBoundary s = t ∧
     (s.tm.pendingChange = 1 → s.tm.nextTick = s.tm.applyTick → exec .periodChange s = t) ∧
     (∀ a x, s.b.runs = true → mapFind a s.b.bas.deadlines = some x → 0 ≤ tickDiff s.tm.nextTick x →
       exec (.stalenessExpiry a) s = t) ∧
     (s.b.pitchPending = true → exec .repitchApply s = t))) ∧
  (∀ s : State, s.b.sys.base ≠ .cold →
    let done := fun (t : Time) =>
      let b1 : Body := { s.b with reply := ⟨stOk, 0xFFFF, []⟩ }
      let t1 : Time := { t with held := none }
      Host.Outcome.next (φ := Fault) (ρ := Refusal) { s with
        tm := t1, b := if s.b.asleep then b1 else b1.settle t1 }
    (s.b.modeCode ∈ [1, 2, 3, 11] →
      exec (.arm .biv) s = done s.tm.rearm ∧
      (∀ v : BitVec 64, exec (.timeStep .biv v) s = done (s.tm.step v.toInt))) ∧
    (∀ v : BitVec 32,
      (let r := s.tm.slewRem + v.toInt * 2 ^ 32; -(2 ^ 31) * 2 ^ 32 ≤ r → r ≤ (2 ^ 31 - 1) * 2 ^ 32 →
       exec (.slew .biv v) s = done { s.tm with slewRem := r }) ∧
      (let ahead := (v.toNat + 2 ^ 32 - s.tm.tickNumber % 2 ^ 32) % 2 ^ 32
       2 ≤ ahead → ahead < 2 ^ 31 → s.tm.pendingChange = 0 →
       exec (.applyTick .biv v) s = done { s.tm with applyTick := v.toNat, pendingChange := 1 })) ∧
    (∀ v : BitVec 64, exec (.ppsOutNextWrite .biv v) s = done { s.tm with ppsOutNext :=
      (let d := timeDiff s.tm.now v.toNat
       if d ≤ 0 then v.toNat
       else (v.toNat + ceilDiv d.toNat (s.tm.ppsOutPeriod * 2 ^ 16) * (s.tm.ppsOutPeriod * 2 ^ 16)) % 2 ^ 64) }))

/-- At a boundary TICK_NUMBER and LAST_BOUNDARY become those of the boundary, the next boundary is one period later
modulo 2^64 and its number one more modulo 2^32; where a period change is pending for this number the anchor moves
here, TICK_PERIOD takes PERIOD_NEXT and the change is no longer pending; otherwise the grid stays; TB, RATE, SLEW_REM
and PERIOD_NEXT do not change. The model's choices in it, which no rule states: the list of the last four grids
(assumption log 73). -/
def Obligations.BoundaryTakesEffect : Prop :=
  ∀ t : Time, t.Inv →
    let u := t.cut
    u.tickNumber = t.nextTick ∧ u.boundary = t.nextBoundary ∧ u.nextTick = (t.nextTick + 1) % 2 ^ 32 ∧
    u.nextBoundary = (t.nextBoundary + u.period * 2 ^ 16) % 2 ^ 64 ∧
    (if t.pendingChange = 1 ∧ t.nextTick = t.applyTick then
      u.anchor = t.nextBoundary ∧ u.anchorTick = t.nextTick ∧ u.period = t.periodNext ∧ u.pendingChange = 0 ∧
      u.grids = (⟨t.fullOf t.nextBoundary, t.nextTick, t.periodNext⟩ :: t.grids).take 4
    else u.anchor = t.anchor ∧ u.anchorTick = t.anchorTick ∧ u.period = t.period ∧
      u.pendingChange = t.pendingChange ∧ u.grids = t.grids) ∧
    u.tb = t.tb ∧ u.rate = t.rate ∧ u.slewRem = t.slewRem ∧ u.periodNext = t.periodNext

/-- Re-arming puts the next boundary at the anchor plus k periods, numbered the anchor number plus k, where k is the
least count whose point is not before the time now; it drops a pending period change, keeps that one grid and changes
nothing else of the time part. The model's choices in it, which no rule states: the list of grids (assumption log 73).
-/
def Obligations.RearmFindsBoundary : Prop :=
  ∀ t : Time, t.Inv → t.anchor < 2 ^ 64 → -2 ^ 62 ≤ timeDiff t.now t.anchor → timeDiff t.now t.anchor ≤ 2 ^ 62 →
    let u := t.rearm
    ∃ k, u.nextBoundary = (t.anchor + k * (t.period * 2 ^ 16)) % 2 ^ 64 ∧ u.nextTick = (t.anchorTick + k) % 2 ^ 32 ∧
      0 ≤ timeDiff u.nextBoundary t.now ∧
      (∀ j, j < k → timeDiff ((t.anchor + j * (t.period * 2 ^ 16)) % 2 ^ 64) t.now < 0) ∧
      u.pendingChange = 0 ∧ u.armCycle = t.cycle ∧
      (∃ x : Nat, u.grids = [⟨t.turns * 2 ^ 64 + t.now + x, u.nextTick, t.period⟩] ∧ x < 2 ^ 64 ∧
        (t.now + x) % 2 ^ 64 = u.nextBoundary) ∧
      u = { t with
        nextBoundary := u.nextBoundary, nextTick := u.nextTick, pendingChange := 0, armCycle := t.cycle, grids := u.grids }

/-- Where the access is admitted and the word fits, each of HW_RESET, FLAG_SET, LW_RESET, FORCE, UNFORCE,
CFG_INDEX_WRITE, EPOCH_SWAP, GATE_LIST_SWAP, FW_READY, KICK, KEY_CLEAR, REPITCH and TABLE_ENABLE answers OK with the
effect its rule gives; a swap of the epoch is pending until the next cycle, in which ACTIVE_EPOCH changes. The model's
choices in it, which no rule states: the swap made as the next cycle begins (assumption log 20), BOOT_SLOT at FW_READY
(88) and the end of a flush walk by a disable (133). -/
def Obligations.QueueAndPoolWrites : Prop :=
  ((∀ (s : State) (au : Auth) (q : Nat), Admits s au clsQueue q true →
    -- HW_RESET (Table 5.9)
    (s.Fits clsQueue q FQueue.hwReset.word →
      exec (.hwReset au q) s = .next (s.answered
        (((s.b.fset clsQueue q FQueue.highWater (s.b.depth q)).syncReady q).checkUnder q))) ∧
    -- FLAG_SET (R126); flag 0 is ignored
    (∀ flags : BitVec 16, flags ≠ 0 →
      exec (.flagSet au q flags) s = .next (s.answered ((((s.b.fset clsQueue q FQueue.flags
        (s.b.fget clsQueue q FQueue.flags ||| flags.toNat / 2 * 2)).syncReady q).syncReady q).checkUnder q)))) ∧
  -- LW_RESET (Table 12.8)
  (∀ (s : State) (p : Nat), p < 8 → Admits s .biv clsPool p true →
    let b1 := s.b.fset clsPool p FPool.lowWater
      (min (s.b.fget clsPool p FPool.lowWater) (s.b.freeOnchip p + s.b.freeDram p))
    exec (.lwReset .biv p) s = .next (s.answered (b1.fset clsPool p FPool.lowWater (b1.freeOnchip p + b1.freeDram p)))) ∧
  -- FORCE, UNFORCE and CFG_INDEX_WRITE enter the Basin's input queue (R292, R300)
  (∀ (s : State) (au : Auth) (a : Nat), Admits s au clsBasin (slotInst a) true → s.b.basinRoom 1 = true →
    let enter := fun (op : BasinOp) => Host.Outcome.next (φ := Fault) (ρ := Refusal)
      (s.answered (s.b.basinEnter ⟨s.b.clock, 2000, s.b.slotTent a, s.b.slotRel a, op⟩))
    (s.Fits clsBasin (slotInst a) FForce.force.word →
      exec (.force au a) s = enter (.force (s.b.fget clsBasin (slotInst a) FForce.forceValue)
        (s.b.fget clsBasin (slotInst a) FForce.forceQuality) s.tm.now) ∧
      exec (.unforce au a) s = enter .unforce) ∧
    (∀ v : BitVec 16, exec (.cfgIndexWrite au a v) s = enter (.cfg v.toNat)))) ∧
  (-- EPOCH_SWAP (R110): pending until the cycle after, in which ACTIVE_EPOCH changes, and the mode with it (R447)
  (∀ (s : State), Admits s .biv clsIntake 0 true →
    s.b.epochLive (1 - s.b.fget clsIntake 0 FIntake.activeEpoch) = false →
    exec (.epochSwap .biv) s = .next (s.answered { s.b with net.swapping := true })) ∧
  (∀ b : Body, b.net.swapping = true →
    let b1 := ({ b with net.swapping := false }.fset clsIntake 0 FIntake.activeEpoch
      (1 - b.fget clsIntake 0 FIntake.activeEpoch)).bump clsIntake 0 FIntake.swaps 1
    b.endSwap = (if b.sys.base = .service ∨ b.sys.base = .degraded then
      ({ b1 with sys.prevBase := b.sys.base } : Body).setBase .update else b1).epochRetired) ∧
  -- GATE_LIST_SWAP (R75)
  (∀ (s : State) (p : Nat), Admits s .biv clsEgress p true → s.Fits clsEgress p FEgress.swap.word →
    exec (.gateListSwap .biv p) s = .next (s.answered (s.b.fset clsEgress p FEgress.swapPending 1))) ∧
  -- FW_READY (R447)
  (∀ (s : State) (f : Handover), Admits s .biv clsPower 0 true → s.Fits clsPower 0 FPower.fwReady.word →
    s.b.adm.fw = some f → f.started = true → (s.tm.now + 2 ^ 64 - f.since) % 2 ^ 64 ≤ 2 * 10 ^ 9 * 2 ^ 16 →
    exec (.fwReady .biv) s = .next (s.answered
      (({ s.b with adm.fw := none, adm.fwActive := f.slot, adm.mailbox.ready := true }.fset clsPower 0 FPower.bootSlot
        f.slot).leaveUpdate))) ∧
  -- KICK (R401)
  (∀ (s : State) (j : Nat), j < 4 → Admits s .biv clsDevice (1 + j) true →
    exec (.kick .biv j) s = .next (s.answered { s.b with adm.kicks := mapPut j s.tm.now s.b.adm.kicks })) ∧
  -- KEY_CLEAR (Table 16.9)
  (∀ (s : State) (k : Nat), Admits s .biv clsDevice (0x100 + k) true →
    let b1 := { (s.b.fset clsDevice (0x100 + k) FKey.valid 0).fset clsDevice (0x100 + k) FKey.seen 0 with
      adm.keys := mapDel k s.b.adm.keys }
    exec (.keyClear .biv k) s = .next (s.answered
      (if k = 0xFF then b1.fset clsDevice 0 FDevice.bivKeyValid 0 else b1))) ∧
  -- REPITCH (R393)
  (∀ (s : State) (k : Fin 7), Admits s .biv clsTent 0x100 true → s.Fits clsTent 0x100 FTents.repitch.word →
    s.b.tentMode = true → nLogOf (s.b.fget clsTent 0x100 FTents.nNext) = some k → s.b.pitchPending = false →
    s.b.pitchTentsOk k.val = true → s.b.pitchQueuesOk k.val = true → s.b.pitchTablesOk k.val = true →
    exec (.repitch .biv) s = .next (s.answered (s.b.fset clsTent 0x100 FTents.repitchPending 1))) ∧
  -- TABLE_ENABLE (R286)
  (∀ (s : State) (pre : Bool) (n : Nat),
    let cls := if pre then clsPrefix else clsTable
    Admits s .biv cls n true → s.Fits cls n 0 →
    (s.b.fget cls n FTable.enable = 0 → s.b.enableCheck pre n = stOk →
      exec (.tableEnable .biv pre n true) s = .next (s.answered
        (((s.b.freeEntries pre n).fset cls n FTable.enable 1).fset cls n FTable.clearing 1))) ∧
    (s.b.fget cls n FTable.enable = 1 →
      let x := (s.b.endWalk n).uncountAll n
      let y := x.freeEntries false n
      let b1 := if pre then (s.b.freeEntries true n).fset clsPrefix n FPrefix.prefixes 0
        else { y.fset clsTable n FTable.entries 0 with
          tab.shadows := mapDel n y.tab.shadows
          tab.ager := y.tab.ager.map (fun e => if e.1 = n then (n, (0, e.2.2)) else e) }
      exec (.tableEnable .biv pre n false) s = .next (s.answered
        ((b1.fset cls n FTable.enable 0).fset cls n FTable.clearing 0)))))

/-- A RING of an edge source rings it and of a level source does nothing; COMPLETE of a source that targets a host, is
in service and is the caller's completes it, and any other counts in BAD_COMPLETE. ROUTER_DELIVER takes the listed
sources, as they stand in a cycle after every ring so far, in rising number, at most four that are deliverable; a
source is deliverable when pending and enabled and, for a Bivouac core, neither held nor requested; delivery to a core
raises its request, to a queue sets flag 6, to a host sends, holds (while PCIE_OUT cannot send) or parks its vector.
The model's choices in it, which no rule states: who completes (assumption log 83), the cycle from which a ring
counts, kept as one number for all sources (113), and vectors held while PCIE_OUT cannot send (114). -/
def Obligations.InterruptAccesses : Prop :=
  (∀ (s : State) (au : Auth) (n : Nat), n < 4096 → Admits s au clsIrq n true → s.Fits clsIrq n 0 →
    -- DOORBELL_RING (R363, R364)
    (s.b.accessOf au clsIrq n FIrq.ring = .wo →
      exec (.doorbellRing au n) s = .next (s.answered
        (if s.b.fget clsIrq n FIrq.sense = 0 then s.b.ring n else s.b))) ∧
    -- HOST_COMPLETE (R368, R371)
    (let mine := ∀ t, au = .host t → s.b.fget clsIrq n FIrq.targetTent = t
     (s.b.fget clsIrq n FIrq.targetKind = 2 → s.b.fget clsIrq n FIrq.inService = 1 → mine →
       exec (.hostComplete au n) s = .next (s.answered (s.b.irqComplete n))) ∧
     (s.b.fget clsIrq n FIrq.targetKind ≠ 2 ∨ s.b.fget clsIrq n FIrq.inService ≠ 1 ∨ ¬ mine →
       exec (.hostComplete au n) s = .next (s.answered (s.b.bump clsIrq n FIrq.badComplete 1))))) ∧
  ((∀ s : State,
    let d0 : Dev := ⟨s.tm, s.b⟩
    let d := if s.b.sync.irqFrom ≤ s.tm.cycle then d0 else d0.wait (s.b.sync.irqFrom - s.tm.cycle)
    let b1 := ((sortBy (fun x y => decide (x ≤ y)) d.b.irqListed).foldl (fun (x : Nat × Body) k =>
      if x.1 < 4 ∧ x.2.irqDeliverable k then (x.1 + 1, x.2.irqDeliver k) else x) (0, d.b)).2
    let e := (Dev.mk d.tm b1).wait 1
    exec .routerDeliver s = .next { s with tm := e.tm, b := e.b }) ∧
  -- a ring or an assertion counts from the next cycle on (R369)
  (∀ (b : Body) (n : Nat), (b.ring n).sync.irqFrom = b.clock + 1 ∧
    (b.irqIdle n = true → (b.setLevel n true).sync.irqFrom = b.clock + 1)) ∧
  (∀ (b : Body) (n : Nat),
    (b.irqDeliverable n = true ↔ b.fget clsIrq n FIrq.pending = 1 ∧ b.fget clsIrq n FIrq.enable = 1 ∧
      (b.fget clsIrq n FIrq.targetKind = 0 →
        b.fget clsIrq (0x10000 + b.fget clsIrq n FIrq.target) FIrqDev.holds ≠ 1 ∧
        b.fget clsIrq (0x10000 + b.fget clsIrq n FIrq.target) FIrqDev.request ≠ 1)) ∧
    let served := ((((b.fset clsIrq n FIrq.pending 0).fset clsIrq n FIrq.inService 1).fset clsIrq n FIrq.lastRings
      (b.fget clsIrq n FIrq.rings)).fset clsIrq n FIrq.rings 0).bump clsIrq n FIrq.deliveries 1
    (b.fget clsIrq n FIrq.targetKind = 0 →
      b.irqDeliver n = b.fset clsIrq (0x10000 + b.fget clsIrq n FIrq.target) FIrqDev.request 1) ∧
    (b.fget clsIrq n FIrq.targetKind = 1 → b.irqDeliver n = served.setFlags (b.irqQueue n) 0x40) ∧
    (2 ≤ b.fget clsIrq n FIrq.targetKind →
      let v := b.fget clsIrq n FIrq.targetTent * (2048 / b.tents) + b.fget clsIrq n FIrq.target
      b.irqDeliver n =
        let e := mapGet 0 v served.host.msix
        if v ∈ served.host.unmasked ∧ served.host.functionMask = false then
          (if served.hostOut then { served with outputs := served.outputs ++ [.msix v (bitsAt e 0 64) (bitsAt e 64 32)] }
            else { served with host.held := served.host.held ++ [.msix v (bitsAt e 0 64) (bitsAt e 64 32)] })
        else if v ∈ served.host.pba then served else { served with host.pba := served.host.pba ++ [v] })))

/-- In Bench mode a live thread halts, a halted one steps or resumes, DEBUG_RESET resets it, and REG_DATA reads and
writes the register that REG_SEL selects. The model's choices in it, which no rule states: which thread a step resumes
past its breakpoint (assumption log 26). -/
def Obligations.DebugWrites : Prop :=
  ∀ (s : State) (h : Nat), h < 1024 → Admits s .biv clsDebug h true → s.Fits clsDebug h 0 →
    let x := s.b.hart h
    let go := fun (one : Bool) => s.b.setHart h { x with
      halted := false, stepping := one, ableSince := s.b.cycleOf h }
    (s.b.inBench = true → s.b.live h = true →
      exec (.debugHalt .biv h) s = .next (s.answered (s.b.setHart h { x with halted := true, stepping := false })) ∧
      (x.halted = true → exec (.debugStep .biv h) s = .next (s.answered (go true))) ∧
      exec (.debugReset .biv h) s = .next (s.answered (s.b.debugReset s.tm h).2)) ∧
    (x.halted = true → exec (.debugResume .biv h) s = .next (s.answered (go false))) ∧
    (s.b.inBench = true → x.halted = true →
      let sel := s.b.fget clsDebug h FDebug.regSel
      exec (.regDataAccess .biv h none) s = .next (s.answeredRead s.b [x.selected sel]) ∧
      (∀ w : Word, exec (.regDataAccess .biv h (some w)) s =
        .next (s.answered (s.b.setHart h (x.setSelected sel w.toNat)))))

/-- A window that is not busy and names a lock or semaphore of its tent, and with REQ_TASK = 1 a queue of it, performs
its request (ACQUIRE, RELEASE, P, V by REQ_OP) for itself or for that task; one out of range sets REQ_STATUS to
OUT_OF_RANGE, one while REQ_BUSY = 1 answers BUSY, and REQ_CANCEL cancels it. LOCK_GRANT of a free lock, or of a
semaphore with a count, waits for the cycle after the one that made the grant due and gives it to the waiter that
wins. LOCK_HELD_LONG marks a hold longer than HOLD_TICKS, names the lock, counts it and rings source 41. The model's
choices in it, which no rule states: the wait (assumption log 1) and the grant in the cycle after (80). -/
def Obligations.LockCommands : Prop :=
  (∀ (s : State) (w : Win), s.b.winExists w = true → Admits s (winAuth w) clsLock (winInst w) true →
    s.Fits clsLock (winInst w) FWindow.reqIssue.word →
    let i := winInst w
    let op := s.b.fget clsLock i FWindow.reqOp
    let sem := decide (2 ≤ op)
    let ends := fun (t : State) =>
      (op = 0 → exec (.windowAcquire w) s = .next t) ∧ (op = 1 → exec (.windowRelease w) s = .next t) ∧
      (op = 2 → exec (.windowP w) s = .next t) ∧ (op = 3 → exec (.windowV w) s = .next t)
    let inShare := s.b.winTent w < s.b.tents ∧ s.b.fget clsLock i FWindow.reqNum < lockTotal sem / s.b.tents ∧
      (s.b.fget clsLock i FWindow.reqTask = 1 → s.b.fget clsLock i FWindow.reqQueue < 1048576 / s.b.tents)
    -- the request is sent; one out of range is not; one while REQ_BUSY = 1 is turned away
    (s.b.fget clsLock i FWindow.reqBusy ≠ 1 → inShare → ends (s.answered (s.b.winPerform s.tm w))) ∧
    (s.b.fget clsLock i FWindow.reqBusy ≠ 1 → ¬ inShare →
      ends (s.answered (s.b.fset clsLock i FWindow.reqStatus stOutOfRange))) ∧
    (s.b.fget clsLock i FWindow.reqBusy = 1 →
      ends { s with b := ({ s.b with reply := ⟨stBusy, 0, []⟩ } : Body).settle s.tm }) ∧
    -- what is sent, for the window or on behalf of the task of REQ_QUEUE, which keeps the window free
    (let n := s.b.lockAbs sem (s.b.winTent w) (s.b.fget clsLock i FWindow.reqNum)
     let task := s.b.fget clsLock i FWindow.reqTask = 1
     let who := s.b.winHolder w
     let prio := s.b.fget clsLock i FWindow.reqPrio
     let b1 := if task then s.b else s.b.fset clsLock i FWindow.reqBusy 1
     (task → who = .task (queueBase s.b.nLogN (s.b.winTent w) + s.b.fget clsLock i FWindow.reqQueue)) ∧
     (op = 0 → s.b.winPerform s.tm w = b1.requestLock s.tm s.b.clock n who (some w) prio) ∧
     (op = 1 → s.b.winPerform s.tm w =
       let r := b1.releaseLock s.tm s.b.clock n [who]
       (r.2.fset clsLock i FWindow.reqStatus (if r.1 then stOk else stNotOwner)).fset clsLock i FWindow.reqBusy 0) ∧
     (op = 2 → s.b.winPerform s.tm w = b1.requestSem s.b.clock n who (some w) prio) ∧
     (op = 3 → s.b.winPerform s.tm w =
       let r := b1.releaseSem s.b.clock n who
       (r.2.fset clsLock i FWindow.reqStatus (if r.1 then stOk else stOutOfRange)).fset clsLock i FWindow.reqBusy 0)) ∧
    exec (.reqCancel w) s = .next (s.answered (s.b.winCancel w))) ∧
  (-- LOCK_GRANT of a free lock, in the cycle after the one that made the grant due
  (∀ (s : State) (n g : Nat) (w : Waiter), s.b.lockDue n = some (g, w) →
    let d := (Dev.mk s.tm s.b).waitCycle (g + 1)
    exec (.lockGrant false n) s = .next { s with tm := d.tm, b := d.b.giveLock d.tm n w }) ∧
  -- LOCK_GRANT of a semaphore
  (∀ (s : State) (n g : Nat) (w : Waiter), s.b.semDue n = some (g, w) →
    let d := (Dev.mk s.tm s.b).waitCycle (g + 1)
    exec (.lockGrant true n) s = .next { s with tm := d.tm, b := d.b.giveSem n g w }) ∧
  -- LOCK_HELD_LONG
  (∀ (s : State) (n : Nat),
    let t := lockTentInst (s.b.lockTent false n)
    let l := s.b.lock n
    0 < s.b.fget clsLock t FLockTent.holdTicks → s.b.fget clsLock t FLockTent.holdTicks < l.heldTicks →
    l.holder ≠ none → l.longRaised = false →
    exec (.lockHeldLong n) s = .next { s with
      b := (((s.b.setLock n { l with longRaised := true }).fset clsLock t FLockTent.lastLongLock
        (s.b.lockRel false n)).bump clsLock t FLockTent.longHolds 1).ring 41 }))

/-- An admitted write of a word of one RW field in range sets that field; a 64-bit low-word read latches the value and
returns its low word; a read of an RC counter returns it and resets it; a read of TX_TS latches the head stamp of the
port, and one of TX_TS_TAG pops it. An object write that fails changes nothing but the count of reserved-field writes
and, of the TICK object, the held low word of a pending two-word write. The model's choices in it, which no rule
states: what another field is for the held low word (assumption log 27) and that a read returns an RC field to its
reset value (43). -/
def Obligations.ObjectAccesses : Prop :=
  (∀ (s : State) (au : Auth) (a : ObjAddr),
    let cls := a.cls.toNat
    let inst := a.inst.toNat
    let off := a.off.toNat
    -- REGISTER_WRITE (R10): a word of one RW field of a class whose writes only set fields
    (∀ (w : Word) (f : Fld), Admits s au cls inst true → s.Fits cls inst off → cls ∈ [0, 5, 6, 10, 11, 15, 19, 27, 29] →
      fieldsOfWord cls inst off = [f] → off ≤ lastWord cls inst → f.acc = .rw → s.b.accessOf au cls inst f = .rw →
      f.lo = 32 * off → f.width ≤ 32 → w.toNat < 2 ^ f.width → f.inRange w.toNat = true →
      (Wr.mk ⟨s.tm, s.b⟩ au cls inst off w.toNat []).judge = ⟨true, true, false⟩ →
      exec (.registerWrite au a w) s = .next (s.answered (s.b.fset cls inst f w.toNat))) ∧
    -- LOW_WORD_LATCH (R32)
    (∀ f : Fld, Admits s au cls inst false → fieldsOfWord cls inst off = [f] → f.width = 64 → f.word = off →
      off ≤ lastWord cls inst → f.acc ≠ .wo → cls ≠ clsPort → cls ≠ clsRunnel → cls ≠ clsDebug →
      let v := (Dev.mk s.tm s.b).view cls inst f
      exec (.lowWordLatch au a) s = .next (s.answeredRead { (if f.acc = .rc then s.b.fset cls inst f f.reset else s.b) with
        latches := mapPut (fieldKey cls inst f.lo) v s.b.latches } [f.inWord off v])) ∧
    -- COUNTER_READ_CLEAR (R10, R11)
    (∀ f : Fld, Admits s au cls inst false → fieldsOfWord cls inst off = [f] → f.width = 32 → f.lo = 32 * off →
      off ≤ lastWord cls inst → f.acc = .rc → cls ≠ clsPort → cls ≠ clsRunnel → cls ≠ clsDebug →
      exec (.counterReadClear au a) s = .next (s.answeredRead (s.b.fset cls inst f f.reset)
        [(Dev.mk s.tm s.b).view cls inst f]))) ∧
  (∀ (s : State) (au : Auth) (p : Nat), Admits s au clsPort p false →
    (∀ ts tag r, (s.b.eg p).stamps = (ts, tag) :: r → ts < 2 ^ 64 →
      let b1 := ((s.b.fset clsPort p FPort.txTs ts).fset clsPort p FPort.txTsTag tag).fset clsPort p FPort.txTsValid 1
      exec (.txTsLatch au p) s = .next (s.answeredRead
        { b1 with latches := mapPut (fieldKey clsPort p FPort.txTs.lo) ts s.b.latches } [ts % 2 ^ 32])) ∧
    ((s.b.eg p).stamps = [] →
      let b1 := ((s.b.fset clsPort p FPort.txTs 0).fset clsPort p FPort.txTsTag 0).fset clsPort p FPort.txTsValid 0
      exec (.txTsLatch au p) s = .next (s.answeredRead
        { b1 with latches := mapPut (fieldKey clsPort p FPort.txTs.lo) 0 s.b.latches } [0])) ∧
    (let tag := s.b.fget clsPort p FPort.txTsTag
     let valid := s.b.fget clsPort p FPort.txTsValid
     let word := [tag % 2 ^ 16 + valid % 2 * 2 ^ 16]
     (∀ ts r, valid = 1 → (s.b.eg p).stamps = (ts, tag) :: r → s.b.fget clsPort p FPort.txTs = ts →
       exec (.txTsTagRead au p) s =
         .next (s.answeredRead (s.b.setEg p { s.b.eg p with stamps := r }) word)) ∧
     (valid = 0 → exec (.txTsTagRead au p) s = .next (s.answeredRead s.b word)))) ∧
  (∀ (d : Dev) (au : Auth) (cls inst off : Nat) (ws : List Nat),
    let r := d.objWrite au cls inst off ws
    r.1 ≠ stOk →
    (r.2.2.tm = d.tm ∨ (cls = clsTick ∧ inst = 0 ∧ r.2.2.tm = d.tm.unhold)) ∧
    ∃ n, r.2.2.b = if n = 0 then d.b else d.b.bumpSat clsDevice 0 FDevice.reservedWrites n)

/-- For every 64-bit field of a TICK object: the read of the low word returns the low half of the value v and latches
v; a read of the high word with that latch returns the high half of v, whatever the value then is; with no latch it
returns the high half of the value as it stands. -/
def Obligations.SixtyFourBitReads : Prop :=
  ∀ (d e : Dev) (inst : Nat) (f : Fld), f.width = 64 → f.lo % 32 = 0 → f.acc ≠ .wo →
    fieldsOfWord clsTick inst f.word = [f] → fieldsOfWord clsTick inst (f.word + 1) = [f] →
    let v := d.view clsTick inst f
    let low := d.readWord clsTick inst f.word
    low.1 = v % 2 ^ 32 ∧
    (e.b.latches = low.2.b.latches → (e.readWord clsTick inst (f.word + 1)).1 = v / 2 ^ 32 % 2 ^ 32) ∧
    (mapFind (fieldKey clsTick inst f.lo) e.b.latches = none →
      (e.readWord clsTick inst (f.word + 1)).1 = e.view clsTick inst f / 2 ^ 32 % 2 ^ 32)

/-- A doorbell write that passes the checks sets TAIL and one that fails records its status and counts; TX_RING_SERVE
reads the entry in turn and refuses it with its reason, refuses it for want of allowance or room, or takes a buffer;
TX_DMA_COMPLETE drops a stale entry, records a failed read or hands the frame to intake; TX_OUTCOME_WRITEBACK writes
status and reason and advances HEAD; RX_RING_DELIVER refuses a frame too long for the entry or writes frame and
status; VECTOR_UNMASK sends a pending vector. The model's choices in it, which no rule states: what PCIE_OUT holds
(assumption log 114). -/
def Obligations.HostRingCommands : Prop :=
  -- HOST_DOORBELL (R382)
  (∀ (s : State) (t rel : Nat) (v : BitVec 64), s.b.hostIn = true → s.b.tentReached t = true → rel < 4096 / s.b.tents →
    let r := s.b.ringAbs t rel
    (s.b.doorbellCheck t r true v.toNat = stOk →
      let b1 := s.b.fset clsTent (ringObj r) FHostRing.tail (v.toNat % 2 ^ 32)
      exec (.hostDoorbell t rel true v) s = .next { s with
        b := if b1.rg r FHostRing.creditEn = 1 ∧ 2 ≤ b1.rg r FHostRing.kind ∧ s.b.ringLeft r < b1.ringLeft r then
            b1.setFlags (queueBase s.b.nLogN t + b1.rg r FHostRing.creditQueue % (1048576 / s.b.tents)) 8
          else b1 }) ∧
    (∀ whole, s.b.doorbellCheck t r whole v.toNat ≠ stOk →
      exec (.hostDoorbell t rel whole v) s = .next { s with
        b := (s.b.fset clsTent (ringObj r) FHostRing.doorbellStatus (s.b.doorbellCheck t r whole v.toNat)).bump clsTent
          (ringObj r) FHostRing.doorbellErrors 1 })) ∧
  -- TX_RING_SERVE (R383)
  (∀ (s : State) (e : BitVec 128) (r : Nat), s.b.hostIn = true →
    (s.b.inputQueue 65).length + (s.b.host.tx.filter (fun x => decide (x.stage = .reading))).length < 256 →
    s.b.txTurnRing = some r →
    let t := s.b.ringTent r
    let b0 := { s.b with host.txTurn := r + 1 }
    let p := s.b.rg r FHostRing.pool
    let x : TxEnt := ⟨r, s.b.txNextOf r, s.b.generation t, e.toNat, 0, .known 0x30⟩
    (∀ k, s.b.txEntryReason r e.toNat = some k →
      exec (.txRingServe e) s = .next { s with b := (b0.txTake r { x with stage := .known k }).settle s.tm }) ∧
    (s.b.txEntryReason r e.toNat = none → s.b.chargeFits (.host t) (poolSize p) = false →
      exec (.txRingServe e) s = .next { s with
        b := ((b0.bump clsPool (0x200 + t) FPoolTent.hostRefused 1).txTake r x).settle s.tm }) ∧
    (∀ h b1, s.b.txEntryReason r e.toNat = none → s.b.chargeFits (.host t) (poolSize p) = true →
      b0.takeBuf p (.host t) (.host t) [] = some (h, b1) →
      exec (.txRingServe e) s = .next { s with
        b := (b1.txTake r { x with buffer := h, stage := .reading }).settle s.tm })) ∧
  -- TX_DMA_COMPLETE (R383, R386)
  (∀ (s : State) (ring : Nat) (x : TxEnt),
    s.b.host.tx.find? (fun x => x.ring == ring && decide (x.stage = .reading)) = some x →
    let t := s.b.ringTent ring
    let n := entryLength x.entry
    (∀ d, x.gen ≠ s.b.generation t →
      exec (.txDmaComplete ring d) s =
        .next { s with b := (((s.b.releaseBuf x.buffer).txDrop x).stale t).settle s.tm }) ∧
    (x.gen = s.b.generation t →
      exec (.txDmaComplete ring none) s =
        .next { s with b := ((s.b.releaseBuf x.buffer).txStage x (.known 0x31)).settle s.tm } ∧
      (∀ l,
        let b1 := s.b.putBuf x.buffer (frameBytes l n 0 n)
        exec (.txDmaComplete ring (some l)) s = .next { s with
          b := ((((b1.handoff x.buffer (.host t) .rx).2).toIntake ⟨x.buffer, n + 4, 65, 0, some ring, t, none⟩).txStage x
            .inside).settle s.tm }))) ∧
  -- TX_OUTCOME_WRITEBACK of an entry whose outcome is known (R383)
  (∀ (s : State) (ring : Nat) (x : TxEnt) (k : Nat), s.b.hostOut = true →
    s.b.work.outcomes.find? (fun o => o.1 == ring) = none → s.b.host.tx.find? (fun x => x.ring == ring) = some x →
    x.stage = .known k → x.gen = s.b.generation (s.b.ringTent ring) →
    let t := s.b.ringTent ring
    let b1 := ((s.b.txDrop x).hostWrite t (s.b.ringEntry ring x.index + 12) (leBytes 2 (reasonStatus k) ++ leBytes 1 k))
    let b2 := (b1.bumpWrap clsTent (ringObj ring) FHostRing.head 1).bump clsTent (ringObj ring) FHostRing.entries 1
    exec (.txOutcomeWriteback ring) s =
      .next { s with b := if k = 0 then b2 else b2.bump clsTent t FTent.txNotAccepted 1 }) ∧
  -- RX_RING_DELIVER (R384)
  (∀ (s : State) (t c : Nat) (e : BitVec 128) (f : EgFrame) (r : Nat), s.b.hostOut = true → s.b.rxHead t c = some f →
    s.b.rxRing t c = some r → s.b.ringLeft r ≠ 0 → s.b.unjudged f = false → s.b.bufHeld f.buffer = false →
    let i := s.b.rg r FHostRing.head
    let n := (s.b.handBytes f).length
    let en := e.toNat
    (entryLength en < n → exec (.rxRingDeliver t c e) s =
      .next { s with b := ((s.b.writeOutcome t r i 0x32).ringDone r).settle s.tm }) ∧
    (n ≤ entryLength en →
      let b1 := (s.b.bufRead f.buffer 0 f.length).hostWrite t (bitsAt en 0 64) (s.b.handBytes f)
      let b2 := b1.hostWrite t (b1.ringEntry r i + 8)
        (leBytes 2 (n + bitsAt en 78 2 * 2 ^ 14) ++ leBytes 2 (bitsAt en 80 16) ++ leBytes 2 stOk ++ leBytes 1 0)
      let b3 := (b2.ringDone r).setEgQueue 65 c ((b2.egQueue 65 c).filter (fun g => decide (g.num ≠ f.num)))
      exec (.rxRingDeliver t c e) s = .next { s with b := ((b3.freeBuf f.buffer .egress).2).settle s.tm })) ∧
  -- VECTOR_UNMASK (R380)
  (∀ (s : State) (v : Nat), v < 2048 → v ∉ s.b.host.unmasked →
    let b1 := { s.b with host.unmasked := v :: s.b.host.unmasked }
    let e := mapGet 0 v s.b.host.msix
    (v ∉ s.b.host.pba ∨ s.b.host.functionMask = true → exec (.vectorUnmask v) s = .next { s with b := b1 }) ∧
    (v ∈ s.b.host.pba → s.b.host.functionMask = false → exec (.vectorUnmask v) s = .next { s with
      b := { b1 with
        host.pba := s.b.host.pba.filter (fun x => decide (x ≠ v))
        outputs := if s.b.hostOut then s.b.outputs ++ [.msix v (bitsAt e 0 64) (bitsAt e 64 32)] else s.b.outputs
        host.held := if s.b.hostOut then s.b.host.held
          else s.b.host.held ++ [.msix v (bitsAt e 0 64) (bitsAt e 64 32)] } }))

/-- A page of a tent out of reach reads all ones and ignores writes; WIN_ADDR, WIN_OFF and WIN_STATUS are registers;
WIN_DATA performs the object access that they name and keeps its status; a doorbell offset rings. Page 64 stands for
BAR4 (the choice of the model, assumption log 131): its table entries hold the address, data and mask of each vector.
An aperture access that a region grants reads or writes DRAM at APERTURE_BASE plus the offset, at once or once the
frozen channel runs again; one that none grants counts DMA_DENIED, and a read of that kind is answered with a
Completer Abort. The model's choices in it, which no rule states: when the data of an aperture access moves and is
answered (assumption log 15), the pages of absent tents (111) and BAR4 as page 64 (131). -/
def Obligations.HostAccesses : Prop :=
  -- WINDOW_ACCESS (R376, R377): the page's registers and the object behind WIN_DATA
  (∀ (s : State) (t off : Nat), s.b.hostIn = true → t < 64 → off < 0x100000 →
    (s.b.tentReached t = false →
      exec (.windowAccess t off none) s = .next { s with
        b := { s.b with reply := ⟨stOk, 0, [0xFFFFFFFF]⟩ } } ∧
      (∀ w, exec (.windowAccess t off (some w)) s = .next s)) ∧
    (s.b.tentReached t = true →
      (∀ w : Word, off / 4 = 0 → exec (.windowAccess t off (some w)) s = .next { s with
        b := { s.b with host.winAddr := mapPut t w.toNat s.b.host.winAddr }.settle s.tm }) ∧
      (∀ w : Word, off / 4 = 1 → exec (.windowAccess t off (some w)) s = .next { s with
        b := { s.b with host.winOff := mapPut t (w.toNat % 2 ^ 16) s.b.host.winOff }.settle s.tm }) ∧
      (off / 4 = 0 → exec (.windowAccess t off none) s = .next { s with
        b := { s.b with reply := ⟨stOk, 0, [BitVec.ofNat 32 (mapGet 0 t s.b.host.winAddr)]⟩ }.settle s.tm }) ∧
      (off / 4 = 3 → exec (.windowAccess t off none) s = .next { s with
        b := { s.b with reply := ⟨stOk, 0, [BitVec.ofNat 32 (mapGet 0 t s.b.host.winStatus)]⟩ }.settle s.tm }) ∧
      (off / 4 = 2 → s.b.asleep = false →
        let a := mapGet 0 t s.b.host.winAddr
        let o := mapGet 0 t s.b.host.winOff
        (∀ ws d1, (Dev.mk s.tm s.b).objRead (.host t) (a / 2 ^ 24 % 256) (a % 2 ^ 24) o 1 = (stOk, ws, d1) →
          exec (.windowAccess t off none) s = .next { s with
            tm := d1.tm
            b := { d1.b with
              reply := ⟨stOk, 0, [BitVec.ofNat 32 (ws.headD 0)]⟩
              host.winStatus := mapPut t stOk d1.b.host.winStatus }.settle d1.tm }) ∧
        (∀ (w : Word) (st i : Nat) (d1 : Dev),
          (Dev.mk s.tm s.b).objWrite (.host t) (a / 2 ^ 24 % 256) (a % 2 ^ 24) o [w.toNat] = (st, i, d1) →
          exec (.windowAccess t off (some w)) s = .next { s with
            tm := d1.tm
            b := { d1.b with
              reply := ⟨st, i, []⟩
              host.winStatus := mapPut t st d1.b.host.winStatus }.settle d1.tm })) ∧
      (∀ w : Word, 0x10000 ≤ off → off < 0x18000 → exec (.windowAccess t off (some w)) s = .next { s with
        b := (s.b.doorbell t ((off - 0x10000) / 8) false w.toNat).settle s.tm }))) ∧
  -- BAR4 (R376, R380): the MSI-X table's addresses, data and masks, and the PBA
  (∀ (s : State) (v k : Nat), s.b.hostIn = true → v < 2048 → k < 4 →
    let e := mapGet 0 v s.b.host.msix
    exec (.windowAccess 64 (16 * v + 4 * k) none) s = .next { s with
      b := ({ s.b with reply := ⟨stOk, 0, [BitVec.ofNat 32 (if k = 3 then (if v ∈ s.b.host.unmasked then 0 else 1)
        else bitsAt e (32 * k) 32)]⟩ } : Body).settle s.tm } ∧
    (∀ w : Word,
      (k < 3 → exec (.windowAccess 64 (16 * v + 4 * k) (some w)) s = .next { s with
        b := ({ s.b with
          host.msix := mapPut v (e - bitsAt e (32 * k) 32 * 2 ^ (32 * k) + w.toNat * 2 ^ (32 * k)) s.b.host.msix } : Body
          ).settle s.tm }) ∧
      (k = 3 → w.toNat % 2 = 1 → exec (.windowAccess 64 (16 * v + 4 * k) (some w)) s = .next { s with
        b := { s.b with host.unmasked := s.b.host.unmasked.filter (fun y => decide (y ≠ v)) }.settle s.tm }))) ∧
  -- APERTURE_ACCESS (R378)
  (∀ (s : State) (t off n : Nat) (l : List Byte), s.b.hostIn = true → s.b.tentReached t = true → t < 64 →
    s.b.asleep = false → 0 < n → off + n ≤ 2 ^ 28 → l.length = n →
    let a := s.b.fget clsTent t FTent.apertureBase + off
    (s.b.regionGrants (1028 + t) 1 a n true false = true →
      (s.b.dramHeld a n = false → exec (.apertureAccess t off n none) s = .next { s with
        b := { s.b.dramPost 5 t a n false with reply := ⟨stOk, 0, wordsOf (s.b.dramBytes a n)⟩ } }) ∧
      (s.b.dramHeld a n = true → exec (.apertureAccess t off n none) s = .next { s with
        b := s.b.dramSend 5 t a n false (.aperture false) ((s.b.dramBytes a n).zipIdx.map (fun e => (a + e.2, e.1))) })) ∧
    (s.b.regionGrants (1028 + t) 1 a n true false = false →
      exec (.apertureAccess t off n none) s = .next { s with
        b := ({ s.b with outputs := s.b.outputs ++ [.completerAbort t] } : Body).bump clsTent t FTent.dmaDenied 1 }) ∧
    (s.b.regionGrants (1028 + t) 1 a n false true = true →
      (s.b.dramHeld a n = false → exec (.apertureAccess t off n (some l)) s = .next { s with
        b := { (s.b.dramPut a l).dramSend 5 t a n true .posted (l.zipIdx.map (fun e => (a + e.2, e.1))) with
          reply := ⟨stOk, 0, []⟩ } }) ∧
      (s.b.dramHeld a n = true → exec (.apertureAccess t off n (some l)) s = .next { s with
        b := (s.b.dramPut a l).dramSend 5 t a n true (.aperture true) (l.zipIdx.map (fun e => (a + e.2, e.1))) })) ∧
    (s.b.regionGrants (1028 + t) 1 a n false true = false →
      exec (.apertureAccess t off n (some l)) s = .next { s with b := s.b.bump clsTent t FTent.dmaDenied 1 }))

/-- In the modes that allow tent operations and with none in progress: PITCH, UNFREEZE, FREEZE, STRIKE, SAVE and
RESTORE answer OK with the STATE, OP_BUSY and SAVED that their rules give; HOST_RESET resets the tent's host part.
TENT_FROZEN, FREEZE_TIMEOUT, STRIKE_SETTLE, SAVE_DONE and RESTORE_DONE end what is in progress with its status. The
model's choices in it, which no rule states: what an image holds (assumption log 22), OP_BUSY left 0 by FREEZE and
STRIKE (95), the judging at boundaries (96) and a RESTORE read again after a change of GENERATION (130). -/
def Obligations.TentOperations : Prop :=
  (∀ (s : State) (t : Nat), t < 64 → Admits s .biv clsTent t true → s.b.tentMode = true →
    s.b.fget clsTent t FTent.opBusy = 0 →
    let st := s.b.fget clsTent t FTent.state
    let up := (s.b.fset clsTent t FTent.state 1).fset clsTent t FTent.saved 0
    let down := fun (strike : Bool) =>
      let b1 := (s.b.fset clsTent t FTent.state 2).fset clsTent t FTent.saved 0
      { b1 with host.freezes := mapPut t ⟨strike, 0, false⟩ b1.host.freezes }
    let img := s.b.tentImage s.tm t
    -- PITCH and UNFREEZE (R387, R379)
    (st = 0 → up.pasidClash = false → exec (.pitch .biv t) s = .next (s.answered (up.freshQueues t))) ∧
    (st = 3 → up.pasidClash = false → exec (.unfreeze .biv t) s = .next (s.answered up)) ∧
    -- FREEZE (R389)
    (st = 1 → exec (.freeze .biv t) s = .next (s.answered (down false))) ∧
    -- STRIKE (R392)
    (st = 1 → exec (.strike .biv t) s = .next (s.answered (down true))) ∧
    (st = 3 → s.b.fget clsTent t FTent.saved = 1 →
      exec (.strike .biv t) s = .next (s.answered ((s.b.handOff t).settleStrike t))) ∧
    (st = 3 → s.b.fget clsTent t FTent.saved = 0 → exec (.strike .biv t) s = .next (s.answered (down true))) ∧
    -- SAVE (R390) and RESTORE (R391)
    (st = 3 →
      let b1 := (s.b.imageReads t).foldl (fun (x : Body) r => x.dramPost r.1 0 r.2.1 r.2.2 false)
        (s.b.fset clsTent t FTent.opBusy 1)
      exec (.save .biv t) s = .next
        (if img.length ≤ s.b.fget clsTent t FTent.imageLimit then
          s.answered { b1 with host.saving := mapPut t img b1.host.saving }
        else { s with b := ({ s.b with reply := ⟨stOutOfRange, 0, []⟩ } : Body).settle s.tm })) ∧
    (st = 0 →
      let b1 := (s.b.fset clsTent t FTent.opBusy 1).fset clsTent t FTent.saved 0
      exec (.restore .biv t) s = .next (s.answered { b1 with
        host.restoring := mapPut t (s.b.generation t) b1.host.restoring })) ∧
    -- HOST_RESET (R385), by the Bivouac or by the tent's host
    (∀ au, Admits s au clsTent t true → st = 1 ∨ st = 2 ∨ st = 3 →
      exec (.hostReset au t) s = .next (s.answered (s.b.hostReset t)))) ∧
  (∀ (s : State) (t : Nat),
    let b := s.b
    (∀ f : Freezing, mapFind t b.host.freezes = some f → f.judged = true →
      -- TENT_FROZEN and FREEZE_TIMEOUT (R389), STRIKE_SETTLE (R392)
      (f.strike = false → b.fget clsTent t FTent.blockers = 0 →
        exec (.tentFrozen t) s = .next { s with
          b := ((({ b with host.freezes := mapDel t b.host.freezes }.fset clsTent t
            FTent.state 3).fset clsTent t FTent.opStatus stOk).fset clsTent t FTent.opBusy 0) }) ∧
      (b.fget clsTent t FTent.blockers ≠ 0 → b.fget clsTent t FTent.freezeTicks ≤ f.ticks →
        exec (.freezeTimeout t) s = .next { s with
          b := ((({ b with host.freezes := mapDel t b.host.freezes }.fset clsTent
            t FTent.state 1).fset clsTent t FTent.opStatus stBusy).fset clsTent t FTent.opBusy 0).bump clsTent t
            FTent.freezeFails 1 }) ∧
      (f.strike = true → b.fget clsTent t FTent.blockers = 0 →
        exec (.strikeSettle t) s = .next { s with b := (b.settleStrike t).settle s.tm })) ∧
    -- SAVE_DONE (R390), once the DRAM that the image comes from is not frozen (R346)
    (∀ l : List Byte, mapFind t b.host.saving = some l →
      (∀ r, r ∈ b.imageReads t → b.dramHeld r.2.1 r.2.2 = false) →
      let b1 := { b with host.saving := mapDel t b.host.saving }.hostWrite t (b.fget clsTent t FTent.imageAddr) l
      exec (.saveDone t) s = .next { s with
        b := (((b1.fset clsTent t FTent.imageBytes l.length).fset clsTent t
          FTent.saved 1).fset clsTent t FTent.opStatus stOk).fset clsTent t FTent.opBusy 0 }) ∧
    -- RESTORE_DONE (R391, R386)
    (∀ (bytes : List Byte) (gen : Nat), mapFind t b.host.restoring = some gen →
      let st := b.imageCheck bytes
      let clean := { ((b.cleanTent t).fset clsTent t FTent.opStatus st).fset clsTent t FTent.opBusy 0 with
        host.restoring := mapDel t b.host.restoring }
      (gen = b.generation t → exec (.restoreDone t bytes) s = .next { s with
        b := (match imageOf b.tents bytes with
          | some img => if st = stOk then (b.restoreImage t img).getD b else clean
          | none => clean).settle s.tm }) ∧
      (gen ≠ b.generation t → exec (.restoreDone t bytes) s = .next { s with
        b := ({ b.bump clsTent t FTent.genStale 1 with
          host.restoring := mapPut t (b.generation t) b.host.restoring }.settle s.tm) })))

/-- Loss of supplies or RESET_N low leaves Cold with every field at its reset value, memory empty and only the store,
the firmware slots and the pins kept; Boot follows, with the time base reset, once both the supplies have returned and
RESET_N is high; a device reset that has drained does the same, keeps the pins, records cause 1 and the frames lost;
THERM_TRIP at 160 degrees or more only raises the pin; a scope reset, a crossing resync (which sends what PCIE_OUT and
BIV_IN held), PCIE_RESET and MGMT_TIMEOUT (which leaves the next access unanswered) do what their rules say. The
model's choices in it, which no rule states: the masks of the vectors and the MSI-X table at PCIE_RESET (assumption
logs 69 and 131, PRESUMED) and which access a management timeout takes (157). -/
def Obligations.ResetCommands : Prop :=
  -- what a reset leaves (R43, R434, R436, R464)
  (∀ s : State, ∃ b1 : Body, exec .suppliesLost s = .next { s with b := b1 } ∧
    exec .resetNLow s = .next { s with
      b := { b1 with sys.resetLow := true, sys.supplyLost := s.b.sys.supplyLost } } ∧
    b1.sys = { Sys.reset with
      base := .cold, pfailLow := s.b.sys.pfailLow, resetLow := s.b.sys.resetLow, supplyLost := true } ∧
    b1.fields = [] ∧ b1.mem = Mems.reset ∧ b1.isa = ⟨[], [], [], []⟩ ∧ b1.work = Work.reset ∧ b1.net = Net.reset ∧
    b1.adm = { Adm.reset with slots := s.b.adm.slots, fwActive := s.b.adm.fwActive, fwImage := s.b.adm.fwImage }) ∧
  (∀ s : State, s.b.sys.base = .cold → ∃ b1 : Body,
    (s.b.sys.resetLow = false → exec .suppliesReturn s = .next { s with tm := Time.reset, b := b1 }) ∧
    (s.b.sys.resetLow = true → exec .suppliesReturn s = .next { s with b.sys.supplyLost := false }) ∧
    (s.b.sys.supplyLost = false → exec .resetNRelease s = .next { s with tm := Time.reset, b := b1 }) ∧
    (s.b.sys.supplyLost = true → exec .resetNRelease s = .next { s with b.sys.resetLow := false }) ∧
    b1.sys = { Sys.reset with pfailLow := s.b.sys.pfailLow } ∧ b1.fields = [] ∧ b1.mem = Mems.reset ∧
    b1.adm = { Adm.reset with slots := s.b.adm.slots, fwActive := s.b.adm.fwActive, fwImage := s.b.adm.fwImage }) ∧
  -- DEVICE_RESET_START once the drain is over (R435, R348)
  (∀ (s : State) (n : Nat), s.b.adm.draining = some n →
    s.b.unreleased = 0 ∨ s.b.fget clsDram 0 FDram.drainTicks ≤ n → ∃ b1 : Body,
    exec .deviceResetStart s = .next { s with tm := Time.reset, b := b1 } ∧
    b1.sys = { Sys.reset with
      pfailLow := s.b.sys.pfailLow, resetLow := s.b.sys.resetLow, supplyLost := s.b.sys.supplyLost
      thermTrip := s.b.sys.thermTrip } ∧
    b1.fget clsClock 0 FClock.resetCause = 1 ∧
    (s.b.anyFrozen = true → b1.fget clsDram 0 FDram.freezeLost = s.b.unreleased % 2 ^ FDram.freezeLost.width) ∧
    (s.b.anyFrozen = false → b1.fget clsClock 0 FClock.resetLost = s.b.unreleased % 2 ^ FClock.resetLost.width) ∧
    b1.mem = Mems.reset ∧ b1.isa = ⟨[], [], [], []⟩ ∧ b1.work = Work.reset) ∧
  -- THERM_TRIP (R469)
  (∀ (s : State) (k : Nat), k < 24 → s.b.sys.base ≠ .cold →
    160 * 16 ≤ signedOf 16 (s.b.fget clsSensor (0x20 + k) FTemp.temp) →
    exec (.thermTrip k) s = .next { s with b.sys.thermTrip := true }) ∧
  -- SCOPE_RESET_START and CROSSING_RESYNC (R437)
  (∀ (s : State) (k : BitVec 8), k.toNat ∈ s.b.adm.scopes →
    exec (.scopeResetStart k) s = .next { s with
      b := (({ s.b with adm.scopes := s.b.adm.scopes.erase k.toNat }.scopeReset s.tm k.toNat).settle s.tm) }) ∧
  (∀ (s : State) (x : Nat), x < 0x25 → s.b.fget clsClock (0x100 + x) FCross.ready = 0 →
    exec (.crossingResync x) s = .next { s with
      b := (((s.b.fset clsClock (0x100 + x) FCross.ready 1).bump clsClock (0x100 + x) FCross.resyncs 1).crossNow
        x).settle s.tm }) ∧
  (∀ b : Body, b.crossNow 0x24 = { b with net.bivIn := b.net.bivIn ++ b.net.bivWait, net.bivWait := [] } ∧
    (b.hostOut = true → b.crossNow 0x23 = { b with outputs := b.outputs ++ b.host.held, host.held := [] })) ∧
  -- PCIE_RESET (R385) and MGMT_TIMEOUT (R433)
  (∀ s : State, s.b.sys.base ≠ .cold →
    exec .pcieReset s = .next { s with
      b := ({ ((List.range s.b.tents).foldl (fun (x : Body) t => x.hostReset t) s.b) with
        host.msix := [], host.unmasked := [], host.pba := [], host.functionMask := false } : Body).settle s.tm } ∧
    exec .mgmtTimeout s = .next { s with
      b := { ({ s.b with reply := ⟨stBusy, 0, []⟩ } : Body).bump clsClock 0 FClock.mgmtTimeouts 1 with
        adm.unanswered := true } })

/-- BOOT_COMPLETE repairs failing columns with spares, records a failure and stays, or runs the image of the slot that
verifies (the active one first), shows firmware and store, retires the cores and clusters that no spare repairs and
enters Survey; HOLDUP_MEASURE_DONE, after row 1, gives the bank's capacitance or none; SURVEY_COMPLETE shows rows 2 to
6 and, once row 7 has run and row 8 where it is due, judges Survey and enters Standby; CONFIG_RESTORE, the last row,
re-pitches to the stored N or, with that N, writes the stored set; FIRMWARE_HANDOVER runs the new image on reset
cores, and FW_READY_TIMEOUT after two seconds the old one. The model's choices in it, which no rule states: the waits
(assumption log 1), the hash and the signature (10, opaque), the columns that BOOT_COMPLETE names (38), BOOT_SLOT
(88), the rows of Survey (109) and where an image lies and what its version is (155). -/
def Obligations.BootAndSurvey : Prop :=
  -- BOOT_COMPLETE (R448): the failing columns are repaired with spares (R326); where Boot fails it stays
  (∀ (s : State) (r : BootResult), s.b.sys.base = .boot → s.b.fget clsPower 0 FPower.bootStatus = 0 →
    let p := s.b.repairColumns r.columns
    let fails := fun (code : Nat) => exec (.bootComplete r) s = .next { s with
      b := (p.1.fset clsPower 0 FPower.bootStatus code).fset clsPower 0 FPower.bootMs r.ms.toNat }
    let lost := p.2.any (fun m => decide (m < 0x100))
    (lost = true → fails 1) ∧
    (lost = false → r.flash = false → fails 3) ∧
    (lost = false → r.flash = true → s.b.bootChoice = none → fails 2) ∧
    -- Boot that passes runs the image of the slot; the cores and clusters without a spare retire, and Survey follows
    -- (R448, R449, R452)
    (∀ k, lost = false → r.flash = true → s.b.bootChoice = some k →
    let b1 := (p.1.fset clsPower 0 FPower.bootStatus 0).fset clsPower 0 FPower.bootMs r.ms.toNat
    let b2 := (b1.fset clsPower 0 FPower.bootSlot k).runImage k
    let b3 := ((((b2.fset clsStore 2 FStore.valid 1).showStore 0).showStore 1).showStore 3).showStore 4
    let b4 := p.2.foldl (fun (x : Body) m =>
      if m < 0x200 then x.retireOne s.tm (m - 0x100) 1 else x.retireCluster s.tm (m - 0x200)) b3.bootCalib.loadKeys
    let b5 := (({ b4 with adm.mailbox.ready := true } : Body).setBase .survey).holdPorts.fset clsPower 0
      FPower.modeTarget 0
    exec (.bootComplete r) s = .next { s with
      b := { b5 with
        adm.bootSet := false, adm.survey := ⟨[], none, false, false⟩
        drm.speedLimit := b5.fget clsDram 0 FDram.speedMax } })) ∧
  -- the slot Boot starts: the active one where its image verifies against the fused hash, or else the other (R449); the
  -- image is in Bivouac memory and its version is shown (R448, R424)
  (∀ b : Body,
    let good := fun (k : Nat) => Config.sha384 (Config.imageKey (b.fwSlot k)) = Config.fusedKeyHash ∧
      Config.signatureGood (Config.imageKey (b.fwSlot k)) (b.fwSlot k) = true
    (good b.adm.fwActive → b.bootChoice = some b.adm.fwActive) ∧
    (¬ good b.adm.fwActive → good (1 - b.adm.fwActive) → b.bootChoice = some (1 - b.adm.fwActive)) ∧
    (¬ good b.adm.fwActive → ¬ good (1 - b.adm.fwActive) → b.bootChoice = none) ∧
    (∀ k, (b.runImage k).fget clsDevice 0 FDevice.fwVersion = Config.fwVersionOf (b.fwSlot k) % 2 ^ 32)) ∧
  -- HOLDUP_MEASURE_DONE (R451): row 7, once, after row 1
  (∀ (s : State) (mv : Nat) (dt : Option Nat), s.b.sys.base = .survey → s.b.adm.survey.bank = false →
    let b1 := { s.b.endRow1.sampleBank mv with sys.holdupChg := true, adm.survey.bank := true }
    let lo := b1.fget clsPower 0 FPower.measLoMv
    let hi := b1.fget clsPower 0 FPower.measHiMv
    (lo ≤ b1.fget clsPower 0 FPower.bankMv →
      exec (.holdupMeasureDone mv dt) s = .next { s with b := b1.fset clsPower 0 FPower.holdupMeasured 0 }) ∧
    (b1.fget clsPower 0 FPower.bankMv < lo →
      (∀ us, us ≤ 800000 →
        let uf := b1.fget clsPower 0 FPower.chargeMa * us / (hi - lo)
        exec (.holdupMeasureDone mv (some us)) s = .next { s with
          b := (b1.fset clsPower 0 FPower.bankCapUf (if uf < 2 ^ 32 then uf else Config.counterOver 32 uf)).fset clsPower
            0 FPower.holdupMeasured 1 }) ∧
      ((∀ us, dt = some us → 800000 < us) → exec (.holdupMeasureDone mv dt) s = .next { s with
        b := (b1.fset clsPower 0 FPower.bankCapUf 0).fset clsPower 0 FPower.holdupMeasured 0 }))) ∧
  -- CONFIG_RESTORE (R453), the last row: the re-pitch to the saved N, or, with that N, the tents and the records
  (∀ (s : State) (q : Nat) (e : Bool) (n : Nat) (sts : List Nat) (rs : List (ObjAddr × Nat)), s.b.sys.base = .survey →
    s.b.fget clsPower 0 FPower.autoRestore = 1 → s.b.adm.bootSet = false → s.b.adm.survey.bank = true →
    s.b.adm.survey.shown = true → s.b.storeSlot 0 = some ⟨q, e, .config n sts rs⟩ →
    (s.b.tents = n →
      let d := rs.foldl Dev.restoreRecord ⟨s.tm, s.b.asStandby.restoreTents sts⟩
      exec .configRestore s = .next { s with
        tm := d.tm
        b := ({ d.b with
          adm.bootSet := true
          sys := { d.b.sys with base := .survey, hold := s.b.sys.hold, row8 := false } } : Body).settle d.tm }) ∧
    (s.b.tents ≠ n → s.b.pitchPending = false →
      let d := ((Dev.mk s.tm s.b.asStandby).fieldWrite .biv clsTent 0x100 FTents.nNext n).2.2
      let b1 := d.b.repitchWrite.2
      exec .configRestore s = .next { s with
        tm := d.tm
        b := ({ b1 with sys := { b1.sys with base := .survey, hold := s.b.sys.hold, row8 := false } } : Body).settle
          d.tm })) ∧
  -- SURVEY_COMPLETE (R450, R335): rows 2 to 6 are shown, and Survey ends once row 7 has run, and row 8 where it is due
  (∀ (s : State) (r : SurveyResult), s.b.sys.base = .survey →
    let row1 := s.b.adm.survey.verdict.getD ((if s.b.anyOut then 2 else 0) + (if s.b.anyHot then 4 else 0))
    let b0 : Body := { s.b with adm.survey.verdict := some row1 }
    let d := b0.surveyDram r
    let b1 := ((d.2.surveyPorts r).fset clsSensor 0x100 FHostLink.pcieWidth r.pcieWidth.toNat).fset clsSensor 0x100
      FHostLink.pcieSpeed r.pcieSpeed.toNat
    let bad := (if d.1 then 0 else 1) + b1.adm.survey.verdict.getD 0
    let b2 := { b1.fset clsPower 0 FPower.surveyFail bad with adm.survey.shown := true }
    (b2.adm.survey.bank = false ∨ b2.rowEightDue = true → exec (.surveyComplete r) s = .next { s with b := b2 }) ∧
    (b2.adm.survey.bank = true → b2.rowEightDue = false → exec (.surveyComplete r) s = .next { s with
      b := ((b2.fset clsPower 0 FPower.surveyOk
        (if b2.fget clsPower 0 FPower.surveyFail = 0 then 1 else 0)).fset clsPower 0 FPower.surveyMs
          r.ms.toNat).enterMode .standby })) ∧
  -- FIRMWARE_HANDOVER and FW_READY_TIMEOUT (R447)
  (∀ (s : State) (f : Handover), s.b.adm.fw = some f →
    (f.started = false → exec .firmwareHandover s = .next { s with
      b := { (s.b.resetCores s.tm).runImage f.slot with
        adm.fw := some ⟨f.slot, true, s.tm.now⟩
        adm.mailbox.ready := false } }) ∧
    (f.started = true →
      let d := (Dev.mk s.tm s.b).waitUntil ((f.since + 2 * 10 ^ 9 * 2 ^ 16) % 2 ^ 64)
      exec .fwReadyTimeout s = .next { s with
        tm := d.tm
        b := (({ (d.b.resetCores d.tm).runImage (d.b.fget clsPower 0 FPower.bootSlot) with
          adm.fw := none, adm.mailbox.ready := true }.bump clsPower 0 FPower.fwRollbacks 1).leaveUpdate) }))

/-- DRAIN_SETTLE enters the target; DORMANT_ENTRY sleeps, or refuses where a source has fired or Hold is shown; WAKE
by an enabled source that has fired records the cause and enters Standby; PFAIL enters Hold with its checkpoint, and
from Dormant wakes with the reply; HOLD_LIFT leaves Hold once its condition has been clear for HOLD_RELEASE_MS;
SENSOR_SAMPLE shows PFAIL_N, a supply or a temperature with its extremes, excursions and alarms, and row 1 of Survey
notes it. The model's choices in it, which no rule states: the wait for HOLD_RELEASE_MS (assumption log 1), the
instances 0x200 and 0x201 of SENSOR_SAMPLE (34), fired sources kept until a wake or a failed sleep uses them (91), the
end of row 1 (109) and a sleep that Hold overtakes (159). -/
def Obligations.PowerModeCommands : Prop :=
  -- DRAIN_SETTLE (R446)
  (∀ s : State, s.b.sys.base = .drain → s.b.settled = true → s.b.fget clsPower 0 FPower.modeTarget = 3 →
    exec .drainSettle s = .next { s with b := s.b.enterMode .standby }) ∧
  -- DORMANT_ENTRY and WAKE (R454, R455)
  (∀ (s : State) (c : Caller), s.b.adm.sleep = some c → s.b.sys.base = .standby → s.b.sys.hold = false →
    (s.b.adm.fired = 0 → exec .dormantEntry s = .next { s with b := (s.b.enterMode .dormant).settle s.tm }) ∧
    (s.b.adm.fired ≠ 0 → exec .dormantEntry s = .next { s with
      b := (({ s.b with adm.fired := 0, adm.sleep := none }.sendReply c stWokeBeforeSleep []).settle s.tm) })) ∧
  (∀ (s : State) (c : Caller), s.b.adm.sleep = some c → s.b.sys.base = .standby → s.b.sys.hold = true →
    exec .dormantEntry s = .next { s with
      b := (({ s.b with adm.fired := 0, adm.sleep := none }.sendReply c stWokeBeforeSleep []).settle s.tm) }) ∧
  (∀ (s : State) (k : Nat), s.b.sys.base = .dormant → s.b.sys.hold = false → k < 5 →
    (s.b.fget clsPower 0 FPower.wakeEn).testBit k = true → s.b.adm.fired.testBit k = true →
    exec (.wake k) s = .next { s with
      b := ((({ s.b.fset clsPower 0 FPower.wakeCause s.b.adm.fired with adm.fired := 0 }.enterMode
        .standby).replySleep stOk).settle s.tm) }) ∧
  -- PFAIL and HOLD_LIFT (R456)
  (∀ s : State, s.b.sys.base ≠ .cold → s.b.sys.base ≠ .boot → s.b.sys.hold = false →
    let b1 := ({ s.b with sys.pfailLow := true } : Body).setLevel 0 true
    let b2 := (b1.overlay (fun x => { x with sys.hold := true })).bump clsPower 0 FPower.holds 1
    (s.b.asleep = false → exec .pfail s = .next { s with b := b2.holdCheckpoint }) ∧
    (s.b.asleep = true → exec .pfail s = .next { s with
      b := (({ b2.fset clsPower 0 FPower.wakeCause b2.adm.fired with adm.fired := 0 }.replySleep stOk)).holdCheckpoint })) ∧
  (∀ s : State, s.b.sys.hold = true → s.b.brownOut = false →
    let b0 := ({ s.b with
      sys.pfailLow := false
      sys.clearSince := if s.b.sys.pfailLow then s.tm.now else s.b.sys.clearSince } : Body).setLevel 0 false
    let d := (Dev.mk s.tm b0).waitUntil ((b0.sys.clearSince + b0.fget clsPower 0 FPower.holdReleaseMs * 1000000 * 2 ^ 16) %
      2 ^ 64)
    let b2 := d.b.overlay (fun x => { x with sys.hold := false })
    exec .holdLift s = .next { s with
      tm := d.tm
      b := (if b2.sys.base = .dormant then b2.enterMode .standby else b2).settle d.tm }) ∧
  -- PFAIL_N as SENSOR_SAMPLE 0x201 shows it: source 0 follows it, and Hold's release time starts when it goes high (R456)
  (∀ (s : State) (raw : BitVec 16), s.b.sys.base ≠ .cold → s.b.sys.base ≠ .boot →
    exec (.sensorSample 0x201 raw) s = .next { s with
      b := if raw = 0 then ({ s.b with sys.pfailLow := true } : Body).setLevel 0 true
        else ({ s.b with
          sys.pfailLow := false
          sys.clearSince := if s.b.sys.pfailLow then s.tm.now else s.b.sys.clearSince } : Body).setLevel 0 false }) ∧
  -- SENSOR_SAMPLE (R461)
  (∀ (s : State) (i : Nat) (raw : BitVec 16), s.b.sys.base ≠ .cold → i < 12 →
    let v : Int := raw.toNat + signedOf 16 (s.b.fget clsSensor i FSupply.offsetMv)
    0 ≤ v → v < 65536 →
    let mv := v.toNat
    let out := decide (mv < s.b.fget clsSensor i FSupply.lowMv ∨ s.b.fget clsSensor i FSupply.highMv < mv)
    let b1 := ((s.b.fset clsSensor i FSupply.mv mv).fset clsSensor i FSupply.minMv
      (min mv (s.b.fget clsSensor i FSupply.minMv))).fset clsSensor i FSupply.maxMv
        (max mv (s.b.fget clsSensor i FSupply.maxMv))
    let b2 := if out ∧ s.b.fget clsSensor i FSupply.out = 0 then b1.bump clsSensor i FSupply.excursions 1 else b1
    let b3 := b2.fset clsSensor i FSupply.out (if out then 1 else 0)
    let b4 := b3.setLevel 2 b3.anyOut
    exec (.sensorSample i raw) s = .next { s with
      b := (if b4.brownOut then b4.enterHold
        else if s.b.brownOut then { b4 with sys.clearSince := s.tm.now } else b4).rowSample i }) ∧
  (∀ (s : State) (i : Nat) (raw : BitVec 16), s.b.sys.base ≠ .cold → 0x20 ≤ i → i < 0x38 →
    let t := raw.toInt + signedOf 16 (s.b.fget clsSensor i FTemp.offset); -32768 ≤ t → t < 32768 →
    let crit := signedOf 16 (s.b.fget clsSensor i FTemp.crit)
    let was := s.b.fget clsSensor i FTemp.hot == 1
    let hot := decide (crit < t) || (was && decide (crit - 32 ≤ t))
    let b1 := (s.b.fset clsSensor i FTemp.temp (codeOf 16 t)).fset clsSensor i FTemp.maxF
      (codeOf 16 (max t (signedOf 16 (s.b.fget clsSensor i FTemp.maxF))))
    let b2 := if hot && !was then b1.bump clsSensor i FTemp.excursions 1 else b1
    let b3 := (b2.fset clsSensor i FTemp.hot (if hot then 1 else 0)).fset clsSensor i FTemp.warm
      (if signedOf 16 (s.b.fget clsSensor i FTemp.warn) < t then 1 else 0)
    exec (.sensorSample i raw) s = .next { s with b := (b3.setLevel 1 b3.anyHot).rowSample i }) ∧
  -- row 1 of Survey notes each monitor and sensor once (R450)
  (∀ (b : Body) (i : Nat), (b.sys.base ≠ .survey → b.rowSample i = b) ∧
    (b.sys.base = .survey → i ∉ b.adm.survey.sampled → b.adm.survey.sampled.length ≠ 35 →
      b.rowSample i = { b with adm.survey.sampled := i :: b.adm.survey.sampled }))

/-- CLOCK_EDGE_TIMEOUT loses a monitored clock with its effects, CLOCK_RESTORED restores it, CLOCK_FREQUENCY_WINDOW
shows the offset and loses a clock beyond 1,000 ppm; STORE_WRITE_DONE programs the header of the other slot with the
next sequence number, and then erases the older slot and ends the write; COUNTER_CHECKPOINT starts a write at the end
of its period; a store write passes the energy check exactly when the load and the capacitance are known and one and a
half times its energy is in the bank. The model's choices in it, which no rule states: the waits (assumption log 1),
the vectors of a lost PCIe clock (69), SEQ 1 of a first write (85) and the operand 16 above the area (156). -/
def Obligations.ClockAndStore : Prop :=
  (∀ s : State, s.b.sys.base ≠ .cold →
    -- CLOCK_EDGE_TIMEOUT and CLOCK_RESTORED (R430, R431)
    (∀ ck : ClockIn, s.b.monitored ck = true → s.b.isLost ck = false →
      exec (.clockEdgeTimeout ck) s = .next { s with b := (s.b.loseClock ck).settle s.tm }) ∧
    (∀ ck : ClockIn, s.b.isLost ck = true →
      exec (.clockRestored ck) s = .next { s with b := (s.b.restoreClock ck).settle s.tm }) ∧
    (s.b.loseClock .sys = ((s.b.fset clsClock 0 FClock.sysLost 1).fset clsClock 0 FClock.sysHoldover 1).clockLevel) ∧
    (s.b.loseClock .pcie = ({ ((List.range (s.b.fset clsClock 0 FClock.pcieLost 1).tents).foldl
      (fun (x : Body) t => x.hostReset t) (s.b.fset clsClock 0 FClock.pcieLost 1)) with
        host.msix := [], host.unmasked := [], host.pba := [], host.functionMask := false } : Body).clockLevel) ∧
    (∀ g, s.b.loseClock (.group g) = ([4 * g, 4 * g + 1, 4 * g + 2, 4 * g + 3].foldl
      (fun (x : Body) p => if x.portUp p then x.linkDown p else x)
      (s.b.fset clsClock 0 FClock.refLost (s.b.fget clsClock 0 FClock.refLost ||| 2 ^ g))).clockLevel) ∧
    -- CLOCK_FREQUENCY_WINDOW (R430)
    (∀ (ck : ClockIn) (ppb : Int), s.b.monitored ck = true → ck ≠ .sys → s.b.isLost .sys = false →
      -2 ^ 31 ≤ ppb → ppb < 2 ^ 31 →
      let b1 := s.b.fset clsClock 0 (offsetField ck) (codeOf 32 ppb)
      (ppb.natAbs ≤ 1000000 → exec (.clockFrequencyWindow ck ppb) s = .next { s with b := b1.settle s.tm }) ∧
      (1000000 < ppb.natAbs → s.b.isLost ck = false →
        exec (.clockFrequencyWindow ck ppb) s = .next { s with b := (b1.loseClock ck).settle s.tm }))) ∧
  (-- STORE_WRITE_DONE (R457): the header of the other slot is programmed (the operand 16 above the area), both slots being
  -- valid and the write in progress; then the older slot is erased and the write ends
  (∀ (s : State) (j : StoreJob), s.b.adm.job = some j → j.area < 5 → s.b.sys.base ≠ .cold → s.b.adm.holdDue = false →
    s.b.adm.ckptDue = false →
    let a := j.area
    let k := match s.b.currentSlot a with
      | some 0 => 1
      | _ => 0
    let seq := (match s.b.storeSlot a with
      | some x => x.seq + 1
      | none => 1) % 2 ^ 32
    let b0 : Body := if j.headed = true then s.b else ({ s.b with
      adm.slots := mapPut (2 * a + k) ⟨seq, j.empty, j.body⟩ s.b.adm.slots
      adm.job := some ⟨a, j.empty, j.body, true⟩ } : Body).showStore a
    let b1 := { b0 with adm.slots := mapDel (2 * a + (1 - (b0.currentSlot a).getD 0)) b0.adm.slots, adm.job := none }
    let b2 := ((((b1.showStore a).fset clsStore a FStore.writing 0).fset clsStore 0x100 FFlash.busy 0).fset clsStore a
        FStore.lastStatus stOk).bump clsStore a FStore.writes 1
    exec (.storeWriteDone (16 + a)) s = .next { s with b := b0 } ∧
    exec (.storeWriteDone a) s = .next { s with
      b := if a = 1 ∧ j.empty = true then b2.factoryCalib.fset clsPower 0 FPower.calibSource 0
        else if a = 4 then b2.bump clsPower 0 FPower.ckptDone 1
        else b2 }) ∧
  -- COUNTER_CHECKPOINT (R459): the period expires and the checkpoint starts
  (∀ s : State,
    let ms := s.b.fget clsPower 0 FPower.ckptMs
    ms ≠ 0 → s.b.sys.base ≠ .cold → s.b.sys.base ≠ .boot → s.b.asleep = false → s.b.adm.ckptDue = false →
    let t := (s.b.adm.ckptAt + ms * 1000000 * 2 ^ 16) % 2 ^ 64
    let d := (Dev.mk s.tm s.b).waitUntil t
    d.b.adm.job = none → d.b.ckptHeld = false →
    exec .counterCheckpoint s = .next { s with
      tm := d.tm
      b := ({ d.b with adm.ckptAt := t, adm.ckptDue := false }.ckptReads.startStore 4 false d.b.ckptBody) }) ∧
  -- the energy check (R458)
  (∀ (b : Body) (area n : Nat),
    let cap := b.fget clsPower 0 FPower.bankCapUf
    let mv := b.fget clsPower 0 FPower.bankMv
    let lo := b.fget clsPower 0 FPower.bankMinMv
    let load := b.fget clsPower 0 FPower.holdLoadMw
    (b.energyCheck area n).1 = decide (load ≠ 0 ∧ cap ≠ 0 ∧ 3000 * (load * b.writeUs n) ≤
      cap * (if mv ≤ lo then 0 else mv * mv - lo * lo))))

/-- A message that passes the checks of R413, the first of those that wait to have come, is performed and answered OK
with the reply parameters of its opcode. The model's choices in it, which no rule states: that a row is performed on a
message of its opcode (assumption log 112). -/
def Obligations.ShesinObjectOpcodes : Prop :=
  ∀ (s : State) (m : Msg) (c : Caller) (au : Auth) (p : List Byte) (b : Body),
    let d : Dev := ⟨s.tm, b⟩
    let a := objAddress p
    (Received s m 0x01 c au p b → exec (.echo m) s = .next (s.replied c d p)) ∧
    (Received s m 0x02 c au p b → exec (.identify m) s = .next (s.replied c d
      (beBytes 2 (b.fget clsDevice 0 FDevice.part) ++ beBytes 1 (b.fget clsDevice 0 FDevice.revision) ++ [0] ++
        beBytes 4 (b.fget clsDevice 0 FDevice.fwVersion) ++ beBytes 8 (b.fget clsDevice 0 FDevice.serial)))) ∧
    (∀ ws d1, Received s m 0x10 c au p b → 1 ≤ a.2.2.2 → a.2.2.2 ≤ 1024 →
      d.objRead au a.1 a.2.1 a.2.2.1 a.2.2.2 = (stOk, ws, d1) →
      exec (.objRead m) s = .next (s.replied c d1 (ws.flatMap (beBytes 4)))) ∧
    (∀ i d1, Received s m 0x11 c au p b → 1 ≤ a.2.2.2 → a.2.2.2 ≤ 1024 →
      d.objWrite au a.1 a.2.1 a.2.2.1
        ((List.range a.2.2.2).map (fun k => beNat (((p.drop 8).drop (4 * k)).take 4))) = (stOk, i, d1) →
      exec (.objWrite m) s = .next (s.replied c d1 (beBytes 2 i ++ [0, 0]))) ∧
    (∀ old d1, Received s m 0x12 c au p b → a.2.2.2 = 1 →
      d.objModify au a.1 a.2.1 a.2.2.1 (beNat ((p.drop 8).take 4)) (beNat ((p.drop 12).take 4)) = (stOk, old, d1) →
      exec (.objModify m) s = .next (s.replied c d1 (beBytes 4 old)))

/-- A message that passes the checks of R413 and whose operands are in range is performed with the effect of its
opcode and answered OK; MODE_SET to Dormant waits for its reply; a store write that may start takes its area and body;
FW_ACTIVATE of an image that does not verify answers AUTH_FAIL. The model's choices in it, which no rule states: the
hash and the signature (assumption log 10, opaque), the bytes of a stored set and 0xFF beyond them (31), and that a
store command replies when its write is accepted (85). -/
def Obligations.ShesinDeviceOpcodes : Prop :=
  (∀ (s : State) (m : Msg) (c : Caller) (au : Auth) (p : List Byte) (b : Body),
    -- MODE_SET (R445); to Dormant its reply waits (R454)
    (∀ b1, Received s m 0x20 c au p b → b.modeSet (byteAt p 0) = (some stOk, b1) →
      exec (.modeSet m) s = .next (s.replied c ⟨s.tm, b1⟩ [])) ∧
    (∀ b1, Received s m 0x20 c au p b → b.modeSet (byteAt p 0) = (none, b1) →
      exec (.modeSet m) s = .next { s with
        b := ({ b1 with adm.sleep := some c }.bump clsDevice 0 FDevice.cmdPerformed 1).settle s.tm }) ∧
    -- THAW (R419, R347)
    (∀ b1, Received s m 0x21 c au p b → byteAt p 0 ≤ 7 → byteAt p 0 < b.dramChannels → b.frozen (byteAt p 0) = true →
      (b.fset clsDram (chanInst (byteAt p 0)) FChan.repair (byteAt p 1 % 2)).thawChannel s.tm (byteAt p 0) none =
        (stOk, b1) →
      exec (.thaw m) s = .next (s.replied c ⟨s.tm, b1.goCuts s.tm⟩ [])) ∧
    -- RESET (R434)
    (Received s m 0x22 c au p b → b.scopeStatus (byteAt p 0) = stOk →
      exec (.resetCmd m) s = .next (s.replied c ⟨s.tm, if byteAt p 0 = 0
        then { b with adm.draining := some (b.adm.draining.getD 0) }
        else { b with adm.scopes := b.adm.scopes ++ [byteAt p 0] }⟩ [])) ∧
    -- LOAD_IMEM and READ_IMEM (R420)
    (Received s m 0x30 c au p b → imemStatus (byteAt p 0) (be16 p 2) ((p.length - 4) / 4) = stOk →
      (b.inBench && b.coreAtWork (byteAt p 0)) = false →
      let at_ := byteAt p 0 * 0x10000 + be16 p 2
      let l := (paramWords ((p.length - 4) / 4) (p.drop 4)).flatMap (leBytes 4)
      exec (.loadImem m) s = .next (s.replied c ⟨s.tm, { b with mem.imem := writeBytes b.mem.imem at_ l }⟩ [])) ∧
    (Received s m 0x31 c au p b → imemStatus (byteAt p 0) (be16 p 2) (be16 p 4) = stOk →
      exec (.readImem m) s = .next (s.replied c ⟨s.tm, b⟩ (((List.range (be16 p 4)).map (fun k =>
        readLE b.mem.imem (byteAt p 0 * 0x10000 + be16 p 2 + 4 * k) 4)).flatMap (beBytes 4))))) ∧
  (∀ (s : State) (m : Msg) (c : Caller) (au : Auth) (p : List Byte) (b : Body),
    -- STORE_SAVE, STORE_READ and RESTORE_FACTORY (R421, R453, R457)
    (Received s m 0x40 c au p b →
      (byteAt p 0 = 0 → let r := b.saveArea 0 (Dev.configSet ⟨s.tm, b⟩)
        exec (.storeSave m) s = .next
          (if r.1 = stOk then s.replied c ⟨s.tm, r.2⟩ [] else s.declined c r.1 r.2)) ∧
      (byteAt p 0 = 1 → let r := b.saveArea 1 (.calib b.calibSet)
        exec (.storeSave m) s = .next
          (if r.1 = stOk then s.replied c ⟨s.tm, r.2⟩ [] else s.declined c r.1 r.2))) ∧
    (Received s m 0x41 c au p b →
      let area := byteAt p 0
      let n := be16 p 2
      let off := beNat ((p.drop 4).take 4)
      area < 3 → 1 ≤ n → n ≤ 1024 → off + n ≤ slotSize area →
      exec (.storeRead m) s = .next (s.replied c ⟨s.tm, b⟩
        ((List.range n).map (fun k => (b.areaBytes area).getD (off + k) 0xFF)))) ∧
    (∀ b1, Received s m 0x42 c au p b → b.storeWrite 1 true .nothing = (stOk, b1) →
      exec (.restoreFactory m) s = .next (s.replied c ⟨s.tm, b1⟩ [])) ∧
    -- a store write that may start (R457, R458)
    (∀ (area : Nat) (e : Bool) (x : StoreBody) (b1 : Body), b.adm.job = none →
      b.energyCheck area x.bytes.length = (true, b1) →
      b.storeWrite area e x = (stOk, { (b1.fset clsStore area FStore.writing 1).fset clsStore 0x100 FFlash.busy 1 with
        adm.job := some ⟨area, e, x, false⟩ })) ∧
    -- SET_KEY (R422)
    (∀ key : List Byte, Received s m 0x43 c au p b →
      let k := byteAt p 0
      k = 0xFF ∨ k < b.tents → b.carriedKey p = some key →
      let r := b.storeWrite 3 false (.keys (mapPut k key b.adm.keys))
      let b2 := (r.2.fset clsDevice (0x100 + k) FKey.valid 1).fset clsDevice (0x100 + k) FKey.seen 0
      let b3 := { b2 with adm.keys := mapPut k key b2.adm.keys }
      exec (.setKey m) s = .next (if r.1 = stOk
        then s.replied c ⟨s.tm, if k = 0xFF then b3.fset clsDevice 0 FDevice.bivKeyValid 1 else b3⟩ []
        else s.declined c r.1 r.2)) ∧
    -- MOD_READ and MOD_WRITE (R423)
    (∀ l : List Byte, Received s m 0x50 c au p b → byteAt p 0 ≤ 15 → 1 ≤ byteAt p 3 → byteAt p 3 ≤ 128 →
      byteAt p 2 + byteAt p 3 ≤ 256 →
      exec (.modRead m (.data l)) s =
        .next (s.replied c ⟨s.tm, b⟩ ((List.range (byteAt p 3)).map (fun k => l.getD k 0)))) ∧
    (∀ l : List Byte, Received s m 0x51 c au p b → byteAt p 0 ≤ 15 → 1 ≤ byteAt p 3 → byteAt p 3 ≤ 128 →
      byteAt p 2 + byteAt p 3 ≤ 256 →
      exec (.modWrite m (.data l)) s = .next (s.replied c ⟨s.tm, { b with
        outputs := b.outputs ++ [.module (byteAt p 0) (byteAt p 1) (byteAt p 2) (p.drop 4)] }⟩ [])) ∧
    -- FW_WRITE and FW_ACTIVATE (R423, R447, R449)
    (Received s m 0x60 c au p b → beNat (p.take 4) + (p.drop 4).length ≤ 2 ^ 23 → b.adm.job = none →
      let at_ := 0x10000 + b.idleSlot * 2 ^ 23 + beNat (p.take 4)
      exec (.fwWrite m) s =
        .next (s.replied c ⟨s.tm, { b with adm.fwImage := writeBytes b.adm.fwImage at_ (p.drop 4) }⟩ [])) ∧
    (Received s m 0x61 c au p b → b.adm.fw = none →
      let b1 := b.enterMode .update
      let image := readBytes b.adm.fwImage (0x10000 + b.idleSlot * 2 ^ 23) (2 ^ 23)
      exec (.fwActivate m) s = .next
        (if Config.sha384 (Config.imageKey image) = Config.fusedKeyHash ∧
            Config.signatureGood (Config.imageKey image) image = true then
          s.replied c ⟨s.tm, { b1 with
            sys := { b1.sys with prevBase := b.sys.base, handover := true }
            adm := { b1.adm with fw := some ⟨b.idleSlot, false, 0⟩ } }⟩ []
        else s.declined c stAuthFail b)))

/-- A message that is not the first to have come waits; a malformed one changes nothing but what discarding it counts;
a message of the opcode that fails a check changes nothing but what the checks count, is not performed, and is
answered with the status of the check and no parameters, but for OBJ_WRITE, whose reply carries INDEX 0 and two zero
bytes. The model's choices in it, which no rule states: INDEX 0 of an OBJ_WRITE that fails before its words are judged
(assumption log 41) and that any row discards a malformed message (112). -/
def Obligations.ShesinRefusals : Prop :=
  ∀ (op : Nat) (m : Msg) (f : Perform) (s : State) (path : ReplyPath) (l : List Byte), s.b.serves = true →
    s.b.messageAt m = some (some (path, l)) →
    (s.b.firstCome m = false → shesin op m f s = .next { s with b := s.b.settle s.tm }) ∧
    (s.b.firstCome m = true →
    (badMessage l = true →
      shesin op m f s = .next { s with b := ((s.b.takeUp m).discardMsg m).settle s.tm }) ∧
    (∀ (c : Caller) (st : Nat) (au : Auth) (b1 : Body), badMessage l = false → opcodeOf l = op →
      opcodeOf (l.take (be16 l 2)) = op →
      (s.b.takeUp m).checks path (l.take (be16 l 2)) = (c, st, au, b1) → st ≠ stOk →
      shesin op m f s =
        .next { s with b := (b1.sendReply c st (if op = 0x11 then [0, 0, 0, 0] else [])).settle s.tm }))

/-- With nothing seen, or ahead of the highest, a sequence number is accepted; 64 or more behind, it is not; one
accepted is not accepted again; a refusal changes only the count of replays. -/
def Obligations.ReplayWindow : Prop :=
  ∀ (b : Body) (k j seq : Nat), k ≤ 0xFF → j < 4 → seq < 2 ^ 32 →
    let h := b.fget clsDevice (0x100 + k) (FKey.highSeq j)
    let seen := (b.fget clsDevice (0x100 + k) FKey.seen).testBit j
    (seen = false → (b.replayCheck k j seq).1 = true) ∧
    (seen = true → 0 < tickDiff seq h → (b.replayCheck k j seq).1 = true) ∧
    (seen = true → tickDiff seq h ≤ -64 → (b.replayCheck k j seq).1 = false) ∧
    ((b.replayCheck k j seq).1 = true → ((b.replayCheck k j seq).2.replayCheck k j seq).1 = false) ∧
    ((b.replayCheck k j seq).1 = false → (b.replayCheck k j seq).2 = b.bump clsDevice 0 FDevice.replays 1)

/-- A requested interrupt with IE = 1 outside a trap saves the pc, clears IE, unblocks the core and goes to IVEC; a
watchdog that expires resets its core; a GO of a transmit record sends the frame and writes its status; a mailbox GO
takes the request in its turn, sets BUSY and fires wake source 0. The model's choices in it, which no rule states: the
wait of the watchdog (assumption log 1) and that an interrupt unblocks a core (84). -/
def Obligations.BivouacCommands : Prop :=
  -- BIVOUAC_INTERRUPT (R400)
  (∀ (s : State) (j : Nat), j < 4 → s.b.bivRuns = true → s.b.coreRequest j = true →
    s.b.fget clsDevice (1 + j) FBiv.ie = 1 → (s.b.hart (1024 + j)).inTrap = false →
    let x := s.b.hart (1024 + j)
    exec (.bivouacInterrupt j) s = .next { s with
      b := ((s.b.fset clsDevice (1 + j) FBiv.ipc x.pc).fset clsDevice (1 + j) FBiv.ie 0).setHart (1024 + j)
        { x with pc := s.b.fget clsDevice (1 + j) FBiv.ivec, block := .none } }) ∧
  -- BIVOUAC_WATCHDOG (R401)
  (∀ (s : State) (j : Nat), j < 4 → s.b.bivRuns = true →
    let d := (Dev.mk s.tm s.b).waitUntil
      ((mapGet 0 j s.b.adm.kicks + s.b.fget clsDevice (1 + j) FBiv.wdogUs * 1000 * 2 ^ 16) % 2 ^ 64)
    exec (.bivouacWatchdog j) s = .next { s with tm := d.tm, b := d.b.bivReset d.tm j }) ∧
  -- TX_RECORD_GO (R405)
  (∀ (s : State) (x : Nat) (w : Word), x < 12 → s.b.bivRuns = true →
    let b0 := { s.b with mem.bmem := writeLE s.b.mem.bmem (txRecord x) 4 w.toNat }
    let n := w.toNat % 2 ^ 14
    let p := bitsAt w.toNat 16 7
    (w.getLsbD 14 = false → exec (.txRecordGo x w) s = .next { s with b := b0.settle s.tm }) ∧
    (∀ st b1, w.getLsbD 14 = true → 60 ≤ n → n ≤ 16379 → p ≤ 64 ∨ w.getLsbD 15 = true →
      b0.sendBiv (w.getLsbD 15) p (bitsAt w.toNat 23 3) (readBytes b0.mem.bmem (slotMem (32 + x)) n) = (st, b1) →
      let b2 := { b1 with mem.bmem := writeLE b1.mem.bmem (txRecord x) 4 (w.toNat - 2 ^ 14) }
      let status := readLE b2.mem.bmem (txRecord x + 4) 4 / 2 ^ 16 * 2 ^ 16 + st
      exec (.txRecordGo x w) s = .next { s with
        b := { b2 with mem.bmem := writeLE b2.mem.bmem (txRecord x + 4) 4 status }.settle s.tm })) ∧
  -- MAILBOX_GO (R406)
  (∀ (s : State) (w : Word) (req : List Byte), s.b.hostIn = true → s.b.adm.mailbox.busy = false →
    w.getLsbD 0 = true → (∀ k, k < 32 → ((4 ≤ k ∧ k < 16) ∨ 29 ≤ k) → w.getLsbD k = false) →
    exec (.mailboxGo w req) s = .next { s with
      b := ({ s.b with
        mem.bmem := writeBytes s.b.mem.bmem 0x7F0000 (req.take 16384)
        adm.mailbox := { s.b.adm.mailbox with
        busy := true, done := s.b.adm.mailbox.done && !w.getLsbD 2
        source := bitsAt w.toNat 16 12, sourceEn := w.getLsbD 28 }
        adm.arrivals := s.b.adm.arrivals ++ [.mailbox] } : Body).fire 0 })

/-- PORT_LINK_UP shows the negotiated state and PORT_LINK_DOWN takes the link down; GATE_ENTRY_START shows the gate
state at the entry; PAUSE_EXPIRY ends a pause at its time; XOFF_REPEAT sends PAUSE again while the pool is low;
BIVOUAC_RX fills a free slot or, on the direct path, counts a drop. The model's choices in it, which no rule states:
the waits (assumption log 1) and the FEC and the SGMII speed that the sender names (75). -/
def Obligations.PortStateCommands : Prop :=
  (-- PORT_LINK_UP (R59, R60, R66); the service port's speed under SGMII is what the control word gives
  (∀ (s : State) (p : Nat) (fec : BitVec 2) (speed : BitVec 3), p ≤ 64 → s.b.portPresent p = true →
    s.b.fget clsPort p FPort.adminUp = 1 → s.b.modeAllowsPort p = true → s.b.portUp p = false → s.b.linkReady p = true →
    (p = 64 → s.b.fget clsPort p FPort.mode = 4 → 1 ≤ speed.toNat ∧ speed.toNat ≤ 3) →
    let code := if p = 64 then (if s.b.fget clsPort p FPort.mode = 4 then speed.toNat else 3)
      else speedCode (modeSpeed (s.b.fget clsPort p FPort.mode) p)
    let b1 := (((s.b.fset clsPort p FPort.operState 3).fset clsPort p FPort.operFec (s.b.operFec p fec)).fset clsPort p
      FPort.operSpeed code)
    let b2 := (b1.setEg p { s.b.eg p with diverting := false }).linkLevel p
    exec (.portLinkUp p fec speed) s = .next { s with b := (if p = 64 then b2.fire 2 else b2).settle s.tm }) ∧
  -- PORT_LINK_DOWN (R60)
  (∀ (s : State) (p : Nat), p ≤ 64 → s.b.fget clsPort p FPort.operState = 3 →
    exec (.portLinkDown p) s = .next { s with b := (s.b.linkDown p).settle s.tm })) ∧
  (-- GATE_ENTRY_START (R73)
  (∀ (s : State) (p r : Nat),
    (gateAt (s.b.gateList p true) (timeDiff s.tm.now (s.b.eg p).cycleStart).toNat).2 = some r →
    (r : Int) < timeDiff ((s.b.eg p).cycleEnd s.tm) s.tm.now →
    let d := (Dev.mk s.tm s.b).waitUntil ((s.tm.now + r) % 2 ^ 64)
    exec (.gateEntryStart p) s = .next { s with
      tm := d.tm, b := d.b.fset clsEgress p FEgress.gateState (d.b.gateState d.tm p) }) ∧
  -- PAUSE_EXPIRY (R64)
  (∀ (s : State) (p c t : Nat), mapFind c (s.b.eg p).pauses = some t →
    let d := (Dev.mk s.tm s.b).waitUntil t
    exec (.pauseExpiry p c) s = .next { s with
      tm := d.tm
      b := (d.b.setEg p { d.b.eg p with pauses := mapDel c (d.b.eg p).pauses }).fset clsEgress p FEgress.fcPaused
        (d.b.fget clsEgress p FEgress.fcPaused &&& (255 - 2 ^ c)) }) ∧
  -- XOFF_REPEAT (R65)
  (∀ (s : State) (p t : Nat), (s.b.eg p).xoff = some t → s.b.fget clsPort p FPort.fcTxEn = 1 → s.b.portUp p = true →
    let q := s.b.fget clsPort p FPort.pauseQuanta
    let d := (Dev.mk s.tm s.b).waitUntil ((t + bitTime16 (q * 256) (s.b.portRate p)) % 2 ^ 64)
    d.b.freeOnchipKib < d.b.fget clsPort p FPort.xonKib →
    exec (.xoffRepeat p) s = .next { s with
      tm := d.tm, b := (d.b.setEg p { d.b.eg p with xoff := some d.tm.now }).sendFlow p q }) ∧
  -- BIVOUAC_RX (R402 to R404): the direct path, and port 67
  (∀ (s : State) (f : InFrame) (r : List InFrame), s.b.crossReady 0x24 = true → s.b.net.bivIn = f :: r →
    let b1 := { s.b with net.bivIn := r }
    (b1.rxSlotFree = true → exec (.bivouacRx true) s = .next { s with
      b := ((b1.fillRxSlot false f.port f.ts (frameBytes (b1.bufData f.buffer) f.length 0 f.length)).freeBuf f.buffer
        .rx).2.settle s.tm }) ∧
    (b1.rxSlotFree = false → exec (.bivouacRx true) s = .next { s with
      b := ((b1.bump clsDevice 0 FDevice.cmdDropped 1).freeBuf f.buffer .rx).2.settle s.tm })) ∧
  (∀ (s : State) (c : Nat) (f : EgFrame) (past : Bool), s.b.crossReady 0x24 = true → s.b.rxSlotFree = true →
    s.b.pickClass s.tm 67 = some (c, f, past) →
    exec (.bivouacRx false) s = .next { s with
      b := ((((s.b.setEgQueue 67 c ((s.b.egQueue 67 c).drop 1)).fillRxSlot true f.desc.port f.desc.ts
        ((s.b.setEgQueue 67 c ((s.b.egQueue 67 c).drop 1)).txBytes s.tm f s.tm.now)).dropCopy f .sent)).settle s.tm }))

/-- OPER_STATE is 1, OPER_SPEED 0, LINK_DOWNS one more (free past its width), the port's level follows ADMIN_UP, and
the frame in transmission is again the first of its class queue while every other queue is unchanged. The model's
choices in it, which no rule states: LINK_DOWNS past its width (assumption log 9, a free value). -/
def Obligations.LinkLossEffects : Prop :=
  ∀ (b : Body) (p : Nat), p ≤ 64 → b.portPresent p = true → b.fget clsPort p FPort.operState = 3 →
    (b.linkDown p).fget clsPort p FPort.operState = 1 ∧
    (b.linkDown p).fget clsPort p FPort.operSpeed = 0 ∧
    (b.linkDown p).fget clsPort p FPort.linkDowns =
      addFree 32 (b.fget clsPort p FPort.linkDowns) 1 % 2 ^ 32 ∧
    (b.linkDown p).fget clsIrq (128 + p) FIrq.level = (if b.fget clsPort p FPort.adminUp = 1 then 1 else 0) ∧
    (∀ c, (b.linkDown p).egQueue p c = match (b.eg p).sending with
      | some x => if c = x.cls then x.frame :: b.egQueue p c else b.egQueue p c
      | none => b.egQueue p c)

/-- RX_FRAME_START stamps the frame and takes a buffer of the smallest pool allowed, or counts that none was free;
RX_BUFFER_GROW adds data; RX_FRAME_END drops a bad frame by the first reason that holds (PCS error or lost link, runt,
oversize, FCS) and counts it, takes a PAUSE or PFC frame, or hands a good frame to Intake (counted and dropped where
the input queue is full) or to the direct path (held while BIV_IN is not ready). The model's choices in it, which no
rule states: by what a MAC control frame is known (assumption log 120). -/
def Obligations.ReceptionCommandsComplete : Prop :=
  (∀ (s : State) (p : Nat) (sof : BitVec 64), p ≤ 64 → s.b.portUp p = true → s.b.crossReady (rxCross p) = true →
    s.b.rx? p = none →
    let ts := codeOf 64 (sof.toNat - signedOf 32 (s.b.fget clsPort p FPort.rxDelay))
    let k := s.b.fget clsPool 0x100 (rxFloor p)
    (∀ h b1, s.b.chargeFits .rx (poolSize k) = true → s.b.takeBuf k .rx .rx [] = some (h, b1) →
      exec (.rxFrameStart p sof) s = .next { s with b := (b1.setRx p ⟨ts, some h, []⟩).settle s.tm }) ∧
    (s.b.chargeFits .rx (poolSize k) = false ∨ s.b.takeBuf k .rx .rx [] = none →
      exec (.rxFrameStart p sof) s = .next { s with
        b := (((s.b.bump clsPool 0x100 FPoolDev.rxNoBuffer 1).bump clsPool k FPool.allocFails 1).setRx p
          ⟨ts, none, []⟩).settle s.tm })) ∧
  (∀ (s : State) (p : Nat) (got : List Byte) (x : Rx), s.b.rx? p = some x →
    exec (.rxBufferGrow p got) s = .next { s with b :=
      ((s.b.setRx p { x with got := (x.got ++ got).take (s.b.fget clsPort p FPort.maxFrame + 1) }).grow p 8).settle s.tm }) ∧
  (∀ (s : State) (p : Nat) (got : List Byte) (pcs fcs : Bool) (x : Rx) (h : Nat) (c : Fld),
    (s.b.receive p got).rx? p = some x → x.buffer = some h →
    (s.b.receive p got).rxReason p x pcs fcs = some c →
    exec (.rxFrameEnd p got pcs fcs) s = .next { s with b :=
      ((((((s.b.receive p got).endRx p).freeBuf h .rx).2).bump clsPort p c 1).settle s.tm) }) ∧
  (∀ (s : State) (p : Nat) (got : List Byte) (pcs fcs : Bool) (x : Rx) (h : Nat) (k : Bool),
    (s.b.receive p got).rx? p = some x → x.buffer = some h →
    (s.b.receive p got).rxReason p x pcs fcs = none → flowKind x.got = some k →
    exec (.rxFrameEnd p got pcs fcs) s = .next { s with b :=
      ((((((s.b.receive p got).endRx p).freeBuf h .rx).2).takeFlow s.tm p k x.got).settle s.tm) }) ∧
  (∀ (s : State) (p : Nat) (got : List Byte) (pcs fcs : Bool) (x : Rx) (h : Nat),
    (s.b.receive p got).rx? p = some x → x.buffer = some h →
    (s.b.receive p got).rxReason p x pcs fcs = none → flowKind x.got = none →
    let b1 := ((((s.b.receive p got).endRx p).putBuf h x.got).bump clsPort p FPort.rxFrames 1).bump
      clsPort p FPort.rxBytes x.got.length
    let f : InFrame := ⟨h, x.got.length, p, x.sof, none, 0, none⟩
    -- to Intake, whose input queue has room, or is full (R89); or to the direct path (R402)
    (b1.directPath p x.got = false → (b1.inputQueue p).length < 256 →
      exec (.rxFrameEnd p got pcs fcs) s = .next { s with b := (b1.toIntake f).settle s.tm }) ∧
    (b1.directPath p x.got = false → 256 ≤ (b1.inputQueue p).length →
      exec (.rxFrameEnd p got pcs fcs) s = .next { s with
        b := (((b1.freeBuf h .rx).2).bump clsIntake (0x300 + p) FInCnt.inputFull 1).settle s.tm }) ∧
    (b1.directPath p x.got = true →
      let b2 : Body := if b1.crossReady 0x24 then { b1 with net.bivIn := b1.net.bivIn ++ [f] }
        else { b1 with net.bivWait := b1.net.bivWait ++ [f] }
      exec (.rxFrameEnd p got pcs fcs) s = .next { s with b := (if p = 64 then b2.fire 1 else b2).settle s.tm })) ∧
  (∀ (b : Body) (p : Nat) (x : Rx) (pcs fcs : Bool),
    b.rxReason p x pcs fcs =
      if pcs = true then some FPort.rxPcsErr
      else if x.got.length < 64 then some FPort.rxRunt
      else if b.fget clsPort p FPort.maxFrame < x.got.length then some FPort.rxOversize
      else if fcs = true ∧ sealFrame (x.got.take (x.got.length - 4)) = x.got then none
      else some FPort.rxFcsErr)

/-- EGRESS_START sends the class that the port picks; on the recirculation port it starts the next pass;
TRANSMIT_COMPLETE ends at the end of the frame, emits its bytes, counts, and queues a two-step stamp while there is
room; REDUND_ELIMINATE passes or discards the frame that is next to judge, the head or on port 65 the first of a tent;
STREAM_RESET forgets the history; LINK_HOLD_EXPIRY diverts the queues class by class. The model's choices in it, which
no rule states: the wait for the end (assumption log 1), the start at the earliest cycle and the stamp from it (19),
the count of quiet boundaries (29) and where a frame loses its tag (137). -/
def Obligations.EgressCommandsComplete : Prop :=
  -- EGRESS_START on a line port or the service port (R71, R73, R74)
  (∀ (s : State) (p c : Nat) (f : EgFrame) (past : Bool), p ≤ 64 → s.b.portUp p = true →
    s.b.crossReady (txCross p) = true → (s.b.eg p).sending = none → s.b.pickClass s.tm p = some (c, f, past) →
    let b1 := (s.b.setEgQueue p c ((s.b.egQueue p c).drop 1)).bufRead f.buffer 0 f.length
    let b2 := b1.setEg p { b1.eg p with
      sending := some ⟨c, f, s.tm.now, (s.tm.now + wireTime f.wireLength (s.b.portRate p)) % 2 ^ 64⟩ }
    exec (.egressStart p) s =
      .next { s with b := (if past then b2.bump clsEgress p FEgress.overruns 1 else b2).settle s.tm }) ∧
  -- EGRESS_START on the recirculation port (R89)
  (∀ (s : State) (c : Nat) (f : EgFrame) (past : Bool), s.b.inputRoom 66 = true →
    s.b.pickClass s.tm 66 = some (c, f, past) →
    let b1 := (s.b.setEgQueue 66 c ((s.b.egQueue 66 c).drop 1)).handoff f.buffer .egress .rx
    exec (.egressStart 66) s = .next { s with
      b := (b1.2.toIntake ⟨f.buffer, f.length, 66, f.desc.ts, none, 0, some f.desc⟩).settle s.tm }) ∧
  -- TRANSMIT_COMPLETE (R77, R78); a two-step request keeps a timestamp while the queue has room
  (∀ (s : State) (p : Nat) (x : Sending), (s.b.eg p).sending = some x →
    let d := (Dev.mk s.tm s.b).waitUntil x.ends
    let ts := d.b.egressTime p x.start
    let l := d.b.txBytes d.tm x.frame ts
    let e : EgPort := { d.b.eg p with sending := none }
    let out := fun (b : Body) => Host.Outcome.next (φ := Fault) (ρ := Refusal) { s with
      tm := d.tm
      b := ((((b.bump clsPort p FPort.txFrames 1).bump clsPort p FPort.txBytes l.length).emit
        (if d.b.poisoned x.frame.buffer then .spoilt p (l.take (l.length - 4)) else .frame p l)).dropCopy x.frame
          .sent).settle d.tm }
    (bitsAt x.frame.body 59 1 = 0 → exec (.transmitComplete p) s = out (d.b.setEg p e)) ∧
    (bitsAt x.frame.body 59 1 = 1 → e.stamps.length < 64 → exec (.transmitComplete p) s =
      out ((d.b.setEg p e).setEg p { e with stamps := e.stamps ++ [(ts, bitsAt x.frame.body 80 16)] })) ∧
    (bitsAt x.frame.body 59 1 = 1 → 64 ≤ e.stamps.length → exec (.transmitComplete p) s =
      out ((d.b.setEg p e).bump clsPort p FPort.tsOverflow 1))) ∧
  -- REDUND_ELIMINATE (R81): the head passes, or is discarded as a duplicate; on port 65 the first frame of a tent
  (∀ (b : Body) (p c : Nat) (f : EgFrame) (r : List EgFrame), p ≠ 65 → b.egQueue p c = f :: r →
    b.toJudge p c = if b.unjudged f then some f else none) ∧
  (∀ (s : State) (p c n : Nat) (f : EgFrame), s.b.toJudge p c = some f → s.b.bufHeld f.buffer = false →
    f.stream = some n →
    let tag := if s.b.streamFn n = 3 then rTagOf (s.b.egBytes f) else trailerOf (s.b.egBytes f)
    let v := s.b.eliminate n tag
    let g : EgFrame := { f with
      judged := true, strip := tag.isSome && v.2.fget clsRedund n FRedund.strip == 1 }
    (v.1 = true → exec (.redundEliminate p c) s = .next { s with
      b := ((v.2.setEgQueue p c ((v.2.egQueue p c).map (fun x => if x.num = f.num then g else x))).bump clsRedund n
          FRedund.passed 1).settle s.tm }) ∧
    (v.1 = false → exec (.redundEliminate p c) s = .next { s with
      b := (((v.2.setEgQueue p c ((v.2.egQueue p c).filter (fun x => decide (x.num ≠ f.num)))).dropCopy f .removed).bump
        clsRedund n FRedund.discarded 1).settle s.tm })) ∧
  -- STREAM_RESET (R81)
  (∀ (s : State) (n : Nat), s.b.streamFn n = 3 ∨ s.b.streamFn n = 4 →
    s.b.fget clsRedund n FRedund.resetTicks ≤ (s.b.recov n).quiet →
    exec (.streamReset n) s = .next { s with
      b := (s.b.setRecov n { takeAny := true, hist := 0, quiet := 0, passed := false }).bump clsRedund n
        FRedund.resets 1 }) ∧
  -- LINK_HOLD_EXPIRY (R83): every frame of the port's queues, class by class from class 7 down
  (∀ (s : State) (p : Nat), p ≤ 64 → s.b.portUp p = false →
    s.b.fget clsPort p FPort.holdLimit + 1 ≤ s.b.work.tickSets - (s.b.eg p).downSince →
    exec (.linkHoldExpiry p) s = .next { s with
      b := ([7, 6, 5, 4, 3, 2, 1, 0].foldl (fun x c => x.holdClass p c)
        (s.b.setEg p { s.b.eg p with diverting := true })).settle s.tm })

/-- INTAKE_ENTRY takes the head of a port's queue through the stages; a stage looks its key up (a miss gives the miss
result), applies the action set, drops, ends or goes to the next stage; INTAKE_DRAM_STAGE_RETURN goes on with the
frame that waits, in the cycle in which its lookup may start; HEADGATE_CHECK, in the cycle of the next check, takes
the first draft handed off in an earlier cycle, and refuses it with the first condition that holds or admits it. The
model's choices in it, which no rule states: the waits (assumption log 1), a draft that waits for a free slot (123)
and a frame behind a waiting one that waits at its end (140). -/
def Obligations.IntakeCommandsComplete : Prop :=
  (-- INTAKE_ENTRY
  (∀ (s : State) (p : Nat) (f : InFrame) (r : List InFrame), s.b.inputQueue p = f :: r → s.b.asleep = false →
    s.b.bufHeld f.buffer = false → exec (.intakeEntry p) s =
      .next { s with b := (({ s.b with net.input := mapPut p r s.b.net.input } : Body).enterIntake s.tm f).settle s.tm }) ∧
  -- INTAKE_DRAM_STAGE_RETURN: the port's earliest pass that waits for a stage whose channels run, in the cycle in which
  -- its lookup may start, counted where it waits for it
  (∀ (s : State) (p : Nat) (l r : List Waiting) (w : Waiting), s.b.passes p = l ++ w :: r →
    (∀ v, v ∈ l → v.ended = true ∨ s.b.stageHeld v.pass = true) → w.ended = false → s.b.stageHeld w.pass = false →
    let k := s.b.rateSlot s.tm.cycle
    let d := (Dev.mk s.tm s.b).waitCycle k
    let o := (if s.tm.cycle < k then d.b.bump clsDram 0 FDram.tableRateWaits 1 else d.b).resumeStage d.tm w.pass
    exec (.intakeDramStageReturn p) s = .next { s with
      tm := d.tm
      b := (match o.1 with
        | .dropped => ((o.2.setPasses p (l ++ r)).discardPass w.pass p FInCnt.dropped 0x21).flushPasses p
        | .ended y => (o.2.setPasses p (l ++ (⟨y, true⟩ : Waiting) :: r)).flushPasses p
        | .atStage y => o.2.setPasses p (l ++ (⟨y, false⟩ : Waiting) :: r)).settle d.tm }) ∧
  -- HEADGATE_CHECK: the cycle of the next check, the first draft handed off before it, at most two in a cycle
  (∀ s : State, s.b.work.drafts ≠ [] →
    let d := (Dev.mk s.tm s.b).waitCycle s.b.checkAt
    ∀ x, d.b.work.drafts.find? (fun y => decide (y.cyc < d.b.clock)) = some x →
    let b1 := { d.b with work := { d.b.work with
      drafts := d.b.work.drafts.erase x
      checkCount := if d.b.work.checkCycle = d.b.clock then d.b.work.checkCount + 1 else 1
      checkCycle := d.b.clock } }
    -- a draft that a condition of Table 5.1 refuses
    (∀ k, b1.refusal d.tm x = some k →
      exec .headgateCheck s = .next { s with tm := d.tm, b := (b1.refuse x k).settle d.tm }) ∧
    -- and one that none refuses, admitted where the store has a free slot
    (b1.refusal d.tm x = none → (b1.admitDraft d.tm x).isSome = true →
      exec .headgateCheck s = .next { s with tm := d.tm, b := ((b1.admitDraft d.tm x).getD d.b).settle d.tm }))) ∧
  (∀ (b : Body) (tm : Time) (x : Pass),
    let si := stageInst x.epoch x.stage
    let hit := b.stageLookup si (b.stageKey si (b.view x))
    let r := hit.getD (b.fget clsStage si FStage.missResult)
    (b.runStage tm x).1 = (match b.actSet x (r % 4096) (r / 2 ^ 16 % 2 ^ 48) with
      | none => .dropped
      | some y => if r / 2 ^ 15 % 2 = 1 ∨ r / 2 ^ 12 % 8 ≤ x.stage then .ended y
        else .atStage { y with stage := r / 2 ^ 12 % 8 }))

/-- DISPATCH_SELECT loads a re-dispatched item of the cluster first, at the time of this selection, as
REDISPATCH_SELECT does, and else takes the thread and the queue that the rules pick; ITEM_START starts after the load,
once the channel of the frame runs; THREAD_SWITCH gives the core to the next able thread or to none, also from a
thread that has 12 cycles to wait for a division. The model's choices in it, which no rule states: the wait of
ITEM_START (assumption log 1), the cycles charged in a switch that waits (12, 14) and a record re-dispatched (108). -/
def Obligations.DispatchCommandsComplete : Prop :=
  -- DISPATCH_SELECT and REDISPATCH_SELECT: the cluster's re-dispatch list is served first
  (∀ (s : State) (c : Nat), s.b.runs = true →
    (∀ k : Nat × Item × Nat, s.b.nextRedispatch c = some k →
      let it := { k.2.1 with cap := s.b.fget clsTick (classInst k.2.1.tent k.2.1.desc.cls) FClass.cycleCap, selTime := s.tm.now }
      let t := State.mk s.pending s.tm (({ s.b with work.redispatch := s.b.work.redispatch.erase (k.1, k.2.1) } : Body
        ).modHart k.2.2 (fun x => { x with
          phase := .loading, loading := some (it, s.tm.cycle + 8), itemsNow := x.itemsNow + 1 }))
      exec (.dispatchSelect c) s = .next t ∧ exec (.redispatchSelect c) s = .next t) ∧
    (∀ h q, s.b.nextRedispatch c = none → s.b.pickPair c (s.b.freeThreads c) = some (h, q) →
      exec (.dispatchSelect c) s = .next { s with b := s.b.select s.tm h q })) ∧
  -- ITEM_START, once the frame's channel runs
  (∀ (s : State) (h c : Nat) (it : Item), (s.b.hart h).loading = some (it, c) →
    it.src = .event ∨ s.b.bufHeld it.desc.buffer = false →
    let d := (Dev.mk s.tm s.b).waitCycle (c + 1)
    exec (.itemStart h) s = .next { s with tm := d.tm, b := d.b.startItem d.tm h it }) ∧
  -- THREAD_SWITCH: no thread issues that is able to, or the one that does waits for an RDIV
  (∀ (s : State) (c : Nat),
    let take := fun (b : Body) (h : Nat) =>
      ((b.setCore c { b.core c with issuing := some h }).chargeCycles h 2).bump clsCore c FCore.switches 1
    ((∀ g, (s.b.core c).issuing = some g → s.b.able g = false) →
      (∀ h, s.b.nextThread c none = some h → exec (.threadSwitch c) s = .next { s with b := take s.b h }) ∧
      (s.b.nextThread c none = none → exec (.threadSwitch c) s = .next { s with
        b := s.b.setCore c { s.b.core c with issuing := none } })) ∧
    (∀ g, (s.b.core c).issuing = some g → s.b.able g = true → s.b.mustSwitch s.tm g = true →
      let b1 := s.b.modHart g (fun x => { x with ableSince := s.b.cycleOf g + s.b.waitOf s.tm g 1 })
      (∀ h, s.b.nextThread c (some g) = some h → exec (.threadSwitch c) s = .next { s with b := take b1 h }) ∧
      (s.b.nextThread c (some g) = none → exec (.threadSwitch c) s = .next { s with
        b := take (s.b.setCore c { s.b.core c with spent := (s.b.core c).spent + s.b.waitOf s.tm g 1 }) g })))

/-- Selection puts an item of the queue, with the time and the flags at selection and an empty log, into the thread
and changes no other thread. The item starts at the program's entry with w1 the item buffer, w2 program and flags, w3
the queue, w4 to w31 kept only within a tent, and the 512 bytes of its slot in that buffer; every other byte of local
memory is unchanged. -/
def Obligations.ItemSelectionAndStart : Prop :=
  (∀ (b : Body) (tm : Time) (h q : Nat),
    let r := b.select tm h q
    ∃ it : Item, (r.hart h) = { b.hart h with
        phase := .loading, loading := some (it, tm.cycle + 8), itemsNow := (b.hart h).itemsNow + 1 } ∧
      (∀ g, g ≠ h → r.hart g = b.hart g) ∧
      it.queue = q ∧ it.selTime = tm.now ∧ it.flagsSeen = b.flags q ∧ it.cycles = 0 ∧ it.log = [] ∧ it.staged = [] ∧
      it.overrun = false ∧ r.mem = b.mem ∧ r.stamp = b.stamp) ∧
  (∀ (b : Body) (tm : Time) (h : Nat) (it : Item), h < 1024 →
    let r := b.startItem tm h it
    let x := r.hart h
    let k := (b.hart h).nextBuffer
    let a := 0x1E000 + 1024 * (h % 8) + 512 * k
    x.phase = .running ∧ x.item = some it ∧ x.block = .none ∧ x.inTrap = false ∧ x.flags.lf = false ∧
    x.pc = b.fget clsCore (h / 8) (coreEntry (if it.src = .event then 0 else it.program)) ∧
    x.reg 1 = BitVec.ofNat 32 a ∧
    x.reg 2 = BitVec.ofNat 32 ((if it.src = .event then 256 else it.program % 256) + it.flagsSeen % 2 ^ 16 * 2 ^ 16) ∧
    x.reg 3 = BitVec.ofNat 32 it.queue ∧
    (∀ q : BitVec 5, 4 ≤ q.toNat → x.reg q =
      if h ∈ b.isa.moved ∧ it.tent = b.threadTent h then 0 else b.reg h q) ∧
    readBytes r.mem.lmem (lmemAddr (h / 8) a) 512 = b.slotBytes tm it ∧
    (∀ y, y < lmemAddr (h / 8) a ∨ lmemAddr (h / 8) a + 512 ≤ y → readByte r.mem.lmem y = readByte b.mem.lmem y))

/-- CYCLE_CAP_REACHED traps the overrun, stops the thread's held count and asks for its diversion, or double-traps,
with CYCLE_CAP booked; DIVERT_GRACE_EXPIRY resets the thread; CORE_WATCHDOG, CORE_MEMORY_ERROR and CLUSTER_RETIRE
retire with their cause; WAIT_CYCLE_DECLARE declares a set in which nothing moved for three ticks. The model's choices
in it, which no rule states: the waits (assumption log 1), from when a watchdog counts (35), when a set is armed (37)
and the offset of a core memory error, which its command does not name (39, a free value). -/
def Obligations.ThreadEventsComplete : Prop :=
  -- CYCLE_CAP_REACHED
  (∀ (s : State) (h : Nat) (it : Item), (s.b.hart h).item = some it → it.src ≠ .event → it.overrun = false →
    it.cap ≤ it.cycles → s.b.inBench = false → (s.b.hart h).phase = .running →
    ((s.b.hart h).inTrap = true → exec (.cycleCapReached h) s = .next { s with
      b := (s.b.modHart h (fun x => { x with item := some { it with cycles := it.cap } })).doubleTrap s.tm h }) ∧
    ((s.b.hart h).inTrap = false →
      let b1 := (s.b.askDivert s.tm h { it with cycles := it.cap } .cap).modHart h (fun x => { x.stopHeld s.tm.cycle with
        staging := [], graceUsed := 0, item := some { it with log := [], staged := [], overrun := true } })
      exec (.cycleCapReached h) s = .next { s with
        b := ((b1.trapThread s.tm h 0x05 (s.b.insnAt h) 0).bump clsTick (classInst it.tent it.desc.cls) FClass.diversions 1).bump
          clsTick 0 FTick.diversions 1 })) ∧
  -- DIVERT_GRACE_EXPIRY
  (∀ (s : State) (h : Nat) (it : Item), (s.b.hart h).item = some it → it.overrun = true →
    s.b.fget clsTick (classInst it.tent it.desc.cls) FClass.divertGrace ≤ (s.b.hart h).graceUsed →
    exec (.divertGraceExpiry h) s = .next { s with b := s.b.resetThread s.tm h }) ∧
  -- CORE_WATCHDOG
  (∀ (s : State) (c i : Nat), c < 128 → i < 8 → s.b.able (8 * c + i) = true → s.b.fget clsCore c FCore.state = 0 →
    let d := (Dev.mk s.tm s.b).waitCycle ((s.b.core c).lastCommit + s.b.fget clsCore c FCore.watchdog)
    exec (.coreWatchdog c) s = .next { s with tm := d.tm, b := d.b.retireOne d.tm c 3 }) ∧
  -- CORE_MEMORY_ERROR
  (∀ (s : State) (c : Nat), c < 128 → s.b.fget clsCore c FCore.state = 0 →
    let b1 := s.b.fresh.2
    exec (.coreMemoryError c true) s = .next { s with b := b1.retireOne s.tm c 2 } ∧
    exec (.coreMemoryError c false) s = .next { s with
      b := ((b1.bump clsMemregion (0x100 + c) FMem.uncorrectable 1).fset clsMemregion (0x100 + c) FMem.lastErrAddr
        (s.b.fresh.1 % 0x30000 / 8 * 8)).retireOne s.tm c 1 }) ∧
  -- CLUSTER_RETIRE
  (∀ (s : State) (c : Nat), exec (.clusterRetire c) s = .next { s with b := s.b.retireCluster s.tm c }) ∧
  -- WAIT_CYCLE_DECLARE
  (∀ (s : State) (c : Nat) (g : Option (Nat × Nat)) (w : WaitSet),
    s.b.adm.waits.find? (fun w => decide (w.cluster = c ∧ w.group = g ∧ 3 ≤ w.held) && !w.disarmed) = some w →
    exec (.waitCycleDeclare c g) s = .next { s with b := s.b.declareWait s.tm.tickNumber w })

/-- A thread timer puts its tag on endpoint 5 at its time; a task timer sets flag 2 of its queue; REQUEST_REPLY puts a
known reply, or the frame words of an FRD, on the request's endpoint; a direct message goes to its peer when it has
room and the writer goes on. The model's choices in it, which no rule states: the waits (assumption log 1). -/
def Obligations.TimersAndReplies : Prop :=
  -- THREAD_TIMER_EXPIRY
  (∀ (s : State) (h t : Nat) (tag : Word), (s.b.hart h).timer = some (t, tag) →
    let d := (Dev.mk s.tm s.b).waitUntil t
    exec (.threadTimerExpiry h) s = .next { s with
      tm := d.tm, b := (d.b.modHart h (fun x => { x with timer := none })).putMsg h 5 [tag] }) ∧
  -- TASK_TIMER_EXPIRY
  (∀ (s : State) (h t q : Nat), (s.b.hart h).taskTimer = some (t, q) →
    let d := (Dev.mk s.tm s.b).waitUntil t
    exec (.taskTimerExpiry h) s = .next { s with
      tm := d.tm, b := (d.b.modHart h (fun x => { x with taskTimer := none })).setFlags q 4 }) ∧
  -- REQUEST_REPLY of a request whose reply is known, and of an FRD
  (∀ (s : State) (h ep : Nat) (r : Req), (s.b.hart h).reqs.find? (fun r => r.ep == ep) = some r →
    let done := fun (ws : List Word) => Host.Outcome.next (φ := Fault) (ρ := Refusal) { s with
      b := (s.b.modHart h (fun x => { x with reqs := x.reqs.erase r })).pushMsg h ep ws }
    (∀ ws, (∀ o n, r.kind ≠ .frd o n) → r.reply = some ws → exec (.requestReply h ep) s = done ws) ∧
    (∀ off n it, r.kind = .frd off n → (s.b.hart h).item = some it → s.b.bufHeld it.desc.buffer = false →
      exec (.requestReply h ep) s = .next { s with
        b := (((s.b.bufRead it.desc.buffer off (4 * n)).modHart h (fun x => { x with reqs := x.reqs.erase r })).pushMsg h
          ep (wordsOf (frameBytes (s.b.bufData it.desc.buffer) it.desc.length off (4 * n)))) })) ∧
  -- DIRECT_MESSAGE_DELIVER
  (∀ (s : State) (h e peer pe : Nat) (ws : List Word), (s.b.hart h).block = .direct e peer pe ws →
    (s.b.hart h).halted = false → s.b.live peer = false ∨ (s.b.hart peer).wordsIn pe + ws.length ≤ 16 →
    let b1 := if s.b.live peer then s.b.pushMsg peer pe ws else s.b
    exec (.directMessageDeliver h e) s = .next { s with
      b := b1.modHart h (fun x => { x with block := .none, ableSince := b1.cycleOf h }) })

/-- ITEM_HANDOVER hands the item to the Outfall; LOG_STORE_ENTRY moves a commit into the log store and frees its
thread; RELEASE_START and DIVERSION_RELEASE wait for the release cycle and commit or divert the next item in order.
The model's choices in it, which no rule states: the wait for the release cycle (assumption log 1) and the judging of
condition 6 (67). -/
def Obligations.OutfallCommandsComplete : Prop :=
  -- ITEM_HANDOVER
  (∀ (s : State) (h : Nat) (dv : Bool), (s.b.hart h).block = .handover dv → (s.b.hart h).halted = false →
    (s.b.hart h).awaits = false →
    (∀ o, o ∈ s.b.work.commits → o.thread ≠ some h) →
    exec (.itemHandover h) s = .next { s with b := (s.b.handOver s.tm h dv).settle s.tm }) ∧
  -- LOG_STORE_ENTRY
  (∀ (s : State) (h : Nat) (o : OItem), s.b.work.commits.find? (fun o => decide (o.thread = some h)) = some o →
    s.b.logRoom o.item = true → (s.b.hart h).halted = false →
    let b1 := { s.b with work.commits := s.b.work.commits.map (fun (x : OItem) =>
      if x.id = o.id then { x with place := .store, thread := none } else x) }
    exec (.logStoreEntry h) s = .next { s with b := (((b1.logLeaves h o).logIn o.item).freeThread s.tm h).settle s.tm }) ∧
  -- RELEASE_START and DIVERSION_RELEASE
  (∀ (s : State) (o : OItem), s.b.runs = true →
    let d := (Dev.mk s.tm s.b).waitCycle (s.b.relCycleOf s.tm o)
    let b1 := d.b.noteRelease d.tm o.item
    (s.b.nextRelease s.tm false = some o →
      exec .releaseStart s = .next { s with tm := d.tm, b := (b1.commitItem d.tm o).settle d.tm }) ∧
    (s.b.nextRelease s.tm true = some o →
      exec .diversionRelease s = .next { s with tm := d.tm, b := (b1.divertItem d.tm o).settle d.tm }))

/-- A request that waits, in the cycle that the order of updates gives it, is answered with what search, next, insert,
delete or learn give, or with the status that refuses it; a flush walks step by step while its table is on; clearing
ends, of a kind 2 table by writes that wait for a frozen channel; a shadow check reads one block and a recheck reports
a mismatch; the ager removes exactly the entries of its buckets that are old and not static. The model's choices in
it, which no rule states: the waits (assumption log 1), AGED below 0 (105, a free value) and a walk that a disable
ends (133). -/
def Obligations.TableCommands : Prop :=
  (∀ (s : State) (i : Nat) (r : TabReq), s.b.tab.reqs[i]? = some r →
    -- the cycle in which it is performed
    let d := (Dev.mk s.tm s.b).waitCycle ((Dev.mk s.tm s.b).reqCycle r)
    d.b.rqReady r = true →
    let k := r.block
    let b1 := d.b.dropReq r
    (b1.rqRefusal r.origin r.tent k = none →
      let done := fun (p : Ans × Body) => Host.Outcome.next (φ := Fault) (ρ := Refusal)
        { s with tm := d.tm, b := p.2.finishReq r p.1 }
      (rqOp k = 0 →
        let y := if b1.rqKind k = 2 then b1.rateLookup (max s.tm.cycle (r.cyc + 1)) else b1
        exec (.tableSearch i) s = done (y.rqSearch k, y.readFor k)) ∧
      (rqOp k = 1 → exec (.tableNext i) s = done (b1.rqNext k, b1.readFor k)) ∧
      (rqOp k = 2 → exec (.tableInsert i) s = done ((b1.readFor k).rqInsert d.tm k)) ∧
      (rqOp k = 3 → exec (.tableDelete i) s = done ((b1.readFor k).rqDelete k)) ∧
      (rqOp k = 5 → exec (.learn i) s = done (b1.rqLearn d.tm k))) ∧
    -- one that is refused is answered with its status alone
    (∀ st, b1.rqRefusal r.origin r.tent k = some st →
      let done := Host.Outcome.next (φ := Fault) (ρ := Refusal) { s with tm := d.tm, b := b1.finishReq r (Ans.fail st) }
      (rqOp k = 0 ∨ (6 ≤ rqOp k ∧ rqOp k ≤ 15) → exec (.tableSearch i) s = done) ∧
      (rqOp k = 1 → exec (.tableNext i) s = done) ∧
      (rqOp k = 2 → exec (.tableInsert i) s = done) ∧
      (rqOp k = 3 → exec (.tableDelete i) s = done) ∧
      (rqOp k = 4 → d.b.rqRefusal r.origin r.tent k = some st → exec (.flushByPort i) s = done) ∧
      (rqOp k = 5 → exec (.learn i) s = done)) ∧
    -- FLUSH_BY_PORT starts a walk
    (rqOp k = 4 → d.b.rqRefusal r.origin r.tent k = none → mapHas (rqInst k) d.b.tab.walks = false →
      exec (.flushByPort i) s = .next { s with
        tm := d.tm
        b := { b1 with tab.walks := mapPut (rqInst k) ⟨r, 0, 0⟩ d.b.tab.walks } })) ∧
  (-- FLUSH_STEP
  (∀ (s : State) (n : Nat) (w : Walk), mapFind n s.b.tab.walks = some w →
    let g := s.b.tableGeo n
    let ps := g.walkSlots w.next
    s.b.tableHeld g ps = false → s.b.tableOn n = true → s.b.tableClearing n = false →
    let hit := ps.filter (fun p => match s.b.entAt g p with
      | some e => s.b.flushMatch n w.req.block e
      | none => false)
    let b0 := if g.dram then s.b.dramPost 1 0 (g.base + 64 * w.next) 64 false else s.b
    let b1 := hit.foldl (fun x p => x.removeEnt n g (s.b.fget clsTable n FTable.kind == 4) p) b0
    let w1 : Walk := { w with next := w.next + 1, removed := w.removed + hit.length }
    (w1.next < g.walkSteps → exec (.flushStep n) s = .next { s with
      b := { b1 with tab.walks := mapPut n w1 b1.tab.walks } }) ∧
    (g.walkSteps ≤ w1.next → exec (.flushStep n) s = .next { s with
      b := ({ b1 with tab.walks := mapDel n b1.tab.walks } : Body).finishReq w1.req { Ans.ok false with
        val := w1.removed } })) ∧
  -- CLEARING_DONE
  (∀ (s : State) (n : Nat),
    let g := s.b.tableGeo n
    (g.dram = false ∨ s.b.tableClearing n = false →
      exec (.clearingDone false n) s = .next { s with b := s.b.fset clsTable n FTable.clearing 0 }) ∧
    -- of a kind 2 table, by writes of its positions, which wait for a frozen channel (R346)
    (g.dram = true → s.b.tableClearing n = true → s.b.dramHeld g.base (32 * g.entries) = false →
      let kept := s.b.mem.dram.filter (fun c =>
        !decide (g.base ≤ c.1 ∧ c.1 < g.base + 32 * g.entries ∧ (c.1 - g.base) % 32 = 24))
      exec (.clearingDone false n) s = .next { s with
        b := (({ s.b with mem.dram := kept } : Body).dramPost 1 0 g.base (32 * g.entries) true).fset clsTable n
          FTable.clearing 0 }) ∧
    (g.dram = true → s.b.tableClearing n = true → s.b.dramHeld g.base (32 * g.entries) = true →
      exec (.clearingDone false n) s = .next s) ∧
    exec (.clearingDone true n) s = .next { s with b := s.b.fset clsPrefix n FTable.clearing 0 }) ∧
  -- SHADOW_BLOCK_CHECK of a walker that has not yet read its blocks of the tick
  (∀ (s : State) (n : Nat), s.b.tableOn n = true → s.b.tableClearing n = false → s.b.fget clsTable n FTable.shadowEn = 1 →
    let x := s.b.shadow n
    let done := if x.tick = s.b.work.tickSets then x.done else 0
    done < s.b.fget clsTable n FTable.shadowRate → s.b.shadowHeld n x.next = false →
    let last := decide (((s.b.tableGeo n).entries + 255) / 256 ≤ x.next + 1)
    let b1 := (s.b.shadowRead n x.next).setShadow n ⟨if last then 0 else x.next + 1, done + 1, s.b.work.tickSets,
      if s.b.blockDiffers n x.next then x.again ++ [(x.next, s.b.work.tickSets)] else x.again⟩
    exec (.shadowBlockCheck n) s = .next { s with b := if last then b1.bump clsTable n FTable.shadowPasses 1 else b1 }) ∧
  -- SHADOW_RECHECK
  (∀ (s : State) (n k t : Nat) (r : List (Nat × Nat)), (s.b.shadow n).again = (k, t) :: r → t + 2 ≤ s.b.work.tickSets →
    s.b.shadowHeld n k = false →
    let b1 := (s.b.shadowRead n k).setShadow n { s.b.shadow n with again := r }
    exec (.shadowRecheck n) s = .next { s with
      b := if b1.blockDiffers n k then
        ((b1.bump clsTable n FTable.mismatches 1).fset clsTable n FTable.lastMismatch k).ring 97 else b1 }) ∧
  -- AGER_SCAN, in the next cycle, after the updates that have arrived
  (∀ (s : State) (n : Nat),
    let d := (Dev.mk s.tm s.b).wait 1
    let b := d.b
    b.tableOn n = true → b.tableClearing n = false → b.fget clsTable n FTable.kind = 4 →
    b.fget clsLearn 0 FLearn.ageEn = 1 →
    let st := mapGet (0, 0) n b.tab.ager
    st.2 < b.work.tickSets → (∀ x, x ∈ b.tab.reqs → x.updates false n = false) →
    let g := b.tableGeo n
    let buckets := g.entries / g.slots
    let rate := min (b.fget clsLearn 0 FLearn.ageRate) buckets
    ∃ gone : List Nat,
      (∀ p, p ∈ gone ↔ ∃ e, b.entAt g p = some e ∧ (∃ l, (g.base + p, l) ∈ b.tab.lines) ∧ p < g.entries ∧
        (p / g.slots + buckets - st.1) % buckets < rate ∧ resStatic e.res = false ∧
        b.fget clsLearn 0 FLearn.ageUnits ≤ (seenOf d.tm.tickNumber + 2 ^ 24 - resSeen e.res) % 2 ^ 24) ∧
      (let b1 := gone.foldl (fun (x : Body) p => (x.removeEnt n g true p).lower clsLearn 0 FLearn.aged 1) b
       exec (.agerScan n) s = .next { s with
         tm := d.tm
         b := { b1 with tab.ager := mapPut n ((st.1 + rate) % buckets, b1.work.tickSets) b1.tab.ager } })))

/-- BASIN_APPLY waits for the cycle and applies the head entry, or lets cuts that a frozen channel held go first;
SNAPSHOT_FRAME waits for its cycle, drops the frame for want of a buffer or enqueues it, and ends the emission with
its last frame. The model's choices in it, which no rule states: the waits (assumption log 1) and the FCS at
transmission (110). -/
def Obligations.BasinCommandsComplete : Prop :=
  -- BASIN_APPLY, from the cycle after the entry's own; cuts that a frozen channel held go first
  (∀ (s : State) (e : BasinEntry) (r : List BasinEntry), s.b.bas.emissions = [] → s.b.bas.queue = e :: r →
    s.b.bas.cuts = [] → s.b.basinHeld 1 = false →
    let d := (Dev.mk s.tm s.b).waitCycle (max s.b.bas.ends (e.cyc + 1))
    exec .basinApply s = .next { s with tm := d.tm, b := ((d.b.applyEntries d.tm 1).basinAdmit).settle d.tm }) ∧
  (∀ s : State, s.b.bas.emissions = [] → s.b.bas.cuts ≠ [] →
    exec .basinApply s = .next { s with b := (s.b.goCuts s.tm).settle s.tm }) ∧
  -- SNAPSHOT_FRAME
  (∀ (s : State) (e : Emission) (rest : List Emission) (c h : Nat) (data : List Byte) (fs : List (Nat × List Byte)),
    s.b.bas.emissions = e :: rest → e.frames = (c, data) :: fs →
    let d := (Dev.mk s.tm s.b).waitCycle c
    let n := data.length + 4
    (d.b.takeForced e.list.tent n data = none → exec .snapshotFrame s = .next { s with tm := d.tm, b := d.b }) ∧
    (∀ b0, d.b.takeForced e.list.tent n data = some (h, b0) →
      let f : EgFrame := ⟨0, h, n, ⟨h, n, 67, e.list.furrow, 0, e.list.tent, 0, 0, 0, 0, e.boundary, e.list.num % 4096⟩,
        0, false, e.list.port * 2 ^ 48 + e.list.cls * 2 ^ 56, none, false, none, .none, false, false⟩
      let b1 := (b0.egEnqueue f).bump clsBasin 0 FBasin.snapFrames 1
      (fs ≠ [] → exec .snapshotFrame s = .next { s with
        tm := d.tm
        b := (({ b1 with bas.emissions := { e with frames := fs } :: rest } : Body).cutEnds d.tm).settle d.tm }) ∧
      (fs = [] → exec .snapshotFrame s = .next { s with
        tm := d.tm
        b := (((({ b1 with bas.emissions := rest } : Body).bump clsBasin (listInst e.list.num) FList.emitted 1).fset
          clsBasin (listInst e.list.num) FList.lastTick e.tick).cutEnds d.tm).settle d.tm })))

/-- An uncorrectable error counts, records its address and does what its memory asks: a poisoned buffer, a stopped
queue, a lost table entry, a Basin slot at reset, a trap of the Bivouac core with the word at its pc, a retired core
or cluster. A background test starts when due, ends 1,024 cycles later, moves to the next region and repairs or holds.
The model's choices in it, which no rule states: the waits (assumption log 1), BG_TEST_END as the spare columns allow
(38) and the entry that a bad line loses (132). -/
def Obligations.MemoryErrors : Prop :=
  (-- MEMORY_UNCORRECTABLE
  (∀ (s : State) (m a j : Nat), a < memBytes m → s.b.sys.base ≠ .cold →
    exec (.memoryUncorrectable m a j) s = .next { s with b := (s.b.memoryError s.tm m a j).settle s.tm }) ∧
  -- BG_TEST_START
  (∀ (s : State) (m : Nat), s.b.bgDue m s.tm.tickNumber = true →
    exec (.bgTestStart m) s = .next { s with b := { s.b with
      adm.bg := mapPut m ⟨s.tm.cycle, s.tm.tickNumber, mapGet 0 m s.b.adm.bgNext, true⟩ s.b.adm.bg } }) ∧
  -- BG_TEST_END, 1,024 core cycles after the start
  (∀ (s : State) (m : Nat) (x : BgTest), mapFind m s.b.adm.bg = some x → x.running = true →
    let d := (Dev.mk s.tm s.b).waitCycle (x.start + 1024)
    let next := (x.region + 1) % bgRegions m
    let b1 := ({ d.b with
      adm.bg := mapPut m { x with running := false } d.b.adm.bg
      adm.bgNext := mapPut m next d.b.adm.bgNext } : Body).fset clsMemregion m FMem.bgRegion next
    let b2 := if next = 0 then b1.bump clsMemregion m FMem.bgPasses 1 else b1
    let blk := x.region / 16
    (∀ spare, exec (.bgTestEnd m false spare) s = .next { s with tm := d.tm, b := b2 }) ∧
    exec (.bgTestEnd m true (s.b.spareLeft m blk)) s = .next { s with
      tm := d.tm
      b := (if b2.spareLeft m blk then (b2.useSpare m blk).bump clsMemregion m FMem.bgFaults 1
        else b2.fset clsMemregion m FMem.bgShadowHeld 1).ring 101 })) ∧
  (∀ (b : Body) (tm : Time) (m a j : Nat), a < memBytes m →
    let b1 := (b.bump clsMemregion m FMem.uncorrectable 1).fset clsMemregion m FMem.lastErrAddr (a / 8 * 8)
    -- frame data: the buffer is poisoned
    (∀ h x, m = 0 → 0x1840000 ≤ a → b1.bufferAt (a - 0x1840000) = some h → b1.buf? h = some x →
      b.memoryError tm m a j =
        ((b1.setBuf h { x with poison := true }).bump clsPool (handlePool h) FPool.poisoned 1).ring 99) ∧
    -- queue state: the queue is disabled
    (m = 1 → b.memoryError tm m a j =
      ((({ b1 with work.stopped := a / 24 :: b1.work.stopped } : Body).fset clsQueue (a / 24) FQueue.enable 0).syncReady
        (a / 24)).ring 35) ∧
    -- table memory: the line never matches again, and the instance stores one entry less (R274)
    (∀ k, m = 2 → b1.enabledTables.find? (fun k => (b1.lineRanges false k).any (fun r =>
        decide (r.1 ≤ a / 16 ∧ a / 16 < r.1 + r.2))) = some k →
      let b2 := (b1.bump clsTable k FTable.uncorrectable 1).fset clsTable k FTable.lastEccLine (a / 16)
      (∀ l, b2.line? (a / 16) = some l → l.bad = false) →
      let b3 := b2.loseEntry (a / 16)
      let lost : Line := ⟨((b3.line? (a / 16)).map Line.data).getD 0, true⟩
      b.memoryError tm m a j =
        ({ b3 with tab.lines := mapPut (a / 16) lost b3.tab.lines } : Body).ring 96) ∧
    -- the Basin: the slot returns to its reset values
    (m = 3 → b.memoryError tm m a j = (b1.resetBasin (fun _ i => decide (i = slotInst (a / 16)))).ring 100) ∧
    -- Bivouac memory: the core that read it traps
    (m = 4 → j < 4 → b.memoryError tm m a j = b1.trapBiv tm (1024 + j) 0x06
      (readLE b.mem.bmem (0x700000 + 0x10000 * j + (b.hart (1024 + j)).pc % 0x10000) 4) a) ∧
    -- local memory and the scratchpad: the core or the cluster retires
    (0x100 ≤ m → m < 0x180 → b.memoryError tm m a j = b1.retireOne tm (m - 0x100) 1) ∧
    (0x200 ≤ m → b.memoryError tm m a j = b1.retireCluster tm (m - 0x200)))

/-- SUBCHANNEL_COMMAND issues a due refresh of the bank whose turn it is, or opens the row that the request in turn
needs, closes another or makes its access, reading first where a write is partial; a request is sent for each line
that exists; one that has had its access completes with its data to what asked for it, a corrected one counts and
writes back, a failed write CRC retries up to four times and then freezes, an uncorrectable one freezes; a refresh
falls due after the interval of its temperature and a retraining every 32 ms; a scrub read advances, a pass each
SCRUB_HOURS; CHANNEL_FREEZE freezes and CHANNEL_THAW thaws with or without repair and may freeze again. The model's
choices in it, which no rule states: the waits (assumption log 1), the mapping of a line and what is captured of an
error (13, free values), when data moves (15), the failing request retried in the queue (52) and the order of banks of
REFsb (154). -/
def Obligations.DramCommandsComplete : Prop :=
  -- SUBCHANNEL_COMMAND (R340, R341): a due refresh, of the bank whose turn it is, once a retraining of the rank is over
  (∀ (s : State) (ch sub rank : Nat),
    let k := 4 * ch + 2 * (sub % 2) + rank % 2
    0 < mapGet 0 k s.b.drm.due → s.b.sys.base ≠ .cold → s.b.sys.base ≠ .dormant →
    let d := (Dev.mk s.tm s.b).waitCycle (mapGet 0 (2 * ch + rank % 2) s.b.drm.rankBusy)
    let ba := mapGet 0 k d.b.drm.refBank
    exec (.subchannelCommand ch sub (.refresh rank)) s = .next { s with
      tm := d.tm
      b := ({ d.b with
        drm.due := mapPut k (mapGet 0 k d.b.drm.due - 1) d.b.drm.due
        drm.refBank := mapPut k ((ba + 1) % 4) d.b.drm.refBank } : Body).note d.tm ch 5 sub rank 0 ba 0 }) ∧
  -- and the next command of a request that none goes before: ACT, RD or WR, PRE; a read-modify-write reads first
  (∀ (s : State) (ch sub i : Nat) (r : DramReq), s.b.frozen ch = false → s.b.sys.base ≠ .cold →
    s.b.sys.base ≠ .dormant → (s.b.dramQueue ch)[i]? = some r → s.b.mayChoose ch sub r = true →
    (∀ x, x ∈ s.b.dramQueue ch → s.b.mayChoose ch sub x = true → s.b.goesBefore ch x r = false) →
    let d := (Dev.mk s.tm s.b).waitCycle (mapGet 0 (2 * ch + s.b.lineRank r.addr % 2) s.b.drm.rankBusy)
    let k := d.b.rowKey ch r.addr
    (d.b.openRow ch r.addr = none → exec (.subchannelCommand ch sub (.access i)) s = .next { s with
      tm := d.tm
      b := ({ d.b with drm.rows := mapPut k (lineRow r.addr) d.b.drm.rows } : Body).noteLine d.tm ch 0 r.addr
        (lineRow r.addr) }) ∧
    (d.b.openRow ch r.addr = some (lineRow r.addr) →
      (r.modify = false → exec (.subchannelCommand ch sub (.access i)) s = .next { s with
        tm := d.tm
        b := (d.b.setDramQueue ch ((d.b.dramQueue ch).set i { r with issued := true })).noteLine d.tm ch
          (if r.write then 2 else 1) r.addr (lineCol r.addr) }) ∧
      (r.modify = true → exec (.subchannelCommand ch sub (.access i)) s = .next { s with
        tm := d.tm
        b := (d.b.setDramQueue ch ((d.b.dramQueue ch).set i { r with modify := false })).noteLine d.tm ch 1 r.addr
          (lineCol r.addr) })) ∧
    (∀ row, d.b.openRow ch r.addr = some row → row ≠ lineRow r.addr →
      exec (.subchannelCommand ch sub (.access i)) s = .next { s with
        tm := d.tm
        b := ({ d.b with drm.rows := mapDel k d.b.drm.rows } : Body).noteLine d.tm ch 3 r.addr 0 })) ∧
  -- DRAM_REFRESH (R341), DQS_RETRAIN (R342), SCRUB_READ (R343)
  (∀ (s : State) (ch rank : Nat), s.b.fget clsDram (1 + ch) FChan.present = 1 →
    let k := 2 * ch + rank % 2
    (rank ≤ s.b.fget clsDram 0 FDram.ranksM1 → s.b.sys.base ≠ .cold → s.b.sys.base ≠ .dormant →
      let hot := s.b.fresh
      let d := (Dev.mk s.tm hot.2).waitCycle (mapGet 0 k s.b.drm.refreshed + (if hot.1 % 2 = 1 then 2925 else 5850))
      let k0 := 4 * ch + rank % 2
      let due0 := mapPut k0 (mapGet 0 k0 d.b.drm.due + 1) d.b.drm.due
      exec (.dramRefresh ch rank) s = .next { s with
        tm := d.tm
        b := { d.b with
          drm.due := mapPut (k0 + 2) (mapGet 0 (k0 + 2) due0 + 1) due0
          drm.refreshed := mapPut k d.tm.cycle d.b.drm.refreshed } }) ∧
    (rank ≤ s.b.fget clsDram 0 FDram.ranksM1 → s.b.runs = true → s.b.frozen ch = false →
      let x := s.b.fresh
      -- 32 ms after the last time; the rank's commands wait up to 300 ns
      let d := (Dev.mk s.tm x.2).waitCycle (mapGet 0 k s.b.drm.retrained + 48000000)
      exec (.dqsRetrain ch rank) s = .next { s with
        tm := d.tm
        b := (({ d.b with
          drm.retrained := mapPut k d.tm.cycle d.b.drm.retrained
          drm.rankBusy := mapPut k (d.tm.cycle + x.1 % 451) d.b.drm.rankBusy } : Body).note d.tm ch 7 0 rank 0 0 0).note
            d.tm ch 7 1 rank 0 0 0 }) ∧
    (0 < s.b.fget clsDram 0 FDram.scrubHours → s.b.frozen ch = false → s.b.sys.base ≠ .cold → s.b.sys.base ≠ .dormant →
      s.b.scrubbing ch = false → ∀ fixed,
      let n := mapGet 0 ch s.b.drm.scrub
      let read := fun (b : Body) => b.dramSend 7 0 (b.channelLine ch n) 64 false (.scrub fixed) []
      (n ≠ 0 → exec (.scrubRead ch fixed) s = .next { s with b := read s.b }) ∧
      -- a pass starts one period of SCRUB_HOURS after the start of the last
      (n = 0 →
        let d := (Dev.mk s.tm s.b).waitCycle (mapGet 0 ch s.b.drm.scrubFrom)
        let period := d.b.fget clsDram 0 FDram.scrubHours * 3600 * 1500000000
        exec (.scrubRead ch fixed) s = .next { s with
          tm := d.tm
          b := read { d.b with drm.scrubFrom := mapPut ch (d.tm.cycle + period) d.b.drm.scrubFrom } }))) ∧
  -- DRAM_COMPLETE (R337, R339, R344), of a request whose column command is issued
  (∀ (s : State) (ch i : Nat) (r : DramReq), (s.b.dramQueue ch)[i]? = some r → r.issued = true →
    s.b.frozen ch = false → (∀ x, x ∈ (s.b.dramQueue ch).take i → x.port = r.port → x.addr ≠ r.addr) →
    let b1 := s.b.setDramQueue ch ((s.b.dramQueue ch).eraseIdx i)
    let b2 := if r.use = .writeBack then b1 else b1.dramDone r.port ((s.b.clock - r.arrival) * 2 / 3)
    let words := wordsOf (r.data.map (fun e => e.2))
    let ended := fun (b : Body) => Host.Outcome.next (φ := Fault) (ρ := Refusal) { s with b := (match r.use with
      | .posted => b
      | .writeBack => b
      | .scrub _ => b.scrubbed ch
      | .thread h num =>
        if b.dramPending r.group then b
        else b.modHart h (fun (x : Hart) => { x with
          reqs := x.reqs.map (fun (q : Req) => if q.num = num then { q with reply := some words } else q) })
      | .aperture true => if b.dramPending r.group then b else b.answer stOk
      | .aperture false => if b.dramPending r.group then b else b.answerWords stOk words).admitDram }
    -- an error that a read corrects is counted, and the line is written back
    let b3 := b2.bump clsDram (1 + ch) FChan.corrected 1
    let again : DramReq :=
      ⟨s.b.stamp, s.b.stamp, r.port, r.tent, r.addr, true, .writeBack, s.b.clock, false, false, 0, []⟩
    let b4 := if r.write then b3
      else ({ b3 with stamp := b3.stamp + 1 } : Body).setDramQueue ch (b3.dramQueue ch ++ [again])
    (r.use ≠ .scrub true → exec (.dramComplete ch i .good) s = ended b2) ∧
    (r.use = .scrub true → exec (.dramComplete ch i .good) s = ended b4) ∧
    exec (.dramComplete ch i .corrected) s = ended b4 ∧
    (r.write = true → r.tries < 4 → exec (.dramComplete ch i .writeCrc) s = .next { s with
      b := (s.b.setDramQueue ch ((s.b.dramQueue ch).set i { r with tries := r.tries + 1, issued := false })).bump clsDram
        (1 + ch) FChan.wcrcRetries 1 }) ∧
    (let syn := BitVec.ofNat 128 s.b.fresh.1
     ((∀ k, r.use ≠ .scrub k) → exec (.dramComplete ch i .uncorrectable) s = .next { s with
       b := s.b.fresh.2.freezeChannel s.tm ch ⟨1, r.port, r.addr, syn⟩ }) ∧
     (∀ k, r.use = .scrub k → exec (.dramComplete ch i .uncorrectable) s = .next { s with
       b := s.b.fresh.2.freezeChannel s.tm ch ⟨4, r.port, r.addr, syn⟩ }) ∧
     (r.write = true → 4 ≤ r.tries → exec (.dramComplete ch i .writeCrc) s = .next { s with
       b := s.b.fresh.2.freezeChannel s.tm ch ⟨2, r.port, r.addr, syn⟩ }))) ∧
  -- a completed scrub read moves on by a line; a full pass counts (R343)
  (∀ (b : Body) (ch : Nat),
    let n := mapGet 0 ch b.drm.scrub + 1
    b.scrubbed ch = if n < b.channelLines then { b with drm.scrub := mapPut ch n b.drm.scrub }
      else ({ b with drm.scrub := mapPut ch 0 b.drm.scrub } : Body).bump clsDram (1 + ch) FChan.scrubPasses 1) ∧
  -- what an access asks of the channels: a request for each line that exists, partial writes reading first (R336, R337)
  (∀ (b : Body) (p t a n : Nat) (write : Bool) (use : DramUse) (data : List (Nat × Byte)),
    let b1 := if b.dramCapacity < a + n then b.bump clsDram 0 FDram.outOfPop 1 else b
    b.dramSend p t a n write use data = (b.dramLines a n).foldl (fun (x : Body) l =>
      ({ x with stamp := x.stamp + 1 } : Body).dramAsk ⟨x.stamp, b1.stamp, p, t, l, write, use, b.clock,
        write && !decide (a ≤ l ∧ l + 64 ≤ a + n), false, 0,
        if write then data.filter (fun e => decide (e.1 / 64 * 64 = l)) else data⟩)
      { b1 with stamp := b1.stamp + 1 }) ∧
  -- CHANNEL_FREEZE (R345)
  (∀ (s : State) (ch : Nat) (f : FreezeInfo), s.b.fget clsDram (1 + ch) FChan.present = 1 → s.b.frozen ch = false →
    exec (.channelFreeze ch f) s = .next { s with b := s.b.freezeChannel s.tm ch f }) ∧
  -- CHANNEL_THAW (R347)
  (∀ (s : State) (ch : Nat), s.b.sys.base ≠ .cold → s.b.asleep = false → ch < 8 → s.b.frozen ch = true →
    let i := 1 + ch
    let b0 := s.b.fset clsDram i FChan.frozen 0
    let a := s.b.fget clsDram i FChan.frzAddr
    let line := (leBytes 64 (s.b.fget clsDram i FChan.repairData)).take (s.b.dramCapacity - a)
    let b1 := if s.b.fget clsDram i FChan.repair = 1 then
      ({ b0 with mem.dram := writeBytes s.b.mem.dram a line } : Body).replay ch a else b0
    let b2 := b1.dramLate ch
    let b3 := ((if s.b.fget clsDram i FChan.frzCause = 3 then b2.reissue s.tm ch else b2).freezeChanged true).admitDram
    exec (.channelThaw .biv ch none) s = .next (s.answered (b3.goCuts s.tm)) ∧
    (∀ f, exec (.channelThaw .biv ch (some f)) s = .next (s.answered ((b3.freezeChannel s.tm ch f).goCuts s.tm))))

/-- FROZEN is 1 and the capture holds the cause, the line address, the time, the port and the syndrome; no other
channel changes its FROZEN; the freeze level is raised; threads, memory and the queues of requests are unchanged. The
model's choices in it, which no rule states: what of an error a FREEZE operand names (assumption log 13). -/
def Obligations.FreezeCaptures : Prop :=
  ∀ (b : Body) (tm : Time) (ch : Nat) (f : FreezeInfo), ch < 8 → f.cause < 8 → f.port < 8 → f.addr < 2 ^ 40 →
    let r := b.freezeChannel tm ch f
    let i := 1 + ch
    r.fget clsDram i FChan.frozen = 1 ∧ r.fget clsDram i FChan.frzCause = f.cause ∧
    r.fget clsDram i FChan.frzAddr = f.addr / 64 * 64 ∧ r.fget clsDram i FChan.frzTime = tm.now % 2 ^ 64 ∧
    r.fget clsDram i FChan.frzPort = f.port ∧ r.fget clsDram i FChan.frzSyndrome = f.syndrome.toNat ∧
    (∀ k, k < 8 → k ≠ ch → r.frozen k = b.frozen k) ∧ r.fget clsIrq 36 FIrq.level = 1 ∧
    r.isa = b.isa ∧ r.mem = b.mem ∧ r.drm = b.drm

/-- ADD, SUB, ADDS, SUBS, NEG, ADDI, SUBI, MUL, MULH, MULHU, DIV, DIVU, REM and REMU write their result and the flags
of Tables 7.3 and 7.4, charge 1 or 20 cycles and go on at PC + 4. The model's choices in it, which no rule states: the
cycles charged, with those waited for results (assumption log 12). -/
def Obligations.ArithmeticResults : Prop :=
  (∀ (s : State) (h : Nat), Issues s h →
    let fl := (s.b.hart h).flags
    (∀ f : FmtA, f.rsv = 0 →
      let a := s.b.reg h f.ra
      let b := s.b.reg h f.rb
      exec (.add h f) s = .next (s.result h f.rd (a + b) { fl with
        n := (a + b).msb, z := decide (a + b = 0), c := decide (2 ^ 32 ≤ a.toNat + b.toNat)
        v := decide (a.msb = b.msb ∧ (a + b).msb ≠ a.msb) } 1) ∧
      exec (.sub h f) s = .next (s.result h f.rd (a - b) { fl with
        n := (a - b).msb, z := decide (a - b = 0), c := decide (b.toNat ≤ a.toNat)
        v := decide (a.msb ≠ b.msb ∧ (a - b).msb ≠ a.msb) } 1) ∧
      (let x := a.toInt + b.toInt
       let r : Word := if 0x7FFFFFFF < x then 0x7FFFFFFF else if x < -2 ^ 31 then 0x80000000 else BitVec.ofInt 32 x
       exec (.adds h f) s = .next (s.result h f.rd r { fl with
         n := r.msb, z := decide (r = 0), v := decide (0x7FFFFFFF < x ∨ x < -2 ^ 31) } 1)) ∧
      (let x := a.toInt - b.toInt
       let r : Word := if 0x7FFFFFFF < x then 0x7FFFFFFF else if x < -2 ^ 31 then 0x80000000 else BitVec.ofInt 32 x
       exec (.subs h f) s = .next (s.result h f.rd r { fl with
         n := r.msb, z := decide (r = 0), v := decide (0x7FFFFFFF < x ∨ x < -2 ^ 31) } 1)) ∧
      (f.rb = 0 → exec (.neg h f) s = .next (s.result h f.rd (0 - a) { fl with
        n := (0 - a).msb, z := decide (0 - a = 0), v := decide (a = 0x80000000) } 1))) ∧
    (∀ f : FmtB,
      let a := s.b.reg h f.ra
      let b := f.imm.signExtend 32
      exec (.addi h f) s = .next (s.result h f.rd (a + b) { fl with
        n := (a + b).msb, z := decide (a + b = 0), c := decide (2 ^ 32 ≤ a.toNat + b.toNat)
        v := decide (a.msb = b.msb ∧ (a + b).msb ≠ a.msb) } 1) ∧
      exec (.subi h f) s = .next (s.result h f.rd (a - b) { fl with
        n := (a - b).msb, z := decide (a - b = 0), c := decide (b.toNat ≤ a.toNat)
        v := decide (a.msb ≠ b.msb ∧ (a - b).msb ≠ a.msb) } 1))) ∧
  (∀ (s : State) (h : Nat) (f : FmtA), Issues s h → f.rsv = 0 →
    let fl := (s.b.hart h).flags
    let nz := fun (r : Word) => { fl with n := r.msb, z := decide (r = 0) }
    let a := s.b.reg h f.ra
    let b := s.b.reg h f.rb
    let ovf := decide (a = 0x80000000 ∧ b = 0xFFFFFFFF)
    let q : Word := if b = 0 then (if 0 ≤ a.toInt then 0x7FFFFFFF else 0x80000000)
      else if ovf then 0x80000000 else BitVec.ofInt 32 (a.toInt.tdiv b.toInt)
    let r : Word := if b = 0 then a else if ovf then 0 else BitVec.ofInt 32 (a.toInt - a.toInt.tdiv b.toInt * b.toInt)
    let qu : Word := if b = 0 then 0xFFFFFFFF else BitVec.ofNat 32 (a.toNat / b.toNat)
    let ru : Word := if b = 0 then a else BitVec.ofNat 32 (a.toNat - a.toNat / b.toNat * b.toNat)
    exec (.mul h f) s = .next (s.result h f.rd (a * b) { nz (a * b) with
      v := decide (a.toInt * b.toInt < -2 ^ 31 ∨ 2 ^ 31 ≤ a.toInt * b.toInt) } 1) ∧
    (let m := BitVec.ofInt 32 (a.toInt * b.toInt / 2 ^ 32)
     exec (.mulh h f) s = .next (s.result h f.rd m (nz m) 1)) ∧
    (let m := BitVec.ofNat 32 (a.toNat * b.toNat / 2 ^ 32)
     exec (.mulhu h f) s = .next (s.result h f.rd m (nz m) 1)) ∧
    (s.Room h 20 →
      exec (.divI h f) s = .next (s.result h f.rd q { nz q with v := ovf && decide (b ≠ 0), dz := decide (b = 0) } 20) ∧
      exec (.rem h f) s = .next (s.result h f.rd r { nz r with v := ovf && decide (b ≠ 0), dz := decide (b = 0) } 20) ∧
      exec (.divu h f) s = .next (s.result h f.rd qu { nz qu with v := false, dz := decide (b = 0) } 20) ∧
      exec (.remu h f) s = .next (s.result h f.rd ru { nz ru with v := false, dz := decide (b = 0) } 20)))

/-- AND, OR, XOR, ANDN, MIN, MAX, MINU, MAXU, CLZ, POPC, BSWAP, ANDI, ORI, XORI, LUI, the shifts and rotates, SHI and
BFX write their result; N and Z follow it but for LUI. The model's choices in it, which no rule states: the cycles
charged, with those waited for results (assumption log 12). -/
def Obligations.LogicalResults : Prop :=
  (∀ (s : State) (h : Nat), Issues s h →
    let fl := (s.b.hart h).flags
    let nz := fun (r : Word) => { fl with n := r.msb, z := decide (r = 0) }
    (∀ f : FmtA, f.rsv = 0 →
      let a := s.b.reg h f.ra
      let b := s.b.reg h f.rb
      let done := fun (r : Word) => Host.Outcome.next (ρ := Refusal) (φ := Fault) (s.result h f.rd r (nz r) 1)
      exec (.andI h f) s = done (a &&& b) ∧
      exec (.orI h f) s = done (a ||| b) ∧
      exec (.xorI h f) s = done (a ^^^ b) ∧
      exec (.andn h f) s = done (a &&& ~~~b) ∧
      exec (.min h f) s = done (if a.toInt ≤ b.toInt then a else b) ∧
      exec (.max h f) s = done (if b.toInt ≤ a.toInt then a else b) ∧
      exec (.minu h f) s = done (if a.toNat ≤ b.toNat then a else b) ∧
      exec (.maxu h f) s = done (if b.toNat ≤ a.toNat then a else b) ∧
      (f.rb = 0 →
        exec (.clz h f) s = done (BitVec.ofNat 32 (if a = 0 then 32 else 31 - Nat.log2 a.toNat)) ∧
        exec (.popc h f) s = done (BitVec.ofNat 32 ((List.range 32).countP (fun k => a.getLsbD k))) ∧
        exec (.bswap h f) s =
          done (a.extractLsb' 0 8 ++ a.extractLsb' 8 8 ++ a.extractLsb' 16 8 ++ a.extractLsb' 24 8))) ∧
    (∀ f : FmtB,
      let a := s.b.reg h f.ra
      let done := fun (r : Word) => Host.Outcome.next (ρ := Refusal) (φ := Fault) (s.result h f.rd r (nz r) 1)
      exec (.andi h f) s = done (a &&& f.imm.zeroExtend 32) ∧
      exec (.ori h f) s = done (a ||| f.imm.zeroExtend 32) ∧
      exec (.xori h f) s = done (a ^^^ f.imm.zeroExtend 32) ∧
      (f.ra = 0 → exec (.lui h f) s = .next (s.result h f.rd (f.imm.zeroExtend 32 <<< 16) fl 1)))) ∧
  (∀ (s : State) (h : Nat), Issues s h →
    let fl := (s.b.hart h).flags
    let nz := fun (r : Word) => { fl with n := r.msb, z := decide (r = 0) }
    (∀ f : FmtA, f.rsv = 0 →
      let a := s.b.reg h f.ra
      let k := (s.b.reg h f.rb).toNat % 256
      let done := fun (r : Word) => Host.Outcome.next (ρ := Refusal) (φ := Fault) (s.result h f.rd r (nz r) 1)
      exec (.shl h f) s = done (if 32 ≤ k then 0 else a <<< k) ∧
      exec (.shr h f) s = done (if 32 ≤ k then 0 else a >>> k) ∧
      exec (.sar h f) s = done (if 32 ≤ k then (if a.msb then 0xFFFFFFFF else 0) else a.sshiftRight k) ∧
      exec (.rol h f) s = done (a.rotateLeft (k % 32)) ∧
      exec (.ror h f) s = done (a.rotateRight (k % 32))) ∧
    (∀ f : FmtB, bitsAt f.imm.toNat 8 3 ≤ 4 → bitsAt f.imm.toNat 11 5 = 0 →
      let a := s.b.reg h f.ra
      let k := f.imm.toNat % 256
      let r := match bitsAt f.imm.toNat 8 3 with
        | 0 => if 32 ≤ k then 0 else a <<< k
        | 1 => if 32 ≤ k then 0 else a >>> k
        | 2 => if 32 ≤ k then (if a.msb then 0xFFFFFFFF else 0) else a.sshiftRight k
        | 3 => a.rotateLeft (k % 32)
        | _ => a.rotateRight (k % 32)
      exec (.shi h f) s = .next (s.result h f.rd r (nz r) 1)) ∧
    -- BFX (R183): bit `i` of the result
    (∀ f : FmtB, bitsAt f.imm.toNat 14 2 ≤ 2 → bitsAt f.imm.toNat 10 4 = 0 →
      let a := s.b.reg h f.ra
      let pos := bitsAt f.imm.toNat 5 5
      let n := Nat.min (pos + f.imm.toNat % 32 + 1) 32 - pos
      ∃ r : Word, exec (.bfx h f) s = .next (s.result h f.rd r (nz r) 1) ∧
        ∀ i, i < 32 → r.getLsbD i =
          match bitsAt f.imm.toNat 14 2 with
          | 0 => decide (i < n) && a.getLsbD (pos + i)
          | 1 => if i < n then a.getLsbD (pos + i) else a.getLsbD (pos + n - 1)
          | _ => if pos ≤ i ∧ i < pos + n then a.getLsbD (i - pos) else (s.b.reg h f.rd).getLsbD i))

/-- Only the destination register (none where it is w0), the flags the instruction names, the pc, the cycle counts (of
a thread: those of the instruction and those that it waited for results) and the results on their way change, on a
thread and on a Bivouac core: every other register, hart, memory byte, queue and object field, and the time, are
unchanged. The model's choices in it, which no rule states: the cycles charged (assumption log 12) and that a Bivouac
core has no item (24). -/
def Obligations.RegisterResultFrame : Prop :=
  ∀ (s : State) (h : Nat) (rd : BitVec 5) (r : Word) (fl : Flags) (cycles : Nat),
    let x := s.b.hart h
    let t := s.result h rd r fl cycles
    let n := s.b.waitOf s.tm h cycles
    t.pending = s.pending ∧ t.tm = s.tm ∧
    (∀ q, t.b.reg h q = if q = rd ∧ q ≠ 0 then r else s.b.reg h q) ∧
    (t.b.hart h).flags = fl ∧ (t.b.hart h).pc = (x.pc + 4) % 2 ^ 16 ∧
    (t.b.hart h).score =
      (x.noteResults (usesOf (s.b.insnAt h) cycles) (s.b.coreNow s.tm (h / 8) + n) x.regs).score ∧
    -- a thread is charged the cycles of the instruction and those that it waited for results (R208, R226)
    (h < 1024 →
      (t.b.hart h).item = x.item.map (fun it =>
        if it.overrun then it else { it with cycles := it.cycles + (n + cycles) }) ∧
      (t.b.core (h / 8)).spent = (s.b.core (h / 8)).spent + (n + cycles)) ∧
    -- a Bivouac core waits for no result and is charged to no item
    (1024 ≤ h → n = 0 ∧ (t.b.hart h).item = x.item ∧ (t.b.hart h).graceUsed = x.graceUsed ∧
      (∀ k, t.b.core k = s.b.core k) ∧
      (∀ c i (f : Fld), i < 2 ^ 24 → f.lo < 2 ^ 16 → t.b.fget c i f = s.b.fget c i f)) ∧
    { t.b.hart h with
      regs := x.regs, pc := x.pc, flags := x.flags, block := x.block, item := x.item, graceUsed := x.graceUsed
      halted := x.halted, stepping := x.stepping, score := x.score } = x ∧
    (∀ k, k ≠ h → t.b.hart k = s.b.hart k) ∧
    (∀ k, k ≠ h / 8 → t.b.core k = s.b.core k) ∧
    (let c := s.b.core (h / 8)
     { t.b.core (h / 8) with lastCommit := c.lastCommit, spent := c.spent } = c) ∧
    t.b.mem = s.b.mem ∧ t.b.sys = s.b.sys ∧ t.b.work = s.b.work ∧ t.b.sync = s.b.sync ∧ t.b.net = s.b.net ∧
    t.b.drm = s.b.drm ∧ t.b.tab = s.b.tab ∧ t.b.bas = s.b.bas ∧ t.b.host = s.b.host ∧ t.b.adm = s.b.adm ∧
    t.b.outputs = s.b.outputs ∧ t.b.latches = s.b.latches ∧ t.b.reply = s.b.reply ∧
    (∀ c i (f : Fld), i < 2 ^ 24 → f.lo < 2 ^ 16 →
      c ≠ clsHeadgate ∨ (i ≠ 0x10000 + h ∧ i ≠ 0x20000 + h / 8) ∨ f.lo ≠ FLoad.issueNow.lo →
      t.b.fget c i f = s.b.fget c i f)

/-- BCC goes to (PC + 4 x SIMM21) mod 2^16 when the condition of Table 7.6 holds and to PC + 4 otherwise, and changes
no flag and nothing else but the cycles charged. JR goes to its aligned register value and applies a waiting IE write.
The model's choices in it, which no rule states: the cycles charged, with those waited for results (assumption log
12). -/
def Obligations.BranchResults : Prop :=
  ∀ (s : State) (h : Nat), Starts s h →
    let x := s.b.hart h
    -- BCC (R184)
    (∀ f : FmtC, f.cond.toNat ≤ 18 →
      let fl := x.flags
      let taken := match f.cond.toNat with
        | 0 => fl.z | 1 => !fl.z | 2 => fl.c | 3 => !fl.c | 4 => fl.n | 5 => !fl.n | 6 => fl.v | 7 => !fl.v
        | 8 => fl.c && !fl.z | 9 => !fl.c || fl.z | 10 => fl.n == fl.v | 11 => fl.n != fl.v
        | 12 => !fl.z && fl.n == fl.v | 13 => fl.z || fl.n != fl.v | 14 => true | 15 => fl.eom | 16 => !fl.eom
        | 17 => fl.dz | _ => fl.lf
      (taken = true → s.Room h 2 → exec (.bcc h f) s =
        .next (s.committed h (s.issued h) 2 ((x.pc + 4 * f.simm.toInt) % 2 ^ 16).toNat)) ∧
      (taken = false → s.Room h 1 → exec (.bcc h f) s = .next (s.committed h (s.issued h) 1 (s.after h)))) ∧
    -- JR (R185)
    (∀ f : FmtB, f.rd = 0 → f.imm = 0 → (s.b.reg h f.ra).toNat % 4 = 0 → s.Room h 2 →
      (x.pendingIe = none →
        exec (.jr h f) s = .next (s.committed h (s.issued h) 2 ((s.b.reg h f.ra).toNat % 2 ^ 16))) ∧
      (∀ v, x.pendingIe = some v →
        exec (.jr h f) s = .next (s.committed h (((s.issued h).modHart h (fun y => { y with pendingIe := none })).fset
          clsDevice (bivInst h) FBiv.ie (if v then 1 else 0)) 2 ((s.b.reg h f.ra).toNat % 2 ^ 16))))

/-- CALL and CALLR of a thread write the header and the registers of the mask upwards from the new w31, in local
memory or in the scratchpad, change w31 and the pc and nothing else of registers, flags and any memory; RET restores
the registers that the header names, w31 and the pc and changes no memory; one whose frame reaches beyond STACK_HI, as
every one in the scratchpad does, traps with STACK. The model's choices in it, which no rule states: the cycles
charged (assumption log 12) and the order of the checks (82). -/
def Obligations.CallResults : Prop :=
  ∀ (s : State) (h : Nat) (inLocal : Bool), h < 1024 →
    let sp := (s.b.reg h 31).toNat
    -- the save area, in local memory or in the scratchpad
    let at_ := fun (a : Nat) => if inLocal then Place.local a else Place.scratch a
    let m := fun (a : Nat) => if inLocal then lmemAddr (h / 8) a else spadAddr (h / 64) a
    let area := fun (b : Body) => if inLocal then b.mem.lmem else b.mem.spad
    let other := fun (b : Body) => if inLocal then b.mem.spad else b.mem.lmem
    -- CALL and CALLR (R186)
    (∀ (base target : Nat) (mask : BitVec 16) (i : Instr),
      (∃ low, i = .call h ⟨mask, low⟩ ∧ target = (((s.b.hart h).pc + 4 * low.toInt) % 2 ^ 16).toNat) ∨
        (∃ ra : BitVec 5, i = .callr h ⟨mask, ra ++ 0#5⟩ ∧ target = (s.b.reg h ra).toNat % 2 ^ 16 ∧ target % 4 = 0) →
      let saved := (List.range 16).filter (fun k => mask.getLsbD k)
      let n := saved.length + 1
      Issues s h (2 + n) →
      sp % 4 = 0 → base + 4 * n = sp → s.b.fget clsThread h FThread.stackLo ≤ base →
      (∀ k, k < n → s.b.place h (base + 4 * k) 4 false true = some (at_ (base + 4 * k))) →
      ∃ t, exec i s = .next t ∧ t.pending = s.pending ∧ t.tm = s.tm ∧
        (t.b.hart h).pc = target ∧ (t.b.hart h).flags = (s.b.hart h).flags ∧
        (∀ q, t.b.reg h q = if q = 31 then BitVec.ofNat 32 base else s.b.reg h q) ∧
        readLE (area t.b) (m base) 4 = s.after h * 2 ^ 16 + mask.toNat ∧
        (∀ k (hk : k < saved.length), readLE (area t.b) (m base + 4 * (k + 1)) 4 =
          (s.b.reg h (BitVec.ofNat 5 (16 + saved[k]))).toNat) ∧
        (∀ a, a < m base ∨ m base + 4 * n ≤ a → readByte (area t.b) a = readByte (area s.b) a) ∧
        other t.b = other s.b ∧ t.b.mem.dram = s.b.mem.dram ∧ t.b.mem.imem = s.b.mem.imem ∧
        t.b.mem.bmem = s.b.mem.bmem) ∧
    -- RET (R186)
    (let word := fun k => readLE (area s.b) (m sp + 4 * k) 4
     let saved := (List.range 16).filter (fun k => (word 0).testBit k)
     let n := saved.length + 1
     let top := sp + 4 * n
     Issues s h (2 + n) →
     sp % 4 = 0 → s.b.fget clsThread h FThread.stackLo ≤ sp → top ≤ s.b.fget clsThread h FThread.stackHi + 1 →
     top ≤ 2 ^ 32 → bitsAt (word 0) 16 2 = 0 →
     (∀ k, k < n → s.b.place h (sp + 4 * k) 4 true false = some (at_ (sp + 4 * k))) →
     ∃ t, exec (.ret h ⟨0, 0⟩) s = .next t ∧ t.pending = s.pending ∧ t.tm = s.tm ∧ t.b.mem = s.b.mem ∧
       (t.b.hart h).pc = word 0 / 2 ^ 16 ∧ (t.b.hart h).flags = (s.b.hart h).flags ∧
       (∀ k (hk : k < saved.length), t.b.reg h (BitVec.ofNat 5 (16 + saved[k])) = BitVec.ofNat 32 (word (k + 1))) ∧
       ((word 0).testBit 15 = false → t.b.reg h 31 = BitVec.ofNat 32 top) ∧
       (∀ q : BitVec 5, q ≠ 31 → (q.toNat < 16 ∨ (word 0).testBit (q.toNat - 16) = false) →
         t.b.reg h q = s.b.reg h q)) ∧
    -- a frame that reaches beyond STACK_HI, as every one in the scratchpad does, traps
    (let saved := (List.range 16).filter (fun k => (readLE (area s.b) (m sp) 4).testBit k)
     let top := sp + 4 * (saved.length + 1)
     Issues s h → sp % 4 = 0 → s.b.fget clsThread h FThread.stackLo ≤ sp →
     s.b.fget clsThread h FThread.stackHi + 1 < top → top ≤ 2 ^ 32 →
     s.b.place h sp 4 true false = some (at_ sp) →
     exec (.ret h ⟨0, 0⟩) s = .next { s with
       b := ((s.b.stall s.tm h).trapAt s.tm h (wordD 0x14 ⟨0, 0⟩) 0x0A (top - 1)).settle s.tm })

/-- The effective address and the write-back of the four modes; loads extend what memory holds at it and write rt
after the write-back; stores write the low bytes of the old rt at it and change no other byte of any memory and no
other register. Both hold of a thread's local memory and scratchpad and of a Bivouac core's memory, its transmit
records, its unused addresses and its DRAM window. The model's choices in it, which no rule states: the cycles charged
(assumption log 12) and when DRAM data moves (15). -/
def Obligations.LoadStoreResults : Prop :=
  (∀ (x : Hart) (f : FmtM),
    let a := x.reg f.ra
    x.ea f = match f.am.toNat with
      | 0 => (a + f.low.signExtend 32, none)
      | 1 => (a, some (a + f.low.signExtend 32))
      | 2 => (a - f.low.zeroExtend 32, some (a - f.low.zeroExtend 32))
      | _ => (a + (x.reg (f.low.extractLsb' 9 5) <<< (f.low.extractLsb' 6 3).toNat), none)) ∧
  (∀ (s : State) (h : Nat) (f : FmtM) (p : Place), Issues s h p.cycles → indexReserved f = false →
    let ea := (s.b.hart h).ea f
    let a := ea.1.toNat
    -- what the place holds: local memory and the scratchpad of a thread, the memory, the unused addresses and the DRAM
    -- window of a Bivouac core (Table 16.1)
    let rd := fun n => match p with
      | .local x => readLE s.b.mem.lmem (lmemAddr (h / 8) x) n
      | .scratch x => readLE s.b.mem.spad (spadAddr (h / 64) x) n
      | .biv x => readLE s.b.mem.bmem x n
      | .nothing => 0
      | .dram x => leNat ((s.issued h).dramRead 6 0 x n).1
    let done := fun (n : Nat) (w : Word) =>
      let b1 := match p with
        | .dram x => ((s.issued h).dramRead 6 0 x n).2
        | _ => s.issued h
      Host.Outcome.next (ρ := Refusal) (φ := Fault) (s.committed h ((b1.writeBack h f ea.2).setReg h f.rt w)
        (match p with
          | .scratch _ => 8
          | _ => 1) (s.after h))
    (s.b.place h a 1 true false = some p → s.b.placeHeld p 1 = false →
      exec (.ldb h f) s = done 1 ((BitVec.ofNat 8 (rd 1)).signExtend 32) ∧
      exec (.ldbu h f) s = done 1 ((BitVec.ofNat 8 (rd 1)).zeroExtend 32)) ∧
    (s.b.place h a 2 true false = some p → a % 2 = 0 → s.b.placeHeld p 2 = false →
      exec (.ldh h f) s = done 2 ((BitVec.ofNat 16 (rd 2)).signExtend 32) ∧
      exec (.ldhu h f) s = done 2 ((BitVec.ofNat 16 (rd 2)).zeroExtend 32)) ∧
    (s.b.place h a 4 true false = some p → a % 4 = 0 → s.b.placeHeld p 4 = false →
      exec (.ldw h f) s = done 4 (BitVec.ofNat 32 (rd 4)))) ∧
  (∀ (s : State) (h : Nat) (f : FmtM) (p : Place) (n : Nat) (i : Instr), Issues s h p.cycles → indexReserved f = false →
    (i = .stb h f ∧ n = 1) ∨ (i = .sth h f ∧ n = 2) ∨ (i = .stw h f ∧ n = 4) →
    let ea := (s.b.hart h).ea f
    let a := ea.1.toNat
    let v := (s.b.reg h f.rt).toNat
    a % n = 0 → s.b.place h a n false true = some p →
    -- memory `g` holds the stored bytes at `k` and is unchanged outside them, and of the hart only the base register
    -- and the address of the next instruction change
    let stored := fun (t : State) (g : Mems → Memory) (k : Nat) =>
      t.pending = s.pending ∧ t.tm = s.tm ∧ readLE (g t.b.mem) k n = v % 2 ^ (8 * n) ∧
      (∀ y, y < k ∨ k + n ≤ y → readByte (g t.b.mem) y = readByte (g s.b.mem) y) ∧
      (t.b.hart h).flags = (s.b.hart h).flags ∧ (t.b.hart h).pc = s.after h ∧
      (∀ q, t.b.reg h q = if q = f.ra ∧ q ≠ 0 then ea.2.getD (s.b.reg h q) else s.b.reg h q)
    (p = .local a → ∃ t, exec i s = .next t ∧ stored t (fun m => m.lmem) (lmemAddr (h / 8) a) ∧
      t.b.mem.spad = s.b.mem.spad ∧ t.b.mem.dram = s.b.mem.dram ∧ t.b.mem.imem = s.b.mem.imem ∧
      t.b.mem.bmem = s.b.mem.bmem) ∧
    (p = .scratch a → ∃ t, exec i s = .next t ∧ stored t (fun m => m.spad) (spadAddr (h / 64) a) ∧
      t.b.mem.lmem = s.b.mem.lmem ∧ t.b.mem.dram = s.b.mem.dram ∧ t.b.mem.imem = s.b.mem.imem ∧
      t.b.mem.bmem = s.b.mem.bmem) ∧
    -- a Bivouac core's own memory, apart from the first words of the transmit records (R397, R405)
    (p = .biv a → ¬ (0x7F8200 ≤ a ∧ a < 0x7F82C0 ∧ (a - 0x7F8200) % 16 < 4) →
      ∃ t, exec i s = .next t ∧ stored t (fun m => m.bmem) a ∧
        t.b.mem.lmem = s.b.mem.lmem ∧ t.b.mem.spad = s.b.mem.spad ∧ t.b.mem.dram = s.b.mem.dram ∧
        t.b.mem.imem = s.b.mem.imem) ∧
    (let done := fun (b1 : Body) => Host.Outcome.next (ρ := Refusal) (φ := Fault) { s with
       b := ((b1.writeBack h f ea.2).coreCommit s.tm h 1 (s.after h) (s.b.hart h).regs).settle s.tm }
     -- a first word, with what its record then does
     (p = .biv a → 0x7F8200 ≤ a → a < 0x7F82C0 → (a - 0x7F8200) % 16 < 4 →
       exec i s = done (({ s.issued h with mem.bmem := writeLE s.b.mem.bmem a n v } : Body).txRecordAct
         ((a - 0x7F8200) / 16))) ∧
     -- an address that nothing takes, and the DRAM window (Table 16.1)
     (p = .nothing → exec i s = done (s.issued h)) ∧
     (∀ d, p = .dram d → s.b.dramHeld d n = false →
       exec i s = done ((s.issued h).dramWrite 6 0 d (leBytes n v)))))

/-- SSTW and SSADD stage an entry of the address and rt, or set LF when 16 are staged; ATOM FADD, SWAP and CAS return
the old word and write the new one, and CAS sets Z. The model's choices in it, which no rule states: the cycles
charged, with those waited for results (assumption log 12). -/
def Obligations.StagedAndAtomicResults : Prop :=
  ∀ (s : State) (h : Nat), Issues s h →
    let x := s.b.hart h
    -- SSTW and SSADD (R190)
    (∀ (f : FmtM) (it : Item), indexReserved f = false → x.item = some it →
      let ea := x.ea f
      let a := ea.1.toNat
      a % 4 = 0 → s.b.place h a 4 false true = some (.scratch a) →
      (it.staged.length < 16 →
        exec (.sstw h f) s = .next (s.committed h (((s.issued h).modHart h (fun y =>
          { y with item := some { it with staged := it.staged ++ [.store a (s.b.reg h f.rt)] } })).writeBack h f ea.2)
            1 (s.after h)) ∧
        exec (.ssadd h f) s = .next (s.committed h (((s.issued h).modHart h (fun y =>
          { y with item := some { it with staged := it.staged ++ [.add a (s.b.reg h f.rt)] } })).writeBack h f ea.2)
            1 (s.after h))) ∧
      (16 ≤ it.staged.length → ∀ i, i = Instr.sstw h f ∨ i = Instr.ssadd h f →
        exec i s = .next (s.committed h (((s.issued h).modHart h (fun y =>
          { y with flags := { y.flags with lf := true } })).writeBack h f ea.2) 1 (s.after h)))) ∧
    -- ATOM (R194)
    (∀ f : FmtA, f.rsv = 0 →
      let a := (s.b.reg h f.ra).toNat
      let m := spadAddr (h / 64) a
      let old : Word := BitVec.ofNat 32 (readLE s.b.mem.spad m 4)
      let put := fun (w : Word) => { s.issued h with mem.spad := writeLE s.b.mem.spad m 4 w.toNat }
      s.Room h 8 → a % 4 = 0 → s.b.place h a 4 true true = some (.scratch a) →
      exec (.atomFadd h f) s =
        .next (s.committed h ((put (old + s.b.reg h f.rb)).setReg h f.rd old) 8 (s.after h)) ∧
      exec (.atomSwap h f) s =
        .next (s.committed h ((put (s.b.reg h f.rb)).setReg h f.rd old) 8 (s.after h)) ∧
      exec (.atomCas h f) s =
        .next (s.committed h (((put (if old = s.b.reg h f.rd then s.b.reg h f.rb else old)).modHart h (fun y =>
          { y with flags := { y.flags with z := decide (old = s.b.reg h f.rd) } })).setReg h f.rd old) 8 (s.after h)))

/-- CHR takes the next word of the endpoint and sets EOM at its end; CHW stages a word and with E = 1 sends the
message, which takes a commit-log entry or sets LF; WAIT gives the endpoints that hold a word; FRD, BRD, DRD, BATOM
and TREQ send their request (a DRD beyond the capacity is answered with zeros), and a fifth request of an endpoint
waits. The model's choices in it, which no rule states: the cycles charged (assumption log 12), when DRAM data moves
(15), WAIT on an unbound endpoint (30) and the port of a Bivouac DRD (81). -/
def Obligations.ChannelAndRequestResults : Prop :=
  (∀ (s : State) (h : Nat), Issues s h →
    let x := s.b.hart h
    -- CHR of a holding endpoint (R155, R196)
    (∀ (rd : BitVec 5) (ep : BitVec 4) (w : Word) (r : List Word) (l : List (List Word)),
      ep ∉ [0, 6, 7] → (8 ≤ ep.toNat → s.b.bound h ep.toNat = true) → x.unread ep.toNat = (w :: r) :: l →
      exec (.chr h ⟨rd, 0, 0, ep, 0, 0⟩) s = .next (s.committed h ((s.issued h).modHart h (fun y =>
        { y.setReg rd w with
          inbox := mapPut ep.toNat (if r = [] then l else r :: l) y.inbox
          flags := { y.flags with eom := decide (r = []) } })) 1 (s.after h))) ∧
    -- CHW (R155, R156, R196)
    (∀ (ra : BitVec 5) (ep : BitVec 4), 8 ≤ ep.toNat → s.b.bound h ep.toNat = true →
      let st := mapGet [] ep.toNat x.staging
      st.length < 8 →
      exec (.chw h ⟨0, ra, 0, ep, 0, 0⟩) s = .next (s.committed h ((s.issued h).modHart h (fun y =>
        { y with staging := mapPut ep.toNat (st ++ [s.b.reg h ra]) y.staging })) 1 (s.after h)) ∧
      exec (.chw h ⟨0, ra, 0, ep, 1, 0⟩) s = .next (s.committed h (((s.issued h).modHart h (fun y =>
        { y with staging := mapDel ep.toNat y.staging })).sendMessage h ep.toNat (st ++ [s.b.reg h ra])) 1 (s.after h))) ∧
    -- a committed message takes one commit-log entry, or sets LF (R156, R196)
    (∀ (b : Body) (ep : Nat) (ws : List Word) (it : Item),
      b.fget clsThread h (FThread.chanDelivery (ep - 8)) ≠ 1 → (b.hart h).item = some it →
      b.sendMessage h ep ws = b.modHart h (fun y =>
        if it.log.length < 32 then { y with item := some { it with log := it.log ++ [.chan ep
          (b.fget clsThread h (FThread.chanPeer (ep - 8))) (8 + b.fget clsThread h (FThread.chanPeerEp (ep - 8))) ws] } }
        else { y with flags := { y.flags with lf := true } })) ∧
    -- WAIT (R159, R197)
    (∀ (rd : BitVec 5) (m : BitVec 16), m.toNat % 2 = 0 → m.getLsbD 6 = false → m.getLsbD 7 = false →
      (∀ k, k < 8 → m.getLsbD (8 + k) = true → s.b.bound h (8 + k) = true) →
      (∃ e, e < 16 ∧ m.getLsbD e = true ∧ x.unread e ≠ []) →
      exec (.waitI h ⟨rd, 0, m⟩) s = .next (s.committed h ((s.issued h).setReg h rd (BitVec.ofNat 32
        (((List.range 16).map (fun e => if m.getLsbD e = true ∧ x.unread e ≠ [] then 2 ^ e else 0)).sum))) 1 (s.after h)))) ∧
  (∀ (s : State) (h : Nat), Issues s h →
    let x := s.b.hart h
    let k := s.b.stamp
    let asked := fun (ep : Nat) (r : ReqKind) =>
      { (s.issued h).modHart h (fun y => { y with reqs := y.reqs ++ [⟨ep, k, r, none⟩] }) with stamp := k + 1 }
    let done := fun (b : Body) => Host.Outcome.next (ρ := Refusal) (φ := Fault) (s.committed h b 1 (s.after h))
    -- FRD, BRD and DRD (R198)
    (∀ (ra rb : BitVec 5) (ep : BitVec 4), x.outstanding 3 < 4 → ep.toNat ≤ 7 →
      let a := (s.b.reg h ra).toNat
      let d := (s.b.reg h rb).toNat * 2 ^ 32 + a
      let n := 4 * (ep.toNat + 1)
      let port := if h < 1024 then 4 else 6
      let bytes := s.b.dramBytes d n
      -- its requests, one for each line, with the words as the latest earlier writes left them (R337)
      let sent := (asked 3 (.drd d n)).dramSend port (s.b.masterTent h) d n false (.thread h k) (atAddr d bytes)
      (s.b.regionGrants h 0 a n true false = true →
        exec (.frd h ⟨0, ra, 0, ep, 0, 0⟩) s = done (asked 3 (.frd a (ep.toNat + 1)))) ∧
      exec (.brd h ⟨0, ra, 0, 0, 0, 0⟩) s = done ((asked 3 (.brd a)).basinAsk h (s.b.masterTent h) a (.brd h k)) ∧
      (d % 4 = 0 → s.b.regionGrants h 1 d n true false = true →
        (d < s.b.dramCapacity → exec (.drd h ⟨0, ra, rb, ep, 0, 0⟩) s = done sent) ∧
        -- one beyond the capacity reaches no channel: its zeros are there at once (R336)
        (s.b.dramCapacity ≤ d → exec (.drd h ⟨0, ra, rb, ep, 0, 0⟩) s =
          done ((sent.dramDone port 0).modHart h (fun y => { y with
            reqs := y.reqs.map (fun q => if q.num = k then { q with reply := some (wordsOf bytes) } else q) }))))) ∧
    -- BATOM (R195)
    (∀ (f : FmtA), f.rsv = 0 → x.outstanding 3 < 4 →
      let a := (s.b.reg h f.ra).toNat
      let go := fun (m : Nat) => done ((asked 3 (.batom m (a % 4) (s.b.reg h f.rb) (s.b.reg h f.rd))).basinAsk h
        (s.b.masterTent h) (a / 4) (.batom h k m (a % 4) (s.b.reg h f.rb) (s.b.reg h f.rd)))
      exec (.batomFadd h f) s = go 0 ∧ exec (.batomSwap h f) s = go 1 ∧ exec (.batomCas h f) s = go 2) ∧
    -- TREQ (R198, R268)
    (∀ (ra : BitVec 5) (pl : Place) (at_ : Nat), x.outstanding 1 < 4 → pl = .local at_ ∨ pl = .biv at_ →
      let a := (s.b.reg h ra).toNat
      let block := (s.b.loadAt h pl 32).1
      a % 16 = 0 → s.b.place h a 32 true false = some pl →
      exec (.treq h ⟨0, ra, 0, 0, 0, 0⟩) s = done ((asked 1 (.treq (rqOp block))).treqAsk h k a
        (if h < 1024 then some (s.b.masterTent h) else none) block)) ∧
    -- a fifth request of an endpoint stalls (R153)
    (∀ (ra : BitVec 5) (ep : BitVec 4), 4 ≤ x.outstanding 3 → ep.toNat ≤ 7 →
      s.b.regionGrants h 0 (s.b.reg h ra).toNat (4 * (ep.toNat + 1)) true false = true →
      exec (.frd h ⟨0, ra, 0, ep, 0, 0⟩) s =
        .next { s with b := s.b.modHart h (fun y => { y with block := .reqFull 3 }) }))

/-- LKACQ and SEMP request with the priority of the item's queue; LKREL and SEMV release; LKRELC and SEMVC stage the
release; STG stages 16 bytes or sets LF; TFSET and TFCLR change flags of a queue of the tent; TARM and QARM arm or
disarm. The model's choices in it, which no rule states: the cycles charged (assumption log 12), the lock unit of the
next cycle (80) and a Bivouac core without an item (24). -/
def Obligations.LockAndStagingResults : Prop :=
  (∀ (s : State) (h : Nat) (ra : BitVec 5), Issues s h →
    let x := s.b.hart h
    let k := s.b.stamp
    let f : FmtE := ⟨0, ra, 0, 0, 0, 0⟩
    let nl := s.b.lockAbs false (s.b.masterTent h) (s.b.reg h ra).toNat
    let ns := s.b.lockAbs true (s.b.masterTent h) (s.b.reg h ra).toNat
    let prio := match x.item with
      | some it => s.b.fget clsQueue it.queue FQueue.priority
      | none => 0
    let asked := fun (r : ReqKind) =>
      { (s.issued h).modHart h (fun y => { y with reqs := y.reqs ++ [⟨2, k, r, none⟩] }) with stamp := k + 1 }
    let done := fun (b : Body) => Host.Outcome.next (ρ := Refusal) (φ := Fault) (s.committed h b 1 (s.after h))
    let c := (s.issued h).hartCycle s.tm h
    -- LKACQ and SEMP (R199, R353): 16 holdings at most, where one that the thread has already is no further one
    (x.outstanding 2 < 4 →
      (s.b.holdings h < 16 ∨ s.b.holdsEntry h false nl = true →
        exec (.lkacq h f) s = done ((asked (.lock nl)).requestLock s.tm c nl (.thread h) none prio)) ∧
      (s.b.holdings h < 16 ∨ s.b.holdsEntry h true ns = true →
        exec (.semp h f) s = done ((asked (.sem ns)).requestSem c ns (.thread h) none prio))) ∧
    -- LKREL and SEMV (R199, R357, R359)
    (exec (.lkrel h f) s = done ((s.issued h).releaseLock s.tm c nl (match x.item with
        | some it => [.thread h, .task it.queue]
        | none => [.thread h])).2 ∧
      exec (.semv h f) s = done ((s.issued h).releaseSem c ns (.thread h)).2) ∧
    -- LKRELC and SEMVC (R190, R199)
    (∀ it, x.item = some it →
      let stage := fun (e : Staged) => (s.issued h).modHart h (fun y =>
        if it.staged.length < 16 then { y with item := some { it with staged := it.staged ++ [e] } }
        else { y with flags := { y.flags with lf := true } })
      exec (.lkrelc h f) s = done (stage (.lockRel nl)) ∧ exec (.semvc h f) s = done (stage (.semRel ns)))) ∧
  (∀ (s : State) (h : Nat), Issues s h →
    let x := s.b.hart h
    let done := fun (b : Body) => Host.Outcome.next (ρ := Refusal) (φ := Fault) (s.committed h b 1 (s.after h))
    -- STG (R201)
    (∀ (ra : BitVec 5) (imm : BitVec 16) (it : Item), imm.toNat ≤ 4 → x.item = some it →
      let a := (s.b.reg h ra).toNat
      a % 16 = 0 → s.b.place h a 16 true false = some (.local a) →
      exec (.stg h ⟨0, ra, imm⟩) s = done ((s.issued h).modHart h (fun y =>
        if it.log.length < 32 then { y with item := some { it with
          log := it.log ++ [.stg imm.toNat (readLE s.b.mem.lmem (lmemAddr (h / 8) a) 16)] } }
        else { y with flags := { y.flags with lf := true } }))) ∧
    -- TFSET and TFCLR (R203)
    (∀ (ra : BitVec 5) (imm : BitVec 16),
      let q := (s.b.reg h ra).toNat
      q < 1048576 → queueTent s.b.sys.nLog.val q = s.b.masterTent h →
      (imm.toNat % 256 = 0 → exec (.tfset h ⟨0, ra, imm⟩) s = done ((s.issued h).setFlags q imm.toNat)) ∧
      (imm.toNat % 2 = 0 → exec (.tfclr h ⟨0, ra, imm⟩) s = done ((s.issued h).clearFlags q imm.toNat))) ∧
    -- TARM and QARM (R204)
    (∀ (ra rb : BitVec 5),
      let delay := s.b.reg h ra
      let at_ := (s.tm.now + delay.toNat * 2 ^ 16) % 2 ^ 64
      let q := (s.b.reg h rb).toNat
      exec (.tarm h ⟨0, ra, rb, 0, 0, 0⟩) s = done ((s.issued h).modHart h (fun y =>
        { y with timer := if delay = 0 then none else some (at_, s.b.reg h rb) })) ∧
      (q < 1048576 → queueTent s.b.sys.nLog.val q = s.b.masterTent h →
        exec (.qarm h ⟨0, ra, rb, 0, 0, 0⟩) s = done ((s.issued h).modHart h (fun y =>
          { y with taskTimer := if delay = 0 then none else some (at_, q) })))))

/-- NOP, MFF, MTF, RDT, RDTH, RDTICK, TRET, BREAK, COMMIT and DIVERT (which leave a handler); LSTAT, CLAIM, CPLT, ORD
and OWR on a Bivouac core, and the PRIVILEGE trap on a thread. The model's choices in it, which no rule states: the
wait of CLAIM for the cycle after a ring (assumption logs 1 and 113), the cycles charged (12) and COMMIT and DIVERT of
a Bivouac core (24). -/
def Obligations.SystemResults : Prop :=
  (∀ (s : State) (h : Nat), Issues s h →
    let x := s.b.hart h
    let e0 : FmtE := ⟨0, 0, 0, 0, 0, 0⟩
    let done := fun (b : Body) => Host.Outcome.next (ρ := Refusal) (φ := Fault) (s.committed h b 1 (s.after h))
    exec (.nop h e0) s = done (s.issued h) ∧
    (∀ rd : BitVec 5, exec (.mff h ⟨rd, 0, 0, 0, 0, 0⟩) s =
      done ((s.issued h).setReg h rd (BitVec.ofNat 32 x.flags.toNat))) ∧
    (∀ ra : BitVec 5, exec (.mtf h ⟨0, ra, 0, 0, 0, 0⟩) s =
      let a := s.b.reg h ra
      done ((s.issued h).modHart h (fun y => { y with flags :=
        ⟨a.getLsbD 0, a.getLsbD 1, a.getLsbD 2, a.getLsbD 3, a.getLsbD 4, a.getLsbD 5, a.getLsbD 6⟩ }))) ∧
    (∀ rd : BitVec 5, exec (.rdt h ⟨rd, 0, 0, 0, 0, 0⟩) s = done ((s.issued h).modHart h (fun y =>
      { y.setReg rd (BitVec.ofNat 32 s.tm.now) with rdt := some (s.tm.now / 2 ^ 32) }))) ∧
    (∀ rd : BitVec 5, exec (.rdth h ⟨rd, 0, 0, 0, 0, 0⟩) s =
      done ((s.issued h).setReg h rd (BitVec.ofNat 32 (x.rdt.getD (s.tm.now / 2 ^ 32))))) ∧
    (∀ rd : BitVec 5, exec (.rdtick h ⟨rd, 0, 0, 0, 0, 0⟩) s =
      done ((s.issued h).setReg h rd (BitVec.ofNat 32 s.tm.tickNumber))) ∧
    -- TRET outside a BUDGET_OVERRUN handler (R161)
    (∀ e : BitVec 1, x.inTrap = true → (∀ it, x.item = some it → it.overrun = false) →
      exec (.tret h ⟨0, 0, 0, 0, e, 0⟩) s = .next { s with
        b := (((s.issued h).modHart h (fun y => { y with inTrap := false })).coreCommit s.tm h 1
          (x.trapPc + 4 * e.toNat) x.regs).settle s.tm }) ∧
    -- BREAK (R168): a halt in Bench mode with BREAK_HALT = 1, else a trap
    (∀ rd ra rb : BitVec 5,
      (h < 1024 → s.b.inBench = true → s.b.fget clsDebug h FDebug.breakHalt = 1 →
        exec (.breakI h ⟨rd, ra, rb, 0, 0, 0⟩) s =
          .next { s with b := s.b.modHart h (fun y => { y with halted := true, stepping := false }) }) ∧
      (s.b.inBench = false →
        exec (.breakI h ⟨rd, ra, rb, 0, 0, 0⟩) s = .next { s with
          b := s.b.trapAt s.tm h (wordE 0x3F 4 ⟨rd, ra, rb, 0, 0, 0⟩) 0x08 0 })) ∧
    -- COMMIT and DIVERT on a Bivouac core, which holds no item: they leave its handler (R206)
    (1024 ≤ h →
      let b1 := (s.issued h).modHart h (fun y => { y with inTrap := false })
      let t : State := { s with b := (b1.coreCommit s.tm h 1 (s.after h) x.regs).settle s.tm }
      exec (.commitI h e0) s = .next t ∧ exec (.divert h e0) s = .next t) ∧
    -- and on a thread with no reply outstanding and no grant unread (R200, R205); in a BUDGET_OVERRUN handler, where TRET
    -- does the same, the thread only becomes free (R206)
    (∀ it, h < 1024 → s.Room h 0 → x.item = some it → x.reqs = [] → x.unread 2 = [] →
      let b1 := ((s.issued h).chargeCycles h 1).modHart h (fun y => { y with
        inbox := y.inbox.filter (fun e => !([1, 2, 3].contains e.1)), inTrap := false, staging := [], block := .none })
      let it1 := { it with cycles := it.cycles + 1 }
      (it.overrun = false →
        exec (.commitI h e0) s = .next { s with
          b := ((b1.requestCommit s.tm h it1).coreCommit s.tm h 0 (s.after h) x.regs).settle s.tm } ∧
        exec (.divert h e0) s = .next { s with
          b := ((b1.requestDivert s.tm h it1).coreCommit s.tm h 0 (s.after h) x.regs).settle s.tm }) ∧
      (it.overrun = true →
        let t : State := { s with b := ((b1.freeThread s.tm h).coreCommit s.tm h 0 (s.after h) x.regs).settle s.tm }
        exec (.commitI h e0) s = .next t ∧ exec (.divert h e0) s = .next t ∧
        (∀ e : BitVec 1, x.inTrap = true → exec (.tret h ⟨0, 0, 0, 0, e, 0⟩) s = .next t)))) ∧
  ((∀ (s : State) (h : Nat), 1024 ≤ h → Issues s h →
    let done := fun (b : Body) => Host.Outcome.next (ρ := Refusal) (φ := Fault) (s.committed h b 1 (s.after h))
    (∀ rd : BitVec 5, exec (.lstat h ⟨rd, 0, 0, 0, 0, 0⟩) s =
      done ((s.issued h).setReg h rd (BitVec.ofNat 32 (s.b.hart h).status))) ∧
    -- CLAIM, in a cycle after every ring so far (R369)
    (let d := (if s.b.sync.irqFrom ≤ s.tm.cycle then Dev.mk s.tm s.b else (Dev.mk s.tm s.b).waitCycle s.b.sync.irqFrom)
     let u : State := { s with tm := d.tm, b := d.b }
     Issues u h → ∀ rd : BitVec 5, exec (.claim h ⟨rd, 0, 0, 0, 0, 0⟩) s = .next (u.committed h
       ((((u.issued h).claim (h - 1024)).2).setReg h rd (BitVec.ofNat 32 ((u.issued h).claim (h - 1024)).1)) 1
         (u.after h))) ∧
    (∀ ra : BitVec 5, exec (.cplt h ⟨0, ra, 0, 0, 0, 0⟩) s =
      done ((s.issued h).complete (h - 1024) (s.b.reg h ra).toNat)) ∧
    (∀ rd ra rb : BitVec 5, exec (.ord h ⟨rd, ra, rb, 0, 0, 0⟩) s = .next { s with
      b := ((Dev.ordRead ⟨s.tm, s.issued h⟩ h ⟨rd, ra, rb, 0, 0, 0⟩).coreCommit s.tm h 1 (s.after h)
        (s.b.hart h).regs).settle s.tm }) ∧
    (∀ rd ra rb : BitVec 5, exec (.owr h ⟨rd, ra, rb, 0, 0, 0⟩) s = .next { s with
      tm := (Dev.owrWrite ⟨s.tm, s.b⟩ h ⟨rd, ra, rb, 0, 0, 0⟩).tm
      b := ((Dev.owrWrite ⟨s.tm, s.issued h⟩ h ⟨rd, ra, rb, 0, 0, 0⟩).b.coreCommit s.tm h 1 (s.after h)
        (s.b.hart h).regs).settle s.tm })) ∧
  -- on a data-plane thread the major traps with PRIVILEGE (R165, R175)
  (∀ (s : State) (h : Nat) (f : FmtE), h < 1024 → Starts s h →
    exec (.lstat h f) s = .next (s.trapped h (wordE 0x3E 2 f) 0x09 0) ∧
    exec (.claim h f) s = .next (s.trapped h (wordE 0x3E 3 f) 0x09 0) ∧
    exec (.cplt h f) s = .next (s.trapped h (wordE 0x3E 4 f) 0x09 0)))

/-- A trap of a thread outside a trap records pc, word, cause and address, sets IN_TRAP, goes on at TRAP_VECTOR,
counts, charges the item one cycle, and leaves registers, flags, endpoints, requests, other threads and memory
unchanged; one of a Bivouac core goes to TVEC, and in its handler resets the core. A nonzero reserved field traps with
RESERVED_FIELD and an undefined kind or condition with RESERVED_OPCODE, in the order of R175. A word of each format at
the PC is the instruction that it spells; a reserved major, an undefined minor and the words of all zeros and all ones
trap. The model's choices in it, which no rule states: the cycle charged for a trap (assumption log 12). -/
def Obligations.TrapEntry : Prop :=
  ((∀ (s : State) (h word cause addr : Nat), h < 1024 → (s.b.hart h).inTrap = false →
     let x := s.b.hart h
     let t := s.trapped h word cause addr
     let y := t.b.hart h
     t.pending = s.pending ∧ t.tm = s.tm ∧
     y.inTrap = true ∧ y.trapCause = cause ∧ y.trapPc = x.pc ∧ y.trapInsn = word ∧ y.trapAddr = addr % 2 ^ 32 ∧
     y.pc = s.b.fget clsCore (h / 8) FCore.trapVector ∧
     y.regs = x.regs ∧ y.flags = x.flags ∧ y.phase = x.phase ∧ y.inbox = x.inbox ∧ y.reqs = x.reqs ∧
     (∀ it, x.item = some it → it.overrun = false → y.item = some { it with cycles := it.cycles + 1 }) ∧
     -- TRAPS counts it, before what freed buffers and records then let happen
     (∃ b1 : Body, t.b = b1.settle s.tm ∧ b1.fget clsThread h FThread.traps = lowBits FThread.traps.width
       (addFree FThread.traps.width (s.b.fget clsThread h FThread.traps) 1)) ∧
     (∀ k, k ≠ h → t.b.hart k = s.b.hart k) ∧
     (∀ k, { t.b.core k with spent := (s.b.core k).spent } = s.b.core k) ∧ t.b.mem = s.b.mem) ∧
  -- a Bivouac core (R399)
  (∀ (s : State) (h word cause addr : Nat), 1024 ≤ h → h < 1028 →
    let x := s.b.hart h
    let t := s.trapped h word cause addr
    let y := t.b.hart h
    t.pending = s.pending ∧ t.tm = s.tm ∧
    (x.inTrap = false →
      y.inTrap = true ∧ y.trapCause = cause ∧ y.trapPc = x.pc ∧ y.trapInsn = word ∧ y.trapAddr = addr % 2 ^ 32 ∧
      y.block = .none ∧ y.pc = s.b.fget clsDevice (1 + (h - 1024)) FBiv.tvec ∧
      { y with
        inTrap := x.inTrap, trapCause := x.trapCause, trapPc := x.trapPc, trapInsn := x.trapInsn, trapAddr := x.trapAddr
        block := x.block, pc := x.pc } = x ∧
      (∀ k, k ≠ h → t.b.hart k = s.b.hart k) ∧ (∀ k, t.b.core k = s.b.core k) ∧ { t.b with isa := s.b.isa } = s.b) ∧
    -- a trap in a handler resets the core (R399, R401)
    (x.inTrap = true → y.pc = 0 ∧ y.inTrap = false ∧ (∀ q, t.b.reg h q = 0) ∧
      t.b.fget clsDevice (1 + (h - 1024)) FBiv.ie = 0))) ∧
  (∀ (s : State) (h : Nat), Starts s h →
    -- format A: bits 3:0 are reserved, and rb where the row names one operand
    (∀ f : FmtA, f.rsv ≠ 0 →
      let t := fun (major minor : Nat) => Host.Outcome.next (ρ := Refusal) (φ := Fault)
        (s.trapped h (wordA major minor f) 0x02 0)
      exec (.add h f) s = t 0 0x01 ∧ exec (.sub h f) s = t 0 0x02 ∧ exec (.andI h f) s = t 0 0x08 ∧
      exec (.orI h f) s = t 0 0x09 ∧ exec (.xorI h f) s = t 0 0x0A ∧ exec (.shl h f) s = t 0 0x10 ∧
      exec (.mul h f) s = t 0 0x18 ∧ exec (.divI h f) s = t 0 0x1C ∧ exec (.min h f) s = t 0 0x20 ∧
      exec (.atomFadd h f) s = t 0x22 0 ∧ exec (.batomFadd h f) s = t 0x23 0) ∧
    (∀ f : FmtA, f.rb ≠ 0 →
      let t := fun (minor : Nat) => Host.Outcome.next (ρ := Refusal) (φ := Fault) (s.trapped h (wordA 0 minor f) 0x02 0)
      exec (.neg h f) s = t 0x05 ∧ exec (.clz h f) s = t 0x28 ∧ exec (.popc h f) s = t 0x29 ∧
      exec (.bswap h f) s = t 0x2A) ∧
    -- format B: an undefined kind comes before a reserved field
    (∀ f : FmtB,
      let t := fun (major cause : Nat) => Host.Outcome.next (ρ := Refusal) (φ := Fault)
        (s.trapped h (wordB major f) cause 0)
      (f.ra ≠ 0 → exec (.lui h f) s = t 0x06 0x02) ∧
      (5 ≤ bitsAt f.imm.toNat 8 3 → exec (.shi h f) s = t 0x07 0x01) ∧
      (bitsAt f.imm.toNat 8 3 ≤ 4 → bitsAt f.imm.toNat 11 5 ≠ 0 → exec (.shi h f) s = t 0x07 0x02) ∧
      (bitsAt f.imm.toNat 14 2 = 3 → exec (.bfx h f) s = t 0x08 0x01) ∧
      (bitsAt f.imm.toNat 14 2 ≠ 3 → bitsAt f.imm.toNat 10 4 ≠ 0 → exec (.bfx h f) s = t 0x08 0x02)) ∧
    -- BCC with an undefined condition
    (∀ f : FmtC, 19 ≤ f.cond.toNat → exec (.bcc h f) s = .next (s.trapped h (wordC 0x10 f) 0x01 0)) ∧
    -- format M with SCALE 5 to 7
    (∀ f : FmtM, f.am = 3 → 5 ≤ bitsAt f.low.toNat 6 3 →
      let t := fun (major : Nat) => Host.Outcome.next (ρ := Refusal) (φ := Fault) (s.trapped h (wordM major f) 0x02 0)
      exec (.ldb h f) s = t 0x18 ∧ exec (.ldbu h f) s = t 0x19 ∧ exec (.ldh h f) s = t 0x1A ∧
      exec (.ldhu h f) s = t 0x1B ∧ exec (.ldw h f) s = t 0x1C ∧ exec (.sstw h f) s = t 0x20 ∧
      exec (.ssadd h f) s = t 0x21)) ∧
  (-- a word of each format spells the instruction of its fields (Table 7.1)
  (∀ (h : Nat) (f : FmtA),
    decodeMajor h (wordA 0 0x01 f) = some (execAdd h f) ∧ decodeMajor h (wordA 0 0x1C f) = some (execDiv h f) ∧
    decodeMajor h (wordA 0x22 1 f) = some (execAtomSwap h f) ∧ decodeMajor h (wordA 0x23 2 f) = some (execBatomCas h f)) ∧
  (∀ (h : Nat) (f : FmtB),
    decodeMajor h (wordB 0x06 f) = some (execLui h f) ∧ decodeMajor h (wordB 0x11 f) = some (execJr h f) ∧
    decodeMajor h (wordB 0x25 f) = some (execWait h f) ∧ decodeMajor h (wordB 0x28 f) = some (execStg h f)) ∧
  (∀ (h : Nat) (f : FmtC), decodeMajor h (wordC 0x10 f) = some (execBcc h f)) ∧
  (∀ (h : Nat) (f : FmtD),
    decodeMajor h (wordD 0x12 f) = some (execCall h f) ∧ decodeMajor h (wordD 0x14 f) = some (execRet h f)) ∧
  (∀ (h : Nat) (f : FmtE),
    decodeMajor h (wordE 0x24 1 f) = some (execChw h f) ∧ decodeMajor h (wordE 0x26 2 f) = some (execDrd h f) ∧
    decodeMajor h (wordE 0x27 5 f) = some (execSemvc h f) ∧ decodeMajor h (wordE 0x2B 1 f) = some (execQarm h f) ∧
    decodeMajor h (wordE 0x33 1 f) = some (execRmac h f) ∧ decodeMajor h (wordE 0x3E 3 f) = some (execClaim h f) ∧
    decodeMajor h (wordE 0x3F 3 f) = some (execTret h f)) ∧
  (∀ (h : Nat) (f : FmtM),
    decodeMajor h (wordM 0x1C f) = some (execLdw h f) ∧ decodeMajor h (wordM 0x21 f) = some (execSsadd h f)) ∧
  -- the word at the PC of a hart that may issue: the instruction that it spells (R173, R398)
  (∀ (s : State) (h : Nat) (m : State → Host.Outcome State Fault Refusal),
    decodeMajor h (s.b.wordAt h) = some m → issueAt h s = m s) ∧
  -- or a trap: of a reserved major, an undefined minor, the all-zero word or the all-ones word with RESERVED_OPCODE, of
  -- the PRIV major in a data-plane thread with PRIVILEGE
  (∀ (s : State) (h w : Nat), Starts s h → s.b.wordAt h = w → w < 2 ^ 32 →
    let k := w / 2 ^ 26
    let n := w / 2 ^ 7 % 16
    let traps := fun (cause : Nat) => issueAt h s = .next { s with b := (s.b.trapAt s.tm h w cause 0).settle s.tm }
    ((0x09 ≤ k ∧ k ≤ 0x0F) ∨ (0x15 ≤ k ∧ k ≤ 0x17) ∨ (0x2C ≤ k ∧ k ≤ 0x2F) ∨ (0x38 ≤ k ∧ k ≤ 0x3D) ∨
      (k = 0x3F ∧ 10 ≤ n) ∨ (k = 0x26 ∧ 4 ≤ n) ∨ (k = 0x27 ∧ 6 ≤ n) ∨ (k = 0x3E ∧ 5 ≤ n ∧ 1024 ≤ h) ∨
      w = 0 ∨ w = 2 ^ 32 - 1 → traps 0x01) ∧
    (k = 0x3E → 5 ≤ n → h < 1024 → traps 0x09)))

/-- RBIND gives the context held, binds a free one or waits; RFREE frees; RFENCE only goes on; RMFC and RMTC read and
write RSTAT, the sticky lanes and the predicates; RSAVE and RRESTORE move the 2,432-byte image. The model's choices in
it, which no rule states: the cycles charged (assumption log 12) and the RBIND that waits (93). -/
def Obligations.RunnelContextResults : Prop :=
  ∀ (s : State) (h : Nat), Issues s h → h < 1024 →
    let c := s.b.core (h / 8)
    -- RBIND
    (∀ rd : BitVec 5,
      let i : Instr := .rbind h ⟨rd, 0, 0, 0, 0, 0⟩
      (∀ x, s.b.contextOf h = some x → exec i s = .next (s.wrote h rd (BitVec.ofNat 32 x))) ∧
      (s.b.contextOf h = none → c.ctx0.owner = none →
        exec i s = .next (s.committed h (((s.issued h).bindContext h 0).setReg h rd 0) 1 (s.after h))) ∧
      (s.b.contextOf h = none → c.ctx0.owner ≠ none → c.ctx1.owner = none →
        exec i s = .next (s.committed h (((s.issued h).bindContext h 1).setReg h rd 1) 1 (s.after h))) ∧
      (s.b.contextOf h = none → c.ctx0.owner ≠ none → c.ctx1.owner ≠ none →
        exec i s = .next { s with b := s.b.modHart h (fun y => { y with block := .rbind (s.b.cycleOf h) }) })) ∧
    -- RFREE
    (s.b.contextOf h = none → exec (.rfree h ⟨0, 0, 0, 0, 0, 0⟩) s = .next (s.committed h (s.issued h) 1 (s.after h))) ∧
    (∀ x, s.b.contextOf h = some x →
      exec (.rfree h ⟨0, 0, 0, 0, 0, 0⟩) s = .next (s.committed h ((s.issued h).freeContexts h) 1 (s.after h)) ∧
      (let v := s.b.ctx h x
       -- RFENCE
       exec (.rfence h ⟨0, 0, 0, 0, 0, 0⟩) s = .next (s.runnel h x v) ∧
       -- RMFC
       (∀ rd : BitVec 5,
         let get := fun (k : BitVec 5) (w : Nat) =>
           exec (.rmfc h ⟨rd, 0, k, 0, 0, 0⟩) s = .next (s.wrote h rd (BitVec.ofNat 32 w))
         get 0 (v.rmode % 4 + (if v.satLanes ≠ 0 then 4 else 0) + (if v.dzLanes ≠ 0 then 8 else 0) +
           (if v.wsat then 16 else 0) + 32 * x) ∧
         get 1 v.satLanes ∧ get 2 v.dzLanes ∧ get 3 (v.pred 0) ∧ get 4 (v.pred 1) ∧ get 5 (v.pred 2) ∧
         get 6 (v.pred 3)) ∧
       -- RMTC
       (∀ ra : BitVec 5,
         let w := (s.b.reg h ra).toNat
         let put := fun (k : BitVec 5) (u : RCtx) => exec (.rmtc h ⟨0, ra, k, 0, 0, 0⟩) s = .next (s.runnel h x u)
         put 0 { v with rmode := w % 4, wsat := v.wsat && !w.testBit 4 } ∧
         put 1 { v with satLanes := w } ∧ put 2 { v with dzLanes := w } ∧ put 3 (v.setPred 0 w) ∧
         put 4 (v.setPred 1 w) ∧ put 5 (v.setPred 2 w) ∧ put 6 (v.setPred 3 w)) ∧
       -- RSAVE and RRESTORE
       (∀ ra : BitVec 5,
         let a := (s.b.reg h ra).toNat
         a % 64 = 0 → a + 2432 ≤ 0x1E000 → s.Room h 152 →
         (s.b.place h a 2432 false true = some (.local a) →
           exec (.rsave h ⟨0, ra, 0, 0, 0, 0⟩) s = .next (s.committed h { s.issued h with
             mem.lmem := writeBytes s.b.mem.lmem (lmemAddr (h / 8) a) (v.image x) } 152 (s.after h))) ∧
         (s.b.place h a 2432 true false = some (.local a) →
           exec (.rrestore h ⟨0, ra, 0, 0, 0, 0⟩) s = .next (s.committed h ((s.issued h).setCtx h x
             (v.ofImage (readBytes s.b.mem.lmem (lmemAddr (h / 8) a) 2432))) 152 (s.after h))))))

/-- The image is 2,432 bytes long, and a context that takes it has every sample register, accumulator, predicate, the
rounding mode, WSAT and the sticky lanes of the one that gave it. -/
def Obligations.ContextImageRoundTrip : Prop :=
  ∀ (v w : RCtx) (c : Nat), v.satLanes < 2 ^ 32 → v.dzLanes < 2 ^ 32 → v.rmode < 4 →
    (v.image c).length = 2432 ∧
    (let r := w.ofImage (v.image c)
     (∀ k, k < 32 → r.sreg k = v.sreg k) ∧ (∀ k, k < 8 → r.acc k = v.acc k) ∧ (∀ k, k < 4 → r.pred k = v.pred k) ∧
     r.rmode = v.rmode ∧ r.wsat = v.wsat ∧ r.satLanes = v.satLanes ∧ r.dzLanes = v.dzLanes)

/-- A write of samples, accumulators or predicates changes the selected lanes of its register and only them, ORs
saturation and division bits in for selected lanes, and changes nothing else of the context. A rounding shift rounds
down, half up, half to even or towards zero by RMODE. -/
def Obligations.SelectedLanesWritten : Prop :=
  (∀ (v : RCtx) (k p : Nat),
    let sel := fun n => v.selects p n
    -- sample registers
    (∀ g : Nat → LaneOut,
      let w := v.writeSamples k p g
      (∀ n, n < 32 → laneOf 10 (w.sreg k) n = if sel n then (g n).val % 1024 else laneOf 10 (v.sreg k) n) ∧
      (∀ j, j ≠ k → w.sreg j = v.sreg j) ∧
      (∀ n, w.satLanes.testBit n = (v.satLanes.testBit n || (decide (n < 32) && sel n && (g n).sat))) ∧
      (∀ n, w.dzLanes.testBit n = (v.dzLanes.testBit n || (decide (n < 32) && sel n && (g n).dz))) ∧
      w.accs = v.accs ∧ w.preds = v.preds ∧ w.rmode = v.rmode ∧ w.wsat = v.wsat ∧ w.owner = v.owner) ∧
    -- accumulators
    (∀ g : Nat → LaneOut,
      let w := v.writeAccs k p g
      (∀ n, n < 32 → laneOf 32 (w.acc k) n = if sel n then (g n).val % 2 ^ 32 else laneOf 32 (v.acc k) n) ∧
      (∀ j, j ≠ k → w.acc j = v.acc j) ∧
      (∀ n, w.satLanes.testBit n = (v.satLanes.testBit n || (decide (n < 32) && sel n && (g n).sat))) ∧
      (∀ n, w.dzLanes.testBit n = (v.dzLanes.testBit n || (decide (n < 32) && sel n && (g n).dz))) ∧
      w.sregs = v.sregs ∧ w.preds = v.preds ∧ w.rmode = v.rmode ∧ w.wsat = v.wsat ∧ w.owner = v.owner) ∧
    -- predicates
    (∀ g : Nat → Bool,
      let w := v.writePreds k p g
      (∀ n, n < 32 → (w.pred k).testBit n = if sel n then g n else (v.pred k).testBit n) ∧
      (∀ j, j ≠ k → w.pred j = v.pred j) ∧
      w.sregs = v.sregs ∧ w.accs = v.accs ∧ w.satLanes = v.satLanes ∧ w.dzLanes = v.dzLanes ∧ w.rmode = v.rmode ∧
      w.wsat = v.wsat ∧ w.owner = v.owner)) ∧
  (∀ (x : Int) (k : Nat),
    roundShift 0 x k = x.fdiv (2 ^ k) ∧
    roundShift 1 x k = (2 * x + 2 ^ k).fdiv (2 * 2 ^ k) ∧
    roundShift 3 x k = x.tdiv (2 ^ k) ∧
    (let r := roundShift 2 x k
     2 * (x - r * 2 ^ k) ≤ 2 ^ k ∧ -(2 ^ k) ≤ 2 * (x - r * 2 ^ k) ∧
       (0 < k → (2 * (x - r * 2 ^ k) = 2 ^ k ∨ 2 * (x - r * 2 ^ k) = -(2 ^ k)) → r % 2 = 0)))

/-- Each operation of Table 8.8 writes its lane results, saturated in the format that E names, to the selected lanes.
The model's choices in it, which no rule states: the cycles charged and that a result is in State at core commit
(assumption logs 12 and 14). -/
def Obligations.LaneOperationResults : Prop :=
  ∀ (s : State) (h x : Nat) (rd ra rb : BitVec 5) (p : BitVec 4), HoldsContext s h x → selectAllowed p →
    let v := s.b.ctx h x
    let a := fun n => laneOf 10 (v.sreg ra.toNat) n
    let b := fun n => laneOf 10 (v.sreg rb.toNat) n
    let k := (s.b.reg h rb).toNat % 256
    let done := fun (g : Nat → LaneOut) => Host.Outcome.next (ρ := Refusal) (φ := Fault)
      (s.runnel h x (v.writeSamples rd.toNat p.toNat g))
    -- the operations on numbers: E = 0 reads S10, E = 1 reads U10
    (∀ u : Bool,
      let e : BitVec 1 := if u then 1 else 0
      let lo : Int := if u then 0 else -512
      let hi : Int := if u then 1023 else 511
      let num : Nat → Int := fun c => if u || decide (c < 512) then c else c - 1024
      let fit : Int → LaneOut := fun r =>
        ⟨((if r < lo then lo else if hi < r then hi else r) % 1024).toNat, decide (r < lo ∨ hi < r), false⟩
      exec (.radd h ⟨rd, ra, rb, p, e, 0⟩) s = done (fun n => fit (num (a n) + num (b n))) ∧
      exec (.rsub h ⟨rd, ra, rb, p, e, 0⟩) s = done (fun n => fit (num (a n) - num (b n))) ∧
      (rb = 0 → exec (.rneg h ⟨rd, ra, rb, p, e, 0⟩) s = done (fun n => fit (-num (a n)))) ∧
      (rb = 0 → exec (.rabs h ⟨rd, ra, rb, p, e, 0⟩) s = done (fun n => fit (num (a n)).natAbs)) ∧
      exec (.rmin h ⟨rd, ra, rb, p, e, 0⟩) s = done (fun n => fit (min (num (a n)) (num (b n)))) ∧
      exec (.rmax h ⟨rd, ra, rb, p, e, 0⟩) s = done (fun n => fit (max (num (a n)) (num (b n)))) ∧
      exec (.rmulf h ⟨rd, ra, rb, p, e, 0⟩) s =
        done (fun n => fit (roundShift v.rmode (num (a n) * num (b n)) 9)) ∧
      exec (.rdiv h ⟨rd, ra, rb, p, e, 0⟩) s = done (fun n =>
        if b n = 0 then ⟨(if 0 < num (a n) then hi else if num (a n) < 0 then lo + 1024 else 0).toNat, false, true⟩
        else fit ((num (a n)).tdiv (num (b n))))) ∧
    -- the operations on raw codes
    exec (.rshl h ⟨rd, ra, rb, p, 0, 0⟩) s = done (fun n => ⟨if 10 ≤ k then 0 else a n * 2 ^ k % 1024, false, false⟩) ∧
    exec (.rshr h ⟨rd, ra, rb, p, 0, 0⟩) s = done (fun n => ⟨if 10 ≤ k then 0 else a n / 2 ^ k, false, false⟩) ∧
    exec (.rsar h ⟨rd, ra, rb, p, 0, 0⟩) s = done (fun n =>
      ⟨if 10 ≤ k then (if (a n).testBit 9 then 1023 else 0)
        else a n / 2 ^ k + (if (a n).testBit 9 then 1024 - 2 ^ (10 - k) else 0), false, false⟩) ∧
    exec (.rand h ⟨rd, ra, rb, p, 0, 0⟩) s = done (fun n => ⟨a n &&& b n, false, false⟩) ∧
    exec (.rlaneRor h ⟨rd, ra, rb, p, 0, 0⟩) s = done (fun n => ⟨a n ||| b n, false, false⟩) ∧
    exec (.rxor h ⟨rd, ra, rb, p, 0, 0⟩) s = done (fun n => ⟨a n ^^^ b n, false, false⟩) ∧
    (rb = 0 → exec (.rsmov h ⟨rd, ra, rb, p, 0, 0⟩) s = done (fun n => ⟨a n, false, false⟩)) ∧
    exec (.rsel h ⟨rd, ra, rb, p, 0, 0⟩) s = .next (s.runnel h x (v.writeSamples rd.toNat 0
      (fun n => ⟨if v.selects p.toNat n then a n else b n, false, false⟩)))

/-- For every operation of Table 8.9: bit n of pd takes the result for each selected lane n, the other bits of pd, the
other predicates and the rest of the context are unchanged; the compares read the format that E names, and E = 1 in a
row where it is reserved traps with RESERVED_FIELD. The model's choices in it, which no rule states: the cycles
charged, with those waited for results (assumption log 12). -/
def Obligations.PredicateResults : Prop :=
  ∀ (s : State) (h x : Nat) (rd ra rb : BitVec 5) (p : BitVec 4), HoldsContext s h x → selectAllowed p →
    rd.toNat < 4 →
    let v := s.b.ctx h x
    let a := fun n => laneOf 10 (v.sreg ra.toNat) n
    let b := fun n => laneOf 10 (v.sreg rb.toNat) n
    let pa := fun n => (v.pred ra.toNat).testBit n
    let pb := fun n => (v.pred rb.toNat).testBit n
    -- bit `n` of pd takes `g n` in the selected lanes; nothing else of the context changes
    let done := fun (i : Instr) (g : Nat → Bool) => ∃ w : RCtx, exec i s = .next (s.runnel h x w) ∧
      (∀ n, n < 32 → (w.pred rd.toNat).testBit n =
        if v.selects p.toNat n then g n else (v.pred rd.toNat).testBit n) ∧
      (∀ k, k ≠ rd.toNat → w.pred k = v.pred k) ∧ { w with preds := v.preds } = v
    let fails := fun (i : Instr) (minor : Nat) =>
      exec i s = .next (s.trapped h (wordE 0x32 minor ⟨rd, ra, rb, p, 1, 0⟩) 0x02 0)
    done (.ceq h ⟨rd, ra, rb, p, 0, 0⟩) (fun n => decide (a n = b n)) ∧
    done (.cne h ⟨rd, ra, rb, p, 0, 0⟩) (fun n => decide (a n ≠ b n)) ∧
    (∀ u : Bool,
      let e : BitVec 1 := if u then 1 else 0
      let num : Nat → Int := fun c => if u || decide (c < 512) then c else c - 1024
      done (.clt h ⟨rd, ra, rb, p, e, 0⟩) (fun n => decide (num (a n) < num (b n))) ∧
      done (.cle h ⟨rd, ra, rb, p, e, 0⟩) (fun n => decide (num (a n) ≤ num (b n))) ∧
      done (.cgt h ⟨rd, ra, rb, p, e, 0⟩) (fun n => decide (num (a n) > num (b n))) ∧
      done (.cge h ⟨rd, ra, rb, p, e, 0⟩) (fun n => decide (num (a n) ≥ num (b n)))) ∧
    (ra.toNat < 4 → rb.toNat < 4 →
      done (.pand h ⟨rd, ra, rb, p, 0, 0⟩) (fun n => pa n && pb n) ∧
      done (.por h ⟨rd, ra, rb, p, 0, 0⟩) (fun n => pa n || pb n) ∧
      done (.pxor h ⟨rd, ra, rb, p, 0, 0⟩) (fun n => Bool.xor (pa n) (pb n))) ∧
    (ra.toNat < 4 → rb = 0 → done (.pnot h ⟨rd, ra, rb, p, 0, 0⟩) (fun n => !pa n)) ∧
    -- the rows in which E must be 0
    fails (.ceq h ⟨rd, ra, rb, p, 1, 0⟩) 0 ∧ fails (.cne h ⟨rd, ra, rb, p, 1, 0⟩) 1 ∧
    fails (.pand h ⟨rd, ra, rb, p, 1, 0⟩) 6 ∧ fails (.por h ⟨rd, ra, rb, p, 1, 0⟩) 7 ∧
    fails (.pxor h ⟨rd, ra, rb, p, 1, 0⟩) 8 ∧ fails (.pnot h ⟨rd, ra, rb, p, 1, 0⟩) 9

/-- Each operation of Table 8.10 writes its lane results, saturated to 32 bits where it is arithmetic, to the selected
lanes of the accumulator. The model's choices in it, which no rule states: the cycles charged and that a result is in
State at core commit (assumption logs 12 and 14). -/
def Obligations.AccumulatorResults : Prop :=
  ∀ (s : State) (h x : Nat) (rd ra rb : BitVec 5) (p : BitVec 4), HoldsContext s h x → selectAllowed p → rd.toNat < 8 →
    let v := s.b.ctx h x
    let a := fun n => laneOf 10 (v.sreg ra.toNat) n
    let b := fun n => laneOf 10 (v.sreg rb.toNat) n
    let acc : Nat → Nat → Int := fun r n =>
      let c := laneOf 32 (v.acc r) n
      if c < 2 ^ 31 then c else c - 2 ^ 32
    let k := (s.b.reg h rb).toNat % 256
    let done := fun (g : Nat → LaneOut) => Host.Outcome.next (ρ := Refusal) (φ := Fault)
      (s.runnel h x (v.writeAccs rd.toNat p.toNat g))
    let fit : Int → LaneOut := fun r =>
      ⟨((if r < -2 ^ 31 then -2 ^ 31 else if 2 ^ 31 - 1 < r then 2 ^ 31 - 1 else r) % 2 ^ 32).toNat,
        decide (r < -2 ^ 31 ∨ 2 ^ 31 - 1 < r), false⟩
    (∀ u : Bool,
      let e : BitVec 1 := if u then 1 else 0
      let num : Nat → Int := fun c => if u || decide (c < 512) then c else c - 1024
      exec (.rmul h ⟨rd, ra, rb, p, e, 0⟩) s = done (fun n => fit (num (a n) * num (b n))) ∧
      exec (.rmac h ⟨rd, ra, rb, p, e, 0⟩) s = done (fun n => fit (acc rd.toNat n + num (a n) * num (b n))) ∧
      exec (.rmsu h ⟨rd, ra, rb, p, e, 0⟩) s = done (fun n => fit (acc rd.toNat n - num (a n) * num (b n))) ∧
      (rb = 0 → exec (.racc h ⟨rd, ra, rb, p, e, 0⟩) s = done (fun n => fit (acc rd.toNat n + num (a n) * 2 ^ 9)))) ∧
    (let s10 : Nat → Int := fun c => if c < 512 then c else c - 1024
     exec (.rmulus h ⟨rd, ra, rb, p, 0, 0⟩) s = done (fun n => fit ((a n : Int) * s10 (b n))) ∧
     exec (.rmacus h ⟨rd, ra, rb, p, 0, 0⟩) s = done (fun n => fit (acc rd.toNat n + (a n : Int) * s10 (b n)))) ∧
    (ra = 0 → rb = 0 → exec (.raclr h ⟨rd, ra, rb, p, 0, 0⟩) s = done (fun _ => ⟨0, false, false⟩)) ∧
    (rb = 0 → exec (.raset h ⟨rd, ra, rb, p, 0, 0⟩) s = done (fun _ => ⟨(s.b.reg h ra).toNat, false, false⟩)) ∧
    (ra.toNat < 8 → rb.toNat < 8 →
      exec (.raadd h ⟨rd, ra, rb, p, 0, 0⟩) s = done (fun n => fit (acc ra.toNat n + acc rb.toNat n)) ∧
      exec (.rasub h ⟨rd, ra, rb, p, 0, 0⟩) s = done (fun n => fit (acc ra.toNat n - acc rb.toNat n))) ∧
    (ra.toNat < 8 →
      let c := fun n => laneOf 32 (v.acc ra.toNat) n
      (rb = 0 → exec (.ramov h ⟨rd, ra, rb, p, 0, 0⟩) s = done (fun n => ⟨c n, false, false⟩)) ∧
      exec (.rashl h ⟨rd, ra, rb, p, 0, 0⟩) s =
        done (fun n => ⟨if 32 ≤ k then 0 else c n * 2 ^ k % 2 ^ 32, false, false⟩) ∧
      exec (.rashr h ⟨rd, ra, rb, p, 0, 0⟩) s = done (fun n => ⟨if 32 ≤ k then 0 else c n / 2 ^ k, false, false⟩) ∧
      exec (.rasar h ⟨rd, ra, rb, p, 0, 0⟩) s = done (fun n =>
        ⟨if 32 ≤ k then (if (c n).testBit 31 then 2 ^ 32 - 1 else 0)
          else c n / 2 ^ k + (if (c n).testBit 31 then 2 ^ 32 - 2 ^ (32 - k) else 0), false, false⟩))

/-- RNRW, RBCAST, RINS, RAINS, REXT, RAEXT, RSUM and RPCNT as Table 8.11 gives them; RLD fills the selected lanes from
the block and RST writes the bytes of the selected lanes and no other byte of local memory, with the increment of ra
where E = 1. The model's choices in it, which no rule states: the cycles charged and that a result is in State at core
commit (assumption logs 12 and 14). -/
def Obligations.TransferResults : Prop :=
  (∀ (s : State) (h x : Nat) (rd ra rb : BitVec 5) (p : BitVec 4), HoldsContext s h x → selectAllowed p →
    let v := s.b.ctx h x
    let acc : Nat → Int := fun n =>
      let c := laneOf 32 (v.acc ra.toNat) n
      if c < 2 ^ 31 then c else c - 2 ^ 32
    let wa := (s.b.reg h ra).toNat
    let i := (s.b.reg h rb).toNat % 32
    let done := fun (g : Nat → LaneOut) => Host.Outcome.next (ρ := Refusal) (φ := Fault)
      (s.runnel h x (v.writeSamples rd.toNat p.toNat g))
    let word := fun (w : Word) => Host.Outcome.next (ρ := Refusal) (φ := Fault) (s.wrote h rd w)
    -- RNRW
    (∀ u : Bool, ra.toNat < 8 →
      let lo : Int := if u then 0 else -512
      let hi : Int := if u then 1023 else 511
      let fit : Int → LaneOut := fun r =>
        ⟨((if r < lo then lo else if hi < r then hi else r) % 1024).toNat, decide (r < lo ∨ hi < r), false⟩
      exec (.rnrw h ⟨rd, ra, rb, p, if u then 1 else 0, 0⟩) s =
        done (fun n => fit (roundShift v.rmode (acc n) rb.toNat))) ∧
    (rb = 0 → exec (.rbcast h ⟨rd, ra, rb, p, 0, 0⟩) s = done (fun _ => ⟨wa % 1024, false, false⟩)) ∧
    -- one lane in and out
    (∃ w, exec (.rins h ⟨rd, ra, rb, 0, 0, 0⟩) s = .next (s.runnel h x w) ∧
      (∀ n, n < 32 → laneOf 10 (w.sreg rd.toNat) n = if n = i then wa % 1024 else laneOf 10 (v.sreg rd.toNat) n) ∧
      (∀ j, j ≠ rd.toNat → w.sreg j = v.sreg j) ∧ { w with sregs := v.sregs } = v) ∧
    (rd.toNat < 8 → ∃ w, exec (.rains h ⟨rd, ra, rb, 0, 0, 0⟩) s = .next (s.runnel h x w) ∧
      (∀ n, n < 32 → laneOf 32 (w.acc rd.toNat) n = if n = i then wa else laneOf 32 (v.acc rd.toNat) n) ∧
      (∀ j, j ≠ rd.toNat → w.acc j = v.acc j) ∧ { w with accs := v.accs } = v) ∧
    (let c := BitVec.ofNat 10 (laneOf 10 (v.sreg ra.toNat) i)
     exec (.rext h ⟨rd, ra, rb, 0, 0, 0⟩) s = word (c.signExtend 32) ∧
     exec (.rext h ⟨rd, ra, rb, 0, 1, 0⟩) s = word (c.zeroExtend 32)) ∧
    (ra.toNat < 8 →
      exec (.raext h ⟨rd, ra, rb, 0, 0, 0⟩) s = word (BitVec.ofNat 32 (laneOf 32 (v.acc ra.toNat) i))) ∧
    -- RSUM and RPCNT
    (ra.toNat < 8 →
      let t : Int := ((List.range 32).map (fun n => if v.selects p.toNat n then acc n else 0)).sum
      let r : Int := if t < -2 ^ 31 then -2 ^ 31 else if 2 ^ 31 - 1 < t then 2 ^ 31 - 1 else t
      exec (.rsum h ⟨rd, ra, 0, p, 0, 0⟩) s = .next (s.committed h (((s.issued h).setCtx h x { v with
        wsat := v.wsat || decide (r ≠ t) }).setReg h rd (BitVec.ofInt 32 r)) 1 (s.after h))) ∧
    (ra.toNat < 4 → exec (.rpcnt h ⟨rd, ra, 0, p, 0, 0⟩) s = word (BitVec.ofNat 32
      ((List.range 32).countP (fun n => v.selects p.toNat n && (v.pred ra.toNat).testBit n))))) ∧
  (∀ (s : State) (h x : Nat) (rd ra : BitVec 5) (p : BitVec 4) (m : BitVec 4) (e : BitVec 1), HoldsContext s h x →
    selectAllowed p → m.toNat ≤ 4 → (m = 4 → rd.toNat < 8) →
    let v := s.b.ctx h x
    let a := (s.b.reg h ra).toNat
    let k := lmemAddr (h / 8) a
    let size := if m = 0 then 40 else if m = 4 then 128 else 64
    let f : FmtE := ⟨rd, ra, 0, p, e, 0⟩
    let next := fun (b : Body) => if e = 1 then b.setReg h ra (s.b.reg h ra + BitVec.ofNat 32 size) else b
    a % 4 = 0 →
    -- RLD: the selected lanes take the block's
    (s.b.place h a size true false = some (.local a) →
      let half := fun n => readLE s.b.mem.lmem (k + 2 * n) 2
      let lane := fun n => match m.toNat with
        | 0 => readLE s.b.mem.lmem k 40 / 2 ^ (10 * n) % 1024
        | 1 => half n % 1024
        | 2 => half n % 1024
        | 3 => half n / 64
        | _ => readLE s.b.mem.lmem (k + 4 * n) 4
      ∃ g : Nat → LaneOut, (∀ n, n < 32 → g n = ⟨lane n, false, false⟩) ∧
        exec (.rld h m f) s = .next (s.committed h ((next (s.issued h)).setCtx h x
          (if m = 4 then v.writeAccs rd.toNat p.toNat g else v.writeSamples rd.toNat p.toNat g)) 1 (s.after h))) ∧
    -- RST: the bytes of the selected lanes take the lanes
    ((m = 0 → p = 0) → s.b.place h a size false true = some (.local a) →
      ∃ mem, exec (.rst h m f) s = .next (s.committed h (next { s.issued h with mem.lmem := mem }) 1 (s.after h)) ∧
        (∀ y, y < k ∨ k + size ≤ y → readByte mem y = readByte s.b.mem.lmem y) ∧
        (m = 0 → readLE mem k 40 = v.sreg rd.toNat) ∧
        (∀ n, n < 32 →
          let c := laneOf 10 (v.sreg rd.toNat) n
          let sel := v.selects p.toNat n
          (m = 1 → readLE mem (k + 2 * n) 2 = if sel then c else readLE s.b.mem.lmem (k + 2 * n) 2) ∧
          (m = 2 → readLE mem (k + 2 * n) 2 =
            if sel then (if c < 512 then c else c + 64512) else readLE s.b.mem.lmem (k + 2 * n) 2) ∧
          (m = 3 → readLE mem (k + 2 * n) 2 = if sel then c * 64 else readLE s.b.mem.lmem (k + 2 * n) 2) ∧
          (m = 4 → readLE mem (k + 4 * n) 4 =
            if sel then laneOf 32 (v.acc rd.toNat) n else readLE s.b.mem.lmem (k + 4 * n) 4))))
end

