-- ==== Sys2Proof/Laws/Sparse.lean ====
section
/-! SUPPORT. Laws of sparse maps and byte memories: what a read gives after a write, and that every memory operation
keeps the canonical form. -/

namespace Sys2Proof.Machine

variable {α : Type}

theorem mapFind_mapPut_self (k : Nat) (v : α) (m : SMap α) : mapFind k (mapPut k v m) = some v := by
  induction m with
  | nil => simp [mapPut, mapFind]
  | cons e r ih =>
    obtain ⟨j, w⟩ := e
    simp only [mapPut]
    split
    · simp [mapFind]
    · split
      · simp [mapFind]
      · rename_i h1 h2; simp [mapFind, h2, ih]

theorem mapFind_mapPut_ne {k j : Nat} (h : k ≠ j) (v : α) (m : SMap α) : mapFind k (mapPut j v m) = mapFind k m := by
  induction m with
  | nil => simp [mapPut, mapFind, Ne.symm h]
  | cons e r ih =>
    obtain ⟨i, w⟩ := e
    simp only [mapPut]
    split
    · simp [mapFind, Ne.symm h]
    · split
      · rename_i h1 h2; subst h2; simp [mapFind, Ne.symm h]
      · simp [mapFind, ih]

theorem mapFind_mapPut (k j : Nat) (v : α) (m : SMap α) :
    mapFind k (mapPut j v m) = if k = j then some v else mapFind k m := by
  split
  · rename_i h; subst h; exact mapFind_mapPut_self _ _ _
  · rename_i h; exact mapFind_mapPut_ne h _ _

@[simp] theorem mapGet_mapPut_self (d : α) (k : Nat) (v : α) (m : SMap α) : mapGet d k (mapPut k v m) = v := by
  simp [mapGet, mapFind_mapPut_self]

theorem mapGet_mapPut_ne (d : α) {k j : Nat} (h : k ≠ j) (v : α) (m : SMap α) :
    mapGet d k (mapPut j v m) = mapGet d k m := by
  simp [mapGet, mapFind_mapPut_ne h]

theorem mapGet_mapPut (d : α) (k j : Nat) (v : α) (m : SMap α) :
    mapGet d k (mapPut j v m) = if k = j then v else mapGet d k m := by
  split
  · rename_i h; subst h; simp
  · rename_i h; exact mapGet_mapPut_ne d h _ _

@[simp] theorem mapFind_nil (k : Nat) : mapFind k ([] : SMap α) = none := rfl
@[simp] theorem mapGet_nil (d : α) (k : Nat) : mapGet d k ([] : SMap α) = d := rfl

theorem mapFind_filter_key (p : Nat → Bool) (k : Nat) (m : SMap α) :
    mapFind k (m.filter (fun e => p e.1)) = if p k then mapFind k m else none := by
  induction m with
  | nil => simp [mapFind]
  | cons e r ih =>
    obtain ⟨j, w⟩ := e
    by_cases hj : p j = true
    · by_cases hk : j = k
      · subst hk; simp [List.filter, hj, mapFind]
      · simp [List.filter, hj, mapFind, hk, ih]
    · by_cases hk : j = k
      · subst hk; simp [List.filter, hj, ih]
      · simp [List.filter, hj, mapFind, hk, ih]

theorem mapFind_mapDel (k j : Nat) (m : SMap α) :
    mapFind k (mapDel j m) = if k = j then none else mapFind k m := by
  have := mapFind_filter_key (fun i => decide (i ≠ j)) k m
  simp only [mapDel, this]
  by_cases h : k = j <;> simp [h]

/-! Bytes. -/

theorem readByte_writeByte (m : Memory) (a b : Nat) (v : Byte) :
    readByte (writeByte m a v) b = if b = a then v else readByte m b := by
  unfold readByte writeByte
  by_cases hv : v = unwrittenByte
  · simp only [hv, if_true, mapFind_mapDel]
    split <;> simp
  · simp only [hv, if_false, mapFind_mapPut]
    split <;> simp

theorem readByte_writeBytes (l : List Byte) (m : Memory) (a b : Nat) :
    readByte (writeBytes m a l) b = if h : a ≤ b ∧ b < a + l.length then l[b - a]'(by omega) else readByte m b := by
  induction l generalizing m a with
  | nil => simp [writeBytes]
  | cons v r ih =>
    simp only [writeBytes, ih, List.length_cons]
    by_cases h1 : b = a
    · subst h1
      have : ¬ (b + 1 ≤ b ∧ b < b + 1 + r.length) := by omega
      simp [readByte_writeByte]
    · by_cases h2 : a + 1 ≤ b ∧ b < a + 1 + r.length
      · have h3 : a ≤ b ∧ b < a + (r.length + 1) := by omega
        have h4 : b - a = (b - (a + 1)) + 1 := by omega
        simp only [h2, h3, and_self, dite_true]
        simp only [h4, List.getElem_cons_succ]
      · have h3 : ¬ (a ≤ b ∧ b < a + (r.length + 1)) := by omega
        rw [dif_neg h2, dif_neg h3, readByte_writeByte, if_neg h1]

/-- A byte outside the bytes written reads as before. -/
theorem readByte_writeBytes_outside (l : List Byte) (m : Memory) (a b : Nat) (h : b < a ∨ a + l.length ≤ b) :
    readByte (writeBytes m a l) b = readByte m b := by
  rw [readByte_writeBytes, dif_neg (by omega)]

theorem length_readBytes (m : Memory) (a n : Nat) : (readBytes m a n).length = n := by
  induction n generalizing a with
  | zero => rfl
  | succ n ih => simp [readBytes, ih]

@[simp] theorem length_leBytes (n x : Nat) : (leBytes n x).length = n := by
  induction n generalizing x with
  | zero => rfl
  | succ n ih => simp [leBytes, ih]

theorem leNat_leBytes (n x : Nat) : leNat (leBytes n x) = x % 256 ^ n := by
  induction n generalizing x with
  | zero => simp [leBytes, leNat, Nat.mod_one]
  | succ n ih =>
    simp only [leBytes, leNat, ih, BitVec.toNat_ofNat]
    have h8 : (2 : Nat) ^ 8 = 256 := rfl
    rw [h8, pow_succ', Nat.mod_mul]

theorem readBytes_writeBytes (l : List Byte) (m : Memory) (a : Nat) : readBytes (writeBytes m a l) a l.length = l := by
  apply List.ext_getElem
  · simp [length_readBytes]
  · intro i h1 h2
    have key : ∀ (n : Nat) (m : Memory) (a i : Nat) (h : i < (readBytes m a n).length),
        (readBytes m a n)[i]'h = readByte m (a + i) := by
      intro n
      induction n with
      | zero => intro m a i h; simp [readBytes] at h
      | succ n ih =>
        intro m a i h
        cases i with
        | zero => simp [readBytes]
        | succ i =>
          have := ih m (a + 1) i (by simpa [readBytes] using h)
          simp only [readBytes, List.getElem_cons_succ, this]
          congr 1; omega
    rw [key, readByte_writeBytes, dif_pos (by omega)]
    congr 1; omega

/-- A number of `n` bytes read back where it was written. -/
theorem readLE_writeLE (m : Memory) (a n x : Nat) : readLE (writeLE m a n x) a n = x % 256 ^ n := by
  have := readBytes_writeBytes (leBytes n x) m a
  rw [length_leBytes] at this
  simp [readLE, writeLE, this, leNat_leBytes]

/-! The canonical form. -/

theorem mapPut_sorted (k : Nat) (v : α) (m : SMap α) (h : m.Pairwise (fun x y => x.1 < y.1)) :
    (mapPut k v m).Pairwise (fun x y => x.1 < y.1) ∧ ∀ e ∈ mapPut k v m, e = (k, v) ∨ e ∈ m := by
  induction m with
  | nil => simp [mapPut]
  | cons e r ih =>
    obtain ⟨j, w⟩ := e
    simp only [List.pairwise_cons] at h
    obtain ⟨ih1, ih2⟩ := ih h.2
    simp only [mapPut]
    split
    · rename_i hk
      refine ⟨?_, by intro e he; simpa using he⟩
      simp only [List.pairwise_cons]
      refine ⟨?_, h.1, h.2⟩
      intro e he
      rcases List.mem_cons.1 he with rfl | he
      · exact hk
      · exact lt_trans hk (h.1 e he)
    · split
      · rename_i hk hj
        subst hj
        refine ⟨by simpa [List.pairwise_cons] using h, ?_⟩
        intro e he
        rcases List.mem_cons.1 he with rfl | he
        · exact .inl rfl
        · exact .inr (List.mem_cons_of_mem _ he)
      · rename_i hk hj
        refine ⟨?_, ?_⟩
        · simp only [List.pairwise_cons]
          refine ⟨?_, ih1⟩
          intro e he
          rcases ih2 e he with rfl | he
          · simp only; omega
          · exact h.1 e he
        · intro e he
          rcases List.mem_cons.1 he with rfl | he
          · exact .inr (List.mem_cons_self ..)
          · rcases ih2 e he with h1 | h1
            · exact .inl h1
            · exact .inr (List.mem_cons_of_mem _ h1)

/-- Writing a byte keeps the canonical form. -/
theorem writeByte_wf (m : Memory) (a : Nat) (v : Byte) (h : Memory.wf m = true) : Memory.wf (writeByte m a v) = true := by
  simp only [Memory.wf, Bool.and_eq_true, decide_eq_true_eq, List.all_eq_true] at h ⊢
  unfold writeByte
  split
  · exact ⟨h.1.filter _, fun e he => h.2 e (List.mem_filter.1 he).1⟩
  · rename_i hv
    obtain ⟨h1, h2⟩ := mapPut_sorted a v m h.1
    refine ⟨h1, ?_⟩
    intro e he
    rcases h2 e he with rfl | he
    · simpa using hv
    · exact h.2 e he

/-- Writing bytes keeps the canonical form. -/
theorem writeBytes_wf (l : List Byte) (m : Memory) (a : Nat) (h : Memory.wf m = true) :
    Memory.wf (writeBytes m a l) = true := by
  induction l generalizing m a with
  | nil => exact h
  | cons v r ih => exact ih _ _ (writeByte_wf m a v h)

/-- Writing a number keeps the canonical form. -/
theorem writeLE_wf (m : Memory) (a n x : Nat) (h : Memory.wf m = true) : Memory.wf (writeLE m a n x) = true :=
  writeBytes_wf _ _ _ h

/-- A memory cleared in part keeps the canonical form. -/
theorem filter_wf (p : Nat × Byte → Bool) (m : Memory) (h : Memory.wf m = true) : Memory.wf (m.filter p) = true := by
  simp only [Memory.wf, Bool.and_eq_true, decide_eq_true_eq, List.all_eq_true] at h ⊢
  exact ⟨h.1.filter _, fun e he => h.2 e (List.mem_filter.1 he).1⟩

end Sys2Proof.Machine
end

