-- ==== Sys2Proof/Laws/State.lean ====
section
/-! SUPPORT. Laws of the state: what each named update leaves of every field of the device's state. -/

namespace Sys2Proof.Machine

/-- After reset every memory of the device is in its canonical form. -/
theorem reset_memories_wf : (∀ m ∈ [State.reset.b.mem.imem, State.reset.b.mem.lmem, State.reset.b.mem.spad,
    State.reset.b.mem.dram, State.reset.b.mem.bmem, State.reset.b.adm.fwImage], Memory.wf m = true) := by decide

/-! fset -/

@[simp] theorem Body.fset_latches (b : Body) (c i : Nat) (f : Fld) (v : Nat) : (b.fset c i f v).latches = b.latches := rfl
@[simp] theorem Body.fset_sys (b : Body) (c i : Nat) (f : Fld) (v : Nat) : (b.fset c i f v).sys = b.sys := rfl
@[simp] theorem Body.fset_mem (b : Body) (c i : Nat) (f : Fld) (v : Nat) : (b.fset c i f v).mem = b.mem := rfl
@[simp] theorem Body.fset_isa (b : Body) (c i : Nat) (f : Fld) (v : Nat) : (b.fset c i f v).isa = b.isa := rfl
@[simp] theorem Body.fset_work (b : Body) (c i : Nat) (f : Fld) (v : Nat) : (b.fset c i f v).work = b.work := rfl
@[simp] theorem Body.fset_sync (b : Body) (c i : Nat) (f : Fld) (v : Nat) : (b.fset c i f v).sync = b.sync := rfl
@[simp] theorem Body.fset_net (b : Body) (c i : Nat) (f : Fld) (v : Nat) : (b.fset c i f v).net = b.net := rfl
@[simp] theorem Body.fset_drm (b : Body) (c i : Nat) (f : Fld) (v : Nat) : (b.fset c i f v).drm = b.drm := rfl
@[simp] theorem Body.fset_tab (b : Body) (c i : Nat) (f : Fld) (v : Nat) : (b.fset c i f v).tab = b.tab := rfl
@[simp] theorem Body.fset_bas (b : Body) (c i : Nat) (f : Fld) (v : Nat) : (b.fset c i f v).bas = b.bas := rfl
@[simp] theorem Body.fset_host (b : Body) (c i : Nat) (f : Fld) (v : Nat) : (b.fset c i f v).host = b.host := rfl
@[simp] theorem Body.fset_adm (b : Body) (c i : Nat) (f : Fld) (v : Nat) : (b.fset c i f v).adm = b.adm := rfl
@[simp] theorem Body.fset_outputs (b : Body) (c i : Nat) (f : Fld) (v : Nat) : (b.fset c i f v).outputs = b.outputs := rfl
@[simp] theorem Body.fset_reply (b : Body) (c i : Nat) (f : Fld) (v : Nat) : (b.fset c i f v).reply = b.reply := rfl
@[simp] theorem Body.fset_free (b : Body) (c i : Nat) (f : Fld) (v : Nat) : (b.fset c i f v).free = b.free := rfl
@[simp] theorem Body.fset_stamp (b : Body) (c i : Nat) (f : Fld) (v : Nat) : (b.fset c i f v).stamp = b.stamp := rfl
@[simp] theorem Body.fset_clock (b : Body) (c i : Nat) (f : Fld) (v : Nat) : (b.fset c i f v).clock = b.clock := rfl

/-! bump -/

@[simp] theorem Body.bump_latches (b : Body) (c i : Nat) (f : Fld) (k : Nat) : (b.bump c i f k).latches = b.latches := rfl
@[simp] theorem Body.bump_sys (b : Body) (c i : Nat) (f : Fld) (k : Nat) : (b.bump c i f k).sys = b.sys := rfl
@[simp] theorem Body.bump_mem (b : Body) (c i : Nat) (f : Fld) (k : Nat) : (b.bump c i f k).mem = b.mem := rfl
@[simp] theorem Body.bump_isa (b : Body) (c i : Nat) (f : Fld) (k : Nat) : (b.bump c i f k).isa = b.isa := rfl
@[simp] theorem Body.bump_work (b : Body) (c i : Nat) (f : Fld) (k : Nat) : (b.bump c i f k).work = b.work := rfl
@[simp] theorem Body.bump_sync (b : Body) (c i : Nat) (f : Fld) (k : Nat) : (b.bump c i f k).sync = b.sync := rfl
@[simp] theorem Body.bump_net (b : Body) (c i : Nat) (f : Fld) (k : Nat) : (b.bump c i f k).net = b.net := rfl
@[simp] theorem Body.bump_drm (b : Body) (c i : Nat) (f : Fld) (k : Nat) : (b.bump c i f k).drm = b.drm := rfl
@[simp] theorem Body.bump_tab (b : Body) (c i : Nat) (f : Fld) (k : Nat) : (b.bump c i f k).tab = b.tab := rfl
@[simp] theorem Body.bump_bas (b : Body) (c i : Nat) (f : Fld) (k : Nat) : (b.bump c i f k).bas = b.bas := rfl
@[simp] theorem Body.bump_host (b : Body) (c i : Nat) (f : Fld) (k : Nat) : (b.bump c i f k).host = b.host := rfl
@[simp] theorem Body.bump_adm (b : Body) (c i : Nat) (f : Fld) (k : Nat) : (b.bump c i f k).adm = b.adm := rfl
@[simp] theorem Body.bump_outputs (b : Body) (c i : Nat) (f : Fld) (k : Nat) : (b.bump c i f k).outputs = b.outputs := rfl
@[simp] theorem Body.bump_reply (b : Body) (c i : Nat) (f : Fld) (k : Nat) : (b.bump c i f k).reply = b.reply := rfl
@[simp] theorem Body.bump_free (b : Body) (c i : Nat) (f : Fld) (k : Nat) : (b.bump c i f k).free = b.free := rfl
@[simp] theorem Body.bump_stamp (b : Body) (c i : Nat) (f : Fld) (k : Nat) : (b.bump c i f k).stamp = b.stamp := rfl
@[simp] theorem Body.bump_clock (b : Body) (c i : Nat) (f : Fld) (k : Nat) : (b.bump c i f k).clock = b.clock := rfl

/-! bumpSat -/

@[simp] theorem Body.bumpSat_latches (b : Body) (c i : Nat) (f : Fld) (k : Nat) : (b.bumpSat c i f k).latches = b.latches := rfl
@[simp] theorem Body.bumpSat_sys (b : Body) (c i : Nat) (f : Fld) (k : Nat) : (b.bumpSat c i f k).sys = b.sys := rfl
@[simp] theorem Body.bumpSat_mem (b : Body) (c i : Nat) (f : Fld) (k : Nat) : (b.bumpSat c i f k).mem = b.mem := rfl
@[simp] theorem Body.bumpSat_isa (b : Body) (c i : Nat) (f : Fld) (k : Nat) : (b.bumpSat c i f k).isa = b.isa := rfl
@[simp] theorem Body.bumpSat_work (b : Body) (c i : Nat) (f : Fld) (k : Nat) : (b.bumpSat c i f k).work = b.work := rfl
@[simp] theorem Body.bumpSat_sync (b : Body) (c i : Nat) (f : Fld) (k : Nat) : (b.bumpSat c i f k).sync = b.sync := rfl
@[simp] theorem Body.bumpSat_net (b : Body) (c i : Nat) (f : Fld) (k : Nat) : (b.bumpSat c i f k).net = b.net := rfl
@[simp] theorem Body.bumpSat_drm (b : Body) (c i : Nat) (f : Fld) (k : Nat) : (b.bumpSat c i f k).drm = b.drm := rfl
@[simp] theorem Body.bumpSat_tab (b : Body) (c i : Nat) (f : Fld) (k : Nat) : (b.bumpSat c i f k).tab = b.tab := rfl
@[simp] theorem Body.bumpSat_bas (b : Body) (c i : Nat) (f : Fld) (k : Nat) : (b.bumpSat c i f k).bas = b.bas := rfl
@[simp] theorem Body.bumpSat_host (b : Body) (c i : Nat) (f : Fld) (k : Nat) : (b.bumpSat c i f k).host = b.host := rfl
@[simp] theorem Body.bumpSat_adm (b : Body) (c i : Nat) (f : Fld) (k : Nat) : (b.bumpSat c i f k).adm = b.adm := rfl
@[simp] theorem Body.bumpSat_outputs (b : Body) (c i : Nat) (f : Fld) (k : Nat) : (b.bumpSat c i f k).outputs = b.outputs := rfl
@[simp] theorem Body.bumpSat_reply (b : Body) (c i : Nat) (f : Fld) (k : Nat) : (b.bumpSat c i f k).reply = b.reply := rfl
@[simp] theorem Body.bumpSat_free (b : Body) (c i : Nat) (f : Fld) (k : Nat) : (b.bumpSat c i f k).free = b.free := rfl
@[simp] theorem Body.bumpSat_stamp (b : Body) (c i : Nat) (f : Fld) (k : Nat) : (b.bumpSat c i f k).stamp = b.stamp := rfl
@[simp] theorem Body.bumpSat_clock (b : Body) (c i : Nat) (f : Fld) (k : Nat) : (b.bumpSat c i f k).clock = b.clock := rfl

/-! bumpWrap -/

@[simp] theorem Body.bumpWrap_latches (b : Body) (c i : Nat) (f : Fld) (k : Nat) : (b.bumpWrap c i f k).latches = b.latches := rfl
@[simp] theorem Body.bumpWrap_sys (b : Body) (c i : Nat) (f : Fld) (k : Nat) : (b.bumpWrap c i f k).sys = b.sys := rfl
@[simp] theorem Body.bumpWrap_mem (b : Body) (c i : Nat) (f : Fld) (k : Nat) : (b.bumpWrap c i f k).mem = b.mem := rfl
@[simp] theorem Body.bumpWrap_isa (b : Body) (c i : Nat) (f : Fld) (k : Nat) : (b.bumpWrap c i f k).isa = b.isa := rfl
@[simp] theorem Body.bumpWrap_work (b : Body) (c i : Nat) (f : Fld) (k : Nat) : (b.bumpWrap c i f k).work = b.work := rfl
@[simp] theorem Body.bumpWrap_sync (b : Body) (c i : Nat) (f : Fld) (k : Nat) : (b.bumpWrap c i f k).sync = b.sync := rfl
@[simp] theorem Body.bumpWrap_net (b : Body) (c i : Nat) (f : Fld) (k : Nat) : (b.bumpWrap c i f k).net = b.net := rfl
@[simp] theorem Body.bumpWrap_drm (b : Body) (c i : Nat) (f : Fld) (k : Nat) : (b.bumpWrap c i f k).drm = b.drm := rfl
@[simp] theorem Body.bumpWrap_tab (b : Body) (c i : Nat) (f : Fld) (k : Nat) : (b.bumpWrap c i f k).tab = b.tab := rfl
@[simp] theorem Body.bumpWrap_bas (b : Body) (c i : Nat) (f : Fld) (k : Nat) : (b.bumpWrap c i f k).bas = b.bas := rfl
@[simp] theorem Body.bumpWrap_host (b : Body) (c i : Nat) (f : Fld) (k : Nat) : (b.bumpWrap c i f k).host = b.host := rfl
@[simp] theorem Body.bumpWrap_adm (b : Body) (c i : Nat) (f : Fld) (k : Nat) : (b.bumpWrap c i f k).adm = b.adm := rfl
@[simp] theorem Body.bumpWrap_outputs (b : Body) (c i : Nat) (f : Fld) (k : Nat) : (b.bumpWrap c i f k).outputs = b.outputs := rfl
@[simp] theorem Body.bumpWrap_reply (b : Body) (c i : Nat) (f : Fld) (k : Nat) : (b.bumpWrap c i f k).reply = b.reply := rfl
@[simp] theorem Body.bumpWrap_free (b : Body) (c i : Nat) (f : Fld) (k : Nat) : (b.bumpWrap c i f k).free = b.free := rfl
@[simp] theorem Body.bumpWrap_stamp (b : Body) (c i : Nat) (f : Fld) (k : Nat) : (b.bumpWrap c i f k).stamp = b.stamp := rfl
@[simp] theorem Body.bumpWrap_clock (b : Body) (c i : Nat) (f : Fld) (k : Nat) : (b.bumpWrap c i f k).clock = b.clock := rfl

/-! drop -/

@[simp] theorem Body.drop_latches (b : Body) (c i : Nat) (f : Fld) (k : Nat) : (b.drop c i f k).latches = b.latches := rfl
@[simp] theorem Body.drop_sys (b : Body) (c i : Nat) (f : Fld) (k : Nat) : (b.drop c i f k).sys = b.sys := rfl
@[simp] theorem Body.drop_mem (b : Body) (c i : Nat) (f : Fld) (k : Nat) : (b.drop c i f k).mem = b.mem := rfl
@[simp] theorem Body.drop_isa (b : Body) (c i : Nat) (f : Fld) (k : Nat) : (b.drop c i f k).isa = b.isa := rfl
@[simp] theorem Body.drop_work (b : Body) (c i : Nat) (f : Fld) (k : Nat) : (b.drop c i f k).work = b.work := rfl
@[simp] theorem Body.drop_sync (b : Body) (c i : Nat) (f : Fld) (k : Nat) : (b.drop c i f k).sync = b.sync := rfl
@[simp] theorem Body.drop_net (b : Body) (c i : Nat) (f : Fld) (k : Nat) : (b.drop c i f k).net = b.net := rfl
@[simp] theorem Body.drop_drm (b : Body) (c i : Nat) (f : Fld) (k : Nat) : (b.drop c i f k).drm = b.drm := rfl
@[simp] theorem Body.drop_tab (b : Body) (c i : Nat) (f : Fld) (k : Nat) : (b.drop c i f k).tab = b.tab := rfl
@[simp] theorem Body.drop_bas (b : Body) (c i : Nat) (f : Fld) (k : Nat) : (b.drop c i f k).bas = b.bas := rfl
@[simp] theorem Body.drop_host (b : Body) (c i : Nat) (f : Fld) (k : Nat) : (b.drop c i f k).host = b.host := rfl
@[simp] theorem Body.drop_adm (b : Body) (c i : Nat) (f : Fld) (k : Nat) : (b.drop c i f k).adm = b.adm := rfl
@[simp] theorem Body.drop_outputs (b : Body) (c i : Nat) (f : Fld) (k : Nat) : (b.drop c i f k).outputs = b.outputs := rfl
@[simp] theorem Body.drop_reply (b : Body) (c i : Nat) (f : Fld) (k : Nat) : (b.drop c i f k).reply = b.reply := rfl
@[simp] theorem Body.drop_free (b : Body) (c i : Nat) (f : Fld) (k : Nat) : (b.drop c i f k).free = b.free := rfl
@[simp] theorem Body.drop_stamp (b : Body) (c i : Nat) (f : Fld) (k : Nat) : (b.drop c i f k).stamp = b.stamp := rfl
@[simp] theorem Body.drop_clock (b : Body) (c i : Nat) (f : Fld) (k : Nat) : (b.drop c i f k).clock = b.clock := rfl

/-! raise -/

@[simp] theorem Body.raise_latches (b : Body) (c i : Nat) (f : Fld) (v : Nat) : (b.raise c i f v).latches = b.latches := rfl
@[simp] theorem Body.raise_sys (b : Body) (c i : Nat) (f : Fld) (v : Nat) : (b.raise c i f v).sys = b.sys := rfl
@[simp] theorem Body.raise_mem (b : Body) (c i : Nat) (f : Fld) (v : Nat) : (b.raise c i f v).mem = b.mem := rfl
@[simp] theorem Body.raise_isa (b : Body) (c i : Nat) (f : Fld) (v : Nat) : (b.raise c i f v).isa = b.isa := rfl
@[simp] theorem Body.raise_work (b : Body) (c i : Nat) (f : Fld) (v : Nat) : (b.raise c i f v).work = b.work := rfl
@[simp] theorem Body.raise_sync (b : Body) (c i : Nat) (f : Fld) (v : Nat) : (b.raise c i f v).sync = b.sync := rfl
@[simp] theorem Body.raise_net (b : Body) (c i : Nat) (f : Fld) (v : Nat) : (b.raise c i f v).net = b.net := rfl
@[simp] theorem Body.raise_drm (b : Body) (c i : Nat) (f : Fld) (v : Nat) : (b.raise c i f v).drm = b.drm := rfl
@[simp] theorem Body.raise_tab (b : Body) (c i : Nat) (f : Fld) (v : Nat) : (b.raise c i f v).tab = b.tab := rfl
@[simp] theorem Body.raise_bas (b : Body) (c i : Nat) (f : Fld) (v : Nat) : (b.raise c i f v).bas = b.bas := rfl
@[simp] theorem Body.raise_host (b : Body) (c i : Nat) (f : Fld) (v : Nat) : (b.raise c i f v).host = b.host := rfl
@[simp] theorem Body.raise_adm (b : Body) (c i : Nat) (f : Fld) (v : Nat) : (b.raise c i f v).adm = b.adm := rfl
@[simp] theorem Body.raise_outputs (b : Body) (c i : Nat) (f : Fld) (v : Nat) : (b.raise c i f v).outputs = b.outputs := rfl
@[simp] theorem Body.raise_reply (b : Body) (c i : Nat) (f : Fld) (v : Nat) : (b.raise c i f v).reply = b.reply := rfl
@[simp] theorem Body.raise_free (b : Body) (c i : Nat) (f : Fld) (v : Nat) : (b.raise c i f v).free = b.free := rfl
@[simp] theorem Body.raise_stamp (b : Body) (c i : Nat) (f : Fld) (v : Nat) : (b.raise c i f v).stamp = b.stamp := rfl
@[simp] theorem Body.raise_clock (b : Body) (c i : Nat) (f : Fld) (v : Nat) : (b.raise c i f v).clock = b.clock := rfl

/-! setHart -/

@[simp] theorem Body.setHart_fields (b : Body) (h : Nat) (x : Hart) : (b.setHart h x).fields = b.fields := rfl
@[simp] theorem Body.setHart_latches (b : Body) (h : Nat) (x : Hart) : (b.setHart h x).latches = b.latches := rfl
@[simp] theorem Body.setHart_sys (b : Body) (h : Nat) (x : Hart) : (b.setHart h x).sys = b.sys := rfl
@[simp] theorem Body.setHart_mem (b : Body) (h : Nat) (x : Hart) : (b.setHart h x).mem = b.mem := rfl
@[simp] theorem Body.setHart_work (b : Body) (h : Nat) (x : Hart) : (b.setHart h x).work = b.work := rfl
@[simp] theorem Body.setHart_sync (b : Body) (h : Nat) (x : Hart) : (b.setHart h x).sync = b.sync := rfl
@[simp] theorem Body.setHart_net (b : Body) (h : Nat) (x : Hart) : (b.setHart h x).net = b.net := rfl
@[simp] theorem Body.setHart_drm (b : Body) (h : Nat) (x : Hart) : (b.setHart h x).drm = b.drm := rfl
@[simp] theorem Body.setHart_tab (b : Body) (h : Nat) (x : Hart) : (b.setHart h x).tab = b.tab := rfl
@[simp] theorem Body.setHart_bas (b : Body) (h : Nat) (x : Hart) : (b.setHart h x).bas = b.bas := rfl
@[simp] theorem Body.setHart_host (b : Body) (h : Nat) (x : Hart) : (b.setHart h x).host = b.host := rfl
@[simp] theorem Body.setHart_adm (b : Body) (h : Nat) (x : Hart) : (b.setHart h x).adm = b.adm := rfl
@[simp] theorem Body.setHart_outputs (b : Body) (h : Nat) (x : Hart) : (b.setHart h x).outputs = b.outputs := rfl
@[simp] theorem Body.setHart_reply (b : Body) (h : Nat) (x : Hart) : (b.setHart h x).reply = b.reply := rfl
@[simp] theorem Body.setHart_free (b : Body) (h : Nat) (x : Hart) : (b.setHart h x).free = b.free := rfl
@[simp] theorem Body.setHart_stamp (b : Body) (h : Nat) (x : Hart) : (b.setHart h x).stamp = b.stamp := rfl
@[simp] theorem Body.setHart_clock (b : Body) (h : Nat) (x : Hart) : (b.setHart h x).clock = b.clock := rfl

/-! modHart -/

@[simp] theorem Body.modHart_fields (b : Body) (h : Nat) (g : Hart → Hart) : (b.modHart h g).fields = b.fields := rfl
@[simp] theorem Body.modHart_latches (b : Body) (h : Nat) (g : Hart → Hart) : (b.modHart h g).latches = b.latches := rfl
@[simp] theorem Body.modHart_sys (b : Body) (h : Nat) (g : Hart → Hart) : (b.modHart h g).sys = b.sys := rfl
@[simp] theorem Body.modHart_mem (b : Body) (h : Nat) (g : Hart → Hart) : (b.modHart h g).mem = b.mem := rfl
@[simp] theorem Body.modHart_work (b : Body) (h : Nat) (g : Hart → Hart) : (b.modHart h g).work = b.work := rfl
@[simp] theorem Body.modHart_sync (b : Body) (h : Nat) (g : Hart → Hart) : (b.modHart h g).sync = b.sync := rfl
@[simp] theorem Body.modHart_net (b : Body) (h : Nat) (g : Hart → Hart) : (b.modHart h g).net = b.net := rfl
@[simp] theorem Body.modHart_drm (b : Body) (h : Nat) (g : Hart → Hart) : (b.modHart h g).drm = b.drm := rfl
@[simp] theorem Body.modHart_tab (b : Body) (h : Nat) (g : Hart → Hart) : (b.modHart h g).tab = b.tab := rfl
@[simp] theorem Body.modHart_bas (b : Body) (h : Nat) (g : Hart → Hart) : (b.modHart h g).bas = b.bas := rfl
@[simp] theorem Body.modHart_host (b : Body) (h : Nat) (g : Hart → Hart) : (b.modHart h g).host = b.host := rfl
@[simp] theorem Body.modHart_adm (b : Body) (h : Nat) (g : Hart → Hart) : (b.modHart h g).adm = b.adm := rfl
@[simp] theorem Body.modHart_outputs (b : Body) (h : Nat) (g : Hart → Hart) : (b.modHart h g).outputs = b.outputs := rfl
@[simp] theorem Body.modHart_reply (b : Body) (h : Nat) (g : Hart → Hart) : (b.modHart h g).reply = b.reply := rfl
@[simp] theorem Body.modHart_free (b : Body) (h : Nat) (g : Hart → Hart) : (b.modHart h g).free = b.free := rfl
@[simp] theorem Body.modHart_stamp (b : Body) (h : Nat) (g : Hart → Hart) : (b.modHart h g).stamp = b.stamp := rfl
@[simp] theorem Body.modHart_clock (b : Body) (h : Nat) (g : Hart → Hart) : (b.modHart h g).clock = b.clock := rfl

/-! setCore -/

@[simp] theorem Body.setCore_fields (b : Body) (c : Nat) (x : CoreSt) : (b.setCore c x).fields = b.fields := rfl
@[simp] theorem Body.setCore_latches (b : Body) (c : Nat) (x : CoreSt) : (b.setCore c x).latches = b.latches := rfl
@[simp] theorem Body.setCore_sys (b : Body) (c : Nat) (x : CoreSt) : (b.setCore c x).sys = b.sys := rfl
@[simp] theorem Body.setCore_mem (b : Body) (c : Nat) (x : CoreSt) : (b.setCore c x).mem = b.mem := rfl
@[simp] theorem Body.setCore_work (b : Body) (c : Nat) (x : CoreSt) : (b.setCore c x).work = b.work := rfl
@[simp] theorem Body.setCore_sync (b : Body) (c : Nat) (x : CoreSt) : (b.setCore c x).sync = b.sync := rfl
@[simp] theorem Body.setCore_net (b : Body) (c : Nat) (x : CoreSt) : (b.setCore c x).net = b.net := rfl
@[simp] theorem Body.setCore_drm (b : Body) (c : Nat) (x : CoreSt) : (b.setCore c x).drm = b.drm := rfl
@[simp] theorem Body.setCore_tab (b : Body) (c : Nat) (x : CoreSt) : (b.setCore c x).tab = b.tab := rfl
@[simp] theorem Body.setCore_bas (b : Body) (c : Nat) (x : CoreSt) : (b.setCore c x).bas = b.bas := rfl
@[simp] theorem Body.setCore_host (b : Body) (c : Nat) (x : CoreSt) : (b.setCore c x).host = b.host := rfl
@[simp] theorem Body.setCore_adm (b : Body) (c : Nat) (x : CoreSt) : (b.setCore c x).adm = b.adm := rfl
@[simp] theorem Body.setCore_outputs (b : Body) (c : Nat) (x : CoreSt) : (b.setCore c x).outputs = b.outputs := rfl
@[simp] theorem Body.setCore_reply (b : Body) (c : Nat) (x : CoreSt) : (b.setCore c x).reply = b.reply := rfl
@[simp] theorem Body.setCore_free (b : Body) (c : Nat) (x : CoreSt) : (b.setCore c x).free = b.free := rfl
@[simp] theorem Body.setCore_stamp (b : Body) (c : Nat) (x : CoreSt) : (b.setCore c x).stamp = b.stamp := rfl
@[simp] theorem Body.setCore_clock (b : Body) (c : Nat) (x : CoreSt) : (b.setCore c x).clock = b.clock := rfl

/-! emit -/

@[simp] theorem Body.emit_fields (b : Body) (o : Output) : (b.emit o).fields = b.fields := rfl
@[simp] theorem Body.emit_latches (b : Body) (o : Output) : (b.emit o).latches = b.latches := rfl
@[simp] theorem Body.emit_sys (b : Body) (o : Output) : (b.emit o).sys = b.sys := rfl
@[simp] theorem Body.emit_mem (b : Body) (o : Output) : (b.emit o).mem = b.mem := rfl
@[simp] theorem Body.emit_isa (b : Body) (o : Output) : (b.emit o).isa = b.isa := rfl
@[simp] theorem Body.emit_work (b : Body) (o : Output) : (b.emit o).work = b.work := rfl
@[simp] theorem Body.emit_sync (b : Body) (o : Output) : (b.emit o).sync = b.sync := rfl
@[simp] theorem Body.emit_net (b : Body) (o : Output) : (b.emit o).net = b.net := rfl
@[simp] theorem Body.emit_drm (b : Body) (o : Output) : (b.emit o).drm = b.drm := rfl
@[simp] theorem Body.emit_tab (b : Body) (o : Output) : (b.emit o).tab = b.tab := rfl
@[simp] theorem Body.emit_bas (b : Body) (o : Output) : (b.emit o).bas = b.bas := rfl
@[simp] theorem Body.emit_host (b : Body) (o : Output) : (b.emit o).host = b.host := rfl
@[simp] theorem Body.emit_adm (b : Body) (o : Output) : (b.emit o).adm = b.adm := rfl
@[simp] theorem Body.emit_reply (b : Body) (o : Output) : (b.emit o).reply = b.reply := rfl
@[simp] theorem Body.emit_free (b : Body) (o : Output) : (b.emit o).free = b.free := rfl
@[simp] theorem Body.emit_stamp (b : Body) (o : Output) : (b.emit o).stamp = b.stamp := rfl
@[simp] theorem Body.emit_clock (b : Body) (o : Output) : (b.emit o).clock = b.clock := rfl

/-! answer -/

@[simp] theorem Body.answer_fields (b : Body) (st : Nat) : (b.answer st).fields = b.fields := rfl
@[simp] theorem Body.answer_latches (b : Body) (st : Nat) : (b.answer st).latches = b.latches := rfl
@[simp] theorem Body.answer_sys (b : Body) (st : Nat) : (b.answer st).sys = b.sys := rfl
@[simp] theorem Body.answer_mem (b : Body) (st : Nat) : (b.answer st).mem = b.mem := rfl
@[simp] theorem Body.answer_isa (b : Body) (st : Nat) : (b.answer st).isa = b.isa := rfl
@[simp] theorem Body.answer_work (b : Body) (st : Nat) : (b.answer st).work = b.work := rfl
@[simp] theorem Body.answer_sync (b : Body) (st : Nat) : (b.answer st).sync = b.sync := rfl
@[simp] theorem Body.answer_net (b : Body) (st : Nat) : (b.answer st).net = b.net := rfl
@[simp] theorem Body.answer_drm (b : Body) (st : Nat) : (b.answer st).drm = b.drm := rfl
@[simp] theorem Body.answer_tab (b : Body) (st : Nat) : (b.answer st).tab = b.tab := rfl
@[simp] theorem Body.answer_bas (b : Body) (st : Nat) : (b.answer st).bas = b.bas := rfl
@[simp] theorem Body.answer_host (b : Body) (st : Nat) : (b.answer st).host = b.host := rfl
@[simp] theorem Body.answer_adm (b : Body) (st : Nat) : (b.answer st).adm = b.adm := rfl
@[simp] theorem Body.answer_outputs (b : Body) (st : Nat) : (b.answer st).outputs = b.outputs := rfl
@[simp] theorem Body.answer_free (b : Body) (st : Nat) : (b.answer st).free = b.free := rfl
@[simp] theorem Body.answer_stamp (b : Body) (st : Nat) : (b.answer st).stamp = b.stamp := rfl
@[simp] theorem Body.answer_clock (b : Body) (st : Nat) : (b.answer st).clock = b.clock := rfl

/-! answerWords -/

@[simp] theorem Body.answerWords_fields (b : Body) (st : Nat) (ws : List Word) : (b.answerWords st ws).fields = b.fields := rfl
@[simp] theorem Body.answerWords_latches (b : Body) (st : Nat) (ws : List Word) : (b.answerWords st ws).latches = b.latches := rfl
@[simp] theorem Body.answerWords_sys (b : Body) (st : Nat) (ws : List Word) : (b.answerWords st ws).sys = b.sys := rfl
@[simp] theorem Body.answerWords_mem (b : Body) (st : Nat) (ws : List Word) : (b.answerWords st ws).mem = b.mem := rfl
@[simp] theorem Body.answerWords_isa (b : Body) (st : Nat) (ws : List Word) : (b.answerWords st ws).isa = b.isa := rfl
@[simp] theorem Body.answerWords_work (b : Body) (st : Nat) (ws : List Word) : (b.answerWords st ws).work = b.work := rfl
@[simp] theorem Body.answerWords_sync (b : Body) (st : Nat) (ws : List Word) : (b.answerWords st ws).sync = b.sync := rfl
@[simp] theorem Body.answerWords_net (b : Body) (st : Nat) (ws : List Word) : (b.answerWords st ws).net = b.net := rfl
@[simp] theorem Body.answerWords_drm (b : Body) (st : Nat) (ws : List Word) : (b.answerWords st ws).drm = b.drm := rfl
@[simp] theorem Body.answerWords_tab (b : Body) (st : Nat) (ws : List Word) : (b.answerWords st ws).tab = b.tab := rfl
@[simp] theorem Body.answerWords_bas (b : Body) (st : Nat) (ws : List Word) : (b.answerWords st ws).bas = b.bas := rfl
@[simp] theorem Body.answerWords_host (b : Body) (st : Nat) (ws : List Word) : (b.answerWords st ws).host = b.host := rfl
@[simp] theorem Body.answerWords_adm (b : Body) (st : Nat) (ws : List Word) : (b.answerWords st ws).adm = b.adm := rfl
@[simp] theorem Body.answerWords_outputs (b : Body) (st : Nat) (ws : List Word) : (b.answerWords st ws).outputs = b.outputs := rfl
@[simp] theorem Body.answerWords_free (b : Body) (st : Nat) (ws : List Word) : (b.answerWords st ws).free = b.free := rfl
@[simp] theorem Body.answerWords_stamp (b : Body) (st : Nat) (ws : List Word) : (b.answerWords st ws).stamp = b.stamp := rfl
@[simp] theorem Body.answerWords_clock (b : Body) (st : Nat) (ws : List Word) : (b.answerWords st ws).clock = b.clock := rfl

@[simp] theorem Body.hart_fset (b : Body) (c i : Nat) (f : Fld) (v : Nat) (h0 : Nat) : (b.fset c i f v).hart h0 = b.hart h0 := rfl
@[simp] theorem Body.core_fset (b : Body) (c i : Nat) (f : Fld) (v : Nat) (c0 : Nat) : (b.fset c i f v).core c0 = b.core c0 := rfl
@[simp] theorem Body.hart_bump (b : Body) (c i : Nat) (f : Fld) (k : Nat) (h0 : Nat) : (b.bump c i f k).hart h0 = b.hart h0 := rfl
@[simp] theorem Body.core_bump (b : Body) (c i : Nat) (f : Fld) (k : Nat) (c0 : Nat) : (b.bump c i f k).core c0 = b.core c0 := rfl
@[simp] theorem Body.hart_bumpSat (b : Body) (c i : Nat) (f : Fld) (k : Nat) (h0 : Nat) : (b.bumpSat c i f k).hart h0 = b.hart h0 := rfl
@[simp] theorem Body.core_bumpSat (b : Body) (c i : Nat) (f : Fld) (k : Nat) (c0 : Nat) : (b.bumpSat c i f k).core c0 = b.core c0 := rfl
@[simp] theorem Body.hart_bumpWrap (b : Body) (c i : Nat) (f : Fld) (k : Nat) (h0 : Nat) : (b.bumpWrap c i f k).hart h0 = b.hart h0 := rfl
@[simp] theorem Body.core_bumpWrap (b : Body) (c i : Nat) (f : Fld) (k : Nat) (c0 : Nat) : (b.bumpWrap c i f k).core c0 = b.core c0 := rfl
@[simp] theorem Body.hart_drop (b : Body) (c i : Nat) (f : Fld) (k : Nat) (h0 : Nat) : (b.drop c i f k).hart h0 = b.hart h0 := rfl
@[simp] theorem Body.core_drop (b : Body) (c i : Nat) (f : Fld) (k : Nat) (c0 : Nat) : (b.drop c i f k).core c0 = b.core c0 := rfl
@[simp] theorem Body.hart_raise (b : Body) (c i : Nat) (f : Fld) (v : Nat) (h0 : Nat) : (b.raise c i f v).hart h0 = b.hart h0 := rfl
@[simp] theorem Body.core_raise (b : Body) (c i : Nat) (f : Fld) (v : Nat) (c0 : Nat) : (b.raise c i f v).core c0 = b.core c0 := rfl
@[simp] theorem Body.fget_setHart (b : Body) (h : Nat) (x : Hart) (c0 i0 : Nat) (f0 : Fld) : (b.setHart h x).fget c0 i0 f0 = b.fget c0 i0 f0 := rfl
@[simp] theorem Body.fget_modHart (b : Body) (h : Nat) (g : Hart → Hart) (c0 i0 : Nat) (f0 : Fld) : (b.modHart h g).fget c0 i0 f0 = b.fget c0 i0 f0 := rfl
@[simp] theorem Body.fget_setCore (b : Body) (c : Nat) (x : CoreSt) (c0 i0 : Nat) (f0 : Fld) : (b.setCore c x).fget c0 i0 f0 = b.fget c0 i0 f0 := rfl

/-! Threads and cores. -/

@[simp] theorem Body.hart_setHart_self (b : Body) (h : Nat) (x : Hart) : (b.setHart h x).hart h = x := by
  simp [Body.hart, Body.setHart]

theorem Body.hart_setHart_ne (b : Body) {h k : Nat} (hk : k ≠ h) (x : Hart) : (b.setHart h x).hart k = b.hart k :=
  mapGet_mapPut_ne _ hk _ _

@[simp] theorem Body.hart_modHart_self (b : Body) (h : Nat) (g : Hart → Hart) : (b.modHart h g).hart h = g (b.hart h) := by
  simp [Body.modHart]

theorem Body.hart_modHart_ne (b : Body) {h k : Nat} (hk : k ≠ h) (g : Hart → Hart) :
    (b.modHart h g).hart k = b.hart k := Body.hart_setHart_ne b hk _

@[simp] theorem Body.core_setCore_self (b : Body) (c : Nat) (x : CoreSt) : (b.setCore c x).core c = x := by
  simp [Body.core, Body.setCore]

theorem Body.core_setCore_ne (b : Body) {c d : Nat} (hd : d ≠ c) (x : CoreSt) : (b.setCore c x).core d = b.core d :=
  mapGet_mapPut_ne _ hd _ _

@[simp] theorem Body.core_setHart (b : Body) (h : Nat) (x : Hart) (c : Nat) : (b.setHart h x).core c = b.core c := rfl
@[simp] theorem Body.core_modHart (b : Body) (h : Nat) (g : Hart → Hart) (c : Nat) :
    (b.modHart h g).core c = b.core c := rfl
@[simp] theorem Body.hart_setCore (b : Body) (c : Nat) (x : CoreSt) (h : Nat) : (b.setCore c x).hart h = b.hart h := rfl

/-- Register 0 reads 0 (R176). -/
@[simp] theorem Hart.reg_zero (x : Hart) : x.reg 0 = 0 := rfl

theorem Hart.reg_setReg (x : Hart) (r q : BitVec 5) (v : Word) :
    (x.setReg r v).reg q = if q = r ∧ r ≠ 0 then v else x.reg q := by
  unfold Hart.setReg Hart.reg
  by_cases hr : r = 0
  · simp [hr]
  · by_cases hq : q = 0
    · simp [hq]; intro h; exact absurd h.symm hr
    · simp only [hr, hq, if_false, mapGet_mapPut]
      by_cases h : q = r
      · subst h; rw [if_pos rfl, if_pos ⟨rfl, hr⟩]
      · have : q.toNat ≠ r.toNat := fun h' => h (BitVec.eq_of_toNat_eq h')
        simp [h, this]

/-! Object fields. -/

/-- A field read after it is written: the value, cut to the field's width. -/
@[simp] theorem Body.fget_fset_self (b : Body) (c i : Nat) (f : Fld) (v : Nat) :
    (b.fset c i f v).fget c i f = v % 2 ^ f.width := by
  simp [Body.fget, Body.fset, lowBits]

/-- A write leaves every field with another key. -/
theorem Body.fget_fset_ne (b : Body) {c i c' i' : Nat} {f f' : Fld} (h : fieldKey c i f.lo ≠ fieldKey c' i' f'.lo)
    (v : Nat) : (b.fset c' i' f' v).fget c i f = b.fget c i f :=
  mapGet_mapPut_ne _ h _ _

/-- Keys of fields are apart where class, instance or place are. -/
theorem fieldKey_inj {c i l c' i' l' : Nat} (hi : i < 2 ^ 24) (hi' : i' < 2 ^ 24) (hl : l < 2 ^ 16) (hl' : l' < 2 ^ 16)
    (h : fieldKey c i l = fieldKey c' i' l') : c = c' ∧ i = i' ∧ l = l' := by
  unfold fieldKey at h; omega

theorem Body.fget_bump_ne (b : Body) {c i c' i' : Nat} {f f' : Fld} (h : fieldKey c i f.lo ≠ fieldKey c' i' f'.lo)
    (k : Nat) : (b.bump c' i' f' k).fget c i f = b.fget c i f := Body.fget_fset_ne b h _

theorem Body.fget_bumpSat_ne (b : Body) {c i c' i' : Nat} {f f' : Fld} (h : fieldKey c i f.lo ≠ fieldKey c' i' f'.lo)
    (k : Nat) : (b.bumpSat c' i' f' k).fget c i f = b.fget c i f := Body.fget_fset_ne b h _

/-- A counter that has room rises by what it counts. -/
theorem Body.fget_bump_self (b : Body) (c i : Nat) (f : Fld) (k : Nat) (h : b.fget c i f + k < 2 ^ f.width) :
    (b.bump c i f k).fget c i f = b.fget c i f + k := by
  simp [Body.bump, addFree, h, Nat.mod_eq_of_lt h]

end Sys2Proof.Machine
end

