-- ==== Sys2Proof/Laws/Insn.lean ====
section
/-! SUPPORT. What an instruction that issues does: it reaches core commit with what its meaning changed, waits, breaks
or traps. Proofs about an instruction cite these and never unfold `Body.runInsn`. -/

namespace Sys2Proof.Machine

/-- An instruction that issues, decodes and is done reaches core commit. -/
theorem insn_done {s t : State} {h w n pc : Nat} {bad : Option Nat} {f : Time → Body → Effect} {b1 : Body}
    (hi : Issues s h n) (hb : bad = none) (hf : f s.tm (s.issued h) = .done b1 n pc) (ht : t = s.committed h b1 n pc) :
    insn h w bad f s = .next t := by
  subst hb; subst ht
  unfold State.issued at hf
  rcases hi with ⟨⟨h1, h0, h2 | h2⟩, h3⟩ <;> rw [State.Room] at h3 <;> simp [insn, onBody, Body.runInsn, h0, h1, h2, h3, hf, State.committed]

/-- The same for an instruction that may move buffers or records. -/
theorem insnBuf_done {s t : State} {h w n pc : Nat} {bad : Option Nat} {f : Time → Body → Effect} {b1 : Body}
    (hi : Issues s h n) (hb : bad = none) (hf : f s.tm (s.issued h) = .done b1 n pc)
    (ht : t = { s with b := (b1.coreCommit s.tm h n pc (s.b.hart h).regs).settle s.tm }) :
    insnBuf h w bad f s = .next t := by
  subst hb; subst ht
  unfold State.issued at hf
  rcases hi with ⟨⟨h1, h0, h2 | h2⟩, h3⟩ <;> rw [State.Room] at h3 <;> simp [insnBuf, onBuf, onBody, Body.runInsn, h0, h1, h2, h3, hf]

/-- An instruction that starts and fails a check of decode traps. -/
theorem insn_bad {s : State} {h w c : Nat} {bad : Option Nat} {f : Time → Body → Effect} (hi : Starts s h)
    (hb : bad = some c) : insn h w bad f s = .next { s with b := s.b.trapAt s.tm h w c 0 } := by
  subst hb
  rcases hi with ⟨h1, h0, h2 | h2⟩ <;> simp [insn, onBody, Body.runInsn, h0, h1, h2]

/-- An instruction that issues and traps in execution has no other effect (R175), but for the cycles that it waited for
its operands. -/
theorem insn_trap {s : State} {h w c a : Nat} {bad : Option Nat} {f : Time → Body → Effect} (hi : Issues s h)
    (hb : bad = none) (hf : f s.tm (s.issued h) = .trap c a) :
    insn h w bad f s = .next { s with b := (s.b.stall s.tm h).trapAt s.tm h w c a } := by
  subst hb
  unfold State.issued at hf
  rcases hi with ⟨⟨h1, h0, h2 | h2⟩, h3⟩ <;> rw [State.Room] at h3 <;> simp [insn, onBody, Body.runInsn, h0, h1, h2, h3, hf]

/-- An instruction that the cap or the handler's grace overtakes before its core commit is squashed (R51, R144). -/
theorem insn_overrun {s : State} {h w n pc : Nat} {bad : Option Nat} {f : Time → Body → Effect} {b1 : Body}
    (hi : Starts s h) (hr : s.b.tooLong h (s.b.waitOf s.tm h n + n) = true) (hb : bad = none)
    (hf : f s.tm (s.issued h) = .done b1 n pc) : insn h w bad f s = .next { s with b := s.b.runOut h } := by
  subst hb
  unfold State.issued at hf
  rcases hi with ⟨h1, h0, h2 | h2⟩ <;> simp [insn, onBody, Body.runInsn, h0, h1, h2, hf, hr]

/-- An instruction that must wait leaves the hart blocked. -/
theorem insn_wait {s : State} {h w : Nat} {k : Block} {bad : Option Nat} {f : Time → Body → Effect} (hi : Starts s h)
    (hb : bad = none) (hf : f s.tm (s.issued h) = .wait k) :
    insn h w bad f s = .next { s with b := s.b.modHart h (fun x => { x with block := k }) } := by
  subst hb
  unfold State.issued at hf
  rcases hi with ⟨h1, h0, h2 | h2⟩ <;> simp [insn, onBody, Body.runInsn, h0, h1, h2, hf]

@[simp] theorem State.issued_reg (s : State) (h : Nat) (r : BitVec 5) : (s.issued h).reg h r = s.b.reg h r := by
  simp [Body.reg, State.issued, Hart.reg]
@[simp] theorem State.issued_hart (s : State) (h : Nat) :
    (s.issued h).hart h = { s.b.hart h with block := .none } := by
  simp [State.issued]
@[simp] theorem State.issued_nextPc (s : State) (h : Nat) : (s.issued h).nextPc h = s.after h := by
  simp [Body.nextPc, State.after]
@[simp] theorem State.issued_ea (s : State) (h : Nat) (f : FmtM) :
    ({ s.b.hart h with block := Block.none } : Hart).ea f = (s.b.hart h).ea f := rfl
@[simp] theorem State.issued_place (s : State) (h a n : Nat) (r w : Bool) :
    (s.issued h).place h a n r w = s.b.place h a n r w := rfl
@[simp] theorem State.issued_mem (s : State) (h : Nat) : (s.issued h).mem = s.b.mem := rfl
@[simp] theorem State.issued_fget (s : State) (h c i : Nat) (f : Fld) : (s.issued h).fget c i f = s.b.fget c i f := rfl
@[simp] theorem State.issued_stamp (s : State) (h : Nat) : (s.issued h).stamp = s.b.stamp := rfl

/-- An ALU instruction that issues and decodes writes its result. -/
theorem insn_result {s : State} {h w n : Nat} {bad : Option Nat} {rd : BitVec 5} {g : Body → Word × Flags}
    (hi : Issues s h n) (hb : bad = none) :
    insn h w bad (fun _ b => b.result h rd n (g b)) s =
      .next (s.result h rd (g (s.issued h)).1 (g (s.issued h)).2 n) :=
  insn_done hi hb rfl (by simp [State.result])

end Sys2Proof.Machine
end

