-- ==== Sys2Proof/Laws/Time.lean ====
section
/-! SUPPORT. The time base: what some cycles add up to, the first cycle that reaches a time, and what keeps `Time.Inv`.
Proofs about waits and boundaries cite these and never unfold `slewSpan`. -/

namespace Sys2Proof.Machine

theorem lt_ceilDiv {n a d : Nat} (hd : 0 < d) : n < ceilDiv a d ↔ n * d < a := by
  unfold ceilDiv
  rw [Nat.lt_iff_add_one_le, Nat.le_div_iff_mul_le hd, Nat.add_mul]; omega

theorem slewSpan_add {r ppm : Nat} {rem : Int} (m n : Nat) (hd : 0 < slewPerCycle r ppm) (hr : slewPerCycle r ppm < r) :
    slewSpan r ppm rem (m + n) =
      ((slewSpan r ppm rem m).1 + (slewSpan r ppm (slewSpan r ppm rem m).2 n).1,
        (slewSpan r ppm (slewSpan r ppm rem m).2 n).2) := by
  unfold slewSpan
  generalize slewPerCycle r ppm = d at *
  by_cases h0 : rem = 0
  · simp [h0, Nat.add_mul]
  simp only [h0, if_false, lt_ceilDiv hd]
  by_cases h1 : 0 < rem
  · obtain ⟨a, rfl⟩ : ∃ a : Nat, rem = a := ⟨rem.toNat, by omega⟩
    simp only [h1, if_true, Int.natAbs_natCast]
    by_cases h2 : m * d < a
    · simp only [h2, if_true]
      have e : ((a : Int) - m * d) = ((a - m * d : Nat) : Int) := by
        rw [Nat.cast_sub (le_of_lt h2)]; push_cast; ring
      rw [e]
      have h3 : ((a - m * d : Nat) : Int) ≠ 0 := by omega
      have h4 : (0 : Int) < ((a - m * d : Nat) : Int) := by omega
      simp only [h3, if_false, h4, if_true, Int.natAbs_natCast]
      by_cases h5 : (m + n) * d < a
      · have h6 : n * d < a - m * d := by rw [Nat.add_mul] at h5; omega
        simp only [h5, h6, if_true]
        refine Prod.ext ?_ ?_
        · simp only []; ring
        · simp only []; rw [← e]; push_cast; ring
      · have h6 : ¬ n * d < a - m * d := by rw [Nat.add_mul] at h5; omega
        simp only [h5, h6, if_false]
        refine Prod.ext ?_ rfl
        simp only []
        have h7 := le_of_lt h2
        have : (((m + n) * r : Nat) + (a : Int)).toNat = (m + n) * r + a := by omega
        rw [this]
        have : ((n * r : Nat) + ((a - m * d : Nat) : Int)).toNat = n * r + (a - m * d) := by omega
        rw [this]
        have h8 : a = (a - m * d) + m * d := by omega
        have h9 : m * (r + d) = m * r + m * d := by ring
        have h10 : (m + n) * r = m * r + n * r := by ring
        omega
    · have h5 : ¬ (m + n) * d < a := by rw [Nat.add_mul]; omega
      simp only [h2, h5, if_false]
      refine Prod.ext ?_ rfl
      simp only [if_true]
      have h10 : (m + n) * r = m * r + n * r := by ring
      omega
  · obtain ⟨a, rfl⟩ : ∃ a : Nat, rem = -(a : Int) := ⟨(-rem).toNat, by omega⟩
    have ha : 0 < a := by omega
    simp only [h1, if_false, Int.natAbs_neg, Int.natAbs_natCast]
    by_cases h2 : m * d < a
    · simp only [h2, if_true]
      have e : (-(a : Int) + m * d) = -((a - m * d : Nat) : Int) := by
        rw [Nat.cast_sub (le_of_lt h2)]; push_cast; ring
      rw [e]
      have h3 : -((a - m * d : Nat) : Int) ≠ 0 := by omega
      have h4 : ¬ (0 : Int) < -((a - m * d : Nat) : Int) := by omega
      simp only [h3, if_false, h4, Int.natAbs_neg, Int.natAbs_natCast]
      have h12 : m * (r - d) = m * r - m * d := Nat.mul_sub _ _ _
      have h13 : m * d ≤ m * r := Nat.mul_le_mul_left _ (by omega)
      by_cases h5 : (m + n) * d < a
      · have h6 : n * d < a - m * d := by rw [Nat.add_mul] at h5; omega
        simp only [h5, h6, if_true]
        refine Prod.ext ?_ ?_
        · simp only []; ring
        · simp only []; rw [← e]; push_cast; ring
      · have h6 : ¬ n * d < a - m * d := by rw [Nat.add_mul] at h5; omega
        simp only [h5, h6, if_false]
        refine Prod.ext ?_ rfl
        simp only []
        have h10 : (m + n) * r = m * r + n * r := by ring
        have h14 : n * d ≤ n * r := Nat.mul_le_mul_left _ (by omega)
        omega
    · have h5 : ¬ (m + n) * d < a := by rw [Nat.add_mul]; omega
      simp only [h2, h5, if_false]
      refine Prod.ext ?_ rfl
      simp only [if_true]
      have h10 : (m + n) * r = m * r + n * r := by ring
      have h13 : m * d ≤ m * r := Nat.mul_le_mul_left _ (by omega)
      omega

/-- One cycle advances by less than twice its increment, and by at least one unit. -/
theorem slewSpan_one {r ppm : Nat} {rem : Int} (hd : 0 < slewPerCycle r ppm) (hr : slewPerCycle r ppm < r) :
    r - slewPerCycle r ppm ≤ (slewSpan r ppm rem 1).1 ∧ (slewSpan r ppm rem 1).1 ≤ r + slewPerCycle r ppm := by
  unfold slewSpan
  generalize slewPerCycle r ppm = d at *
  simp only [lt_ceilDiv hd, Nat.one_mul]
  split
  · simp
  · split
    · split
      · constructor <;> simp only [] <;> omega
      · constructor <;> simp only [] <;> omega
    · constructor <;> simp only [] <;> omega

theorem slewSpan_zero {r ppm : Nat} {rem : Int} (hd : 0 < slewPerCycle r ppm) : slewSpan r ppm rem 0 = (0, rem) := by
  unfold slewSpan
  generalize slewPerCycle r ppm = d at *
  simp only [lt_ceilDiv hd]
  split
  · simp_all
  · split
    · split <;> simp
    · omega

/-- The span of more cycles is longer. -/
theorem slewSpan_lt {r ppm : Nat} {rem : Int} {m n : Nat} (hd : 0 < slewPerCycle r ppm) (hr : slewPerCycle r ppm < r)
    (h : m < n) : (slewSpan r ppm rem m).1 < (slewSpan r ppm rem n).1 := by
  induction n with
  | zero => omega
  | succ k ih =>
    rw [slewSpan_add k 1 hd hr]
    have h1 := (slewSpan_one (rem := (slewSpan r ppm rem k).2) hd hr).1
    rcases Nat.lt_succ_iff_lt_or_eq.mp h with h2 | h2
    · have := ih h2; simp only []; omega
    · subst h2; simp only []; omega

theorem ceilDiv_le {n a d : Nat} (hd : 0 < d) : ceilDiv a d ≤ n ↔ a ≤ n * d := by
  have := lt_ceilDiv (n := n) (a := a) hd
  omega


/-- The shape of a count in two phases: `p` for each of the first `k`, then `r` for each. -/
theorem twoPhase {r p k dn n : Nat} {T : Nat → Nat} (hp : 0 < p) (hr : 0 < r) (hT : ∀ n, k ≤ n → T n = T k + (n - k) * r)
    (hlo : ∀ j, j < k → j * p ≤ T k) :
    n < (if ceilDiv dn p < k then ceilDiv dn p else k + ceilDiv (dn - T k) r) ↔ (if n < k then n * p else T n) < dn := by
  split
  · rename_i h1
    split
    · rw [lt_ceilDiv hp]
    · rename_i h2
      have h3 : dn ≤ ceilDiv dn p * p := (ceilDiv_le hp).mp (le_refl _)
      have h4 := hlo _ h1
      have h5 := hT n (by omega)
      constructor <;> intro h6
      · omega
      · have : 0 ≤ (n - k) * r := Nat.zero_le _
        omega
  · rename_i h1
    split
    · rename_i h2
      have h3 : n < ceilDiv dn p := by omega
      rw [lt_ceilDiv hp] at h3
      constructor <;> intro _ <;> omega
    · rename_i h2
      have h3 := lt_ceilDiv (n := n - k) (a := dn - T k) hr
      have h5 := hT n (by omega)
      have : n < k + ceilDiv (dn - T k) r ↔ n - k < ceilDiv (dn - T k) r := by omega
      rw [this, h3, h5]; omega

theorem spanCount_spec {r ppm : Nat} {rem : Int} {dn : Nat} (hd : 0 < slewPerCycle r ppm) (hr : slewPerCycle r ppm < r) (n : Nat) :
    n < spanCount r ppm rem dn ↔ (slewSpan r ppm rem n).1 < dn := by
  unfold spanCount slewSpan
  generalize slewPerCycle r ppm = d at *
  by_cases h0 : rem = 0
  · simp [h0, lt_ceilDiv (show 0 < r by omega)]
  simp only [h0, if_false]
  obtain ⟨k, hk⟩ : ∃ k, ceilDiv rem.natAbs d = k := ⟨_, rfl⟩
  have hk1 : rem.natAbs ≤ k * d := by rw [← ceilDiv_le hd]; omega
  have hk2 : ∀ j, j < k → j * d < rem.natAbs := by intro j hj; rw [← lt_ceilDiv hd]; omega
  rw [hk]
  have hkr : k * d ≤ k * r := Nat.mul_le_mul_left _ (by omega)
  have hT : ∀ n, k ≤ n → (((n * r : Nat) : Int) + rem).toNat = (((k * r : Nat) : Int) + rem).toNat + (n - k) * r := by
    intro n hn
    have : n * r = k * r + (n - k) * r := by rw [← Nat.add_mul]; congr 1; omega
    omega
  by_cases h1 : 0 < rem
  · simp only [h1, if_true]
    have := twoPhase (r := r) (p := r + d) (k := k) (dn := dn) (n := n) (T := fun n => (((n * r : Nat) : Int) + rem).toNat)
      (by omega) (by omega) hT (by
        intro j hj
        have h2 := hk2 j hj
        have h3 : j * r ≤ k * r := Nat.mul_le_mul_right _ (by omega)
        have h4 : j * (r + d) = j * r + j * d := by ring
        omega)

    rw [this]
    split <;> rfl
  · simp only [h1, if_false]
    have := twoPhase (r := r) (p := r - d) (k := k) (dn := dn) (n := n) (T := fun n => (((n * r : Nat) : Int) + rem).toNat)
      (by omega) (by omega) hT (by
        intro j hj
        have h2 := hk2 j hj
        have h3 : (j + 1) * r ≤ k * r := Nat.mul_le_mul_right _ (by omega)
        have h5 : (k - 1) * d < rem.natAbs := hk2 _ (by omega)
        have h6 : j * (r - d) = j * r - j * d := Nat.mul_sub _ _ _
        have h7 : k * r - k * d = k * (r - d) := (Nat.mul_sub _ _ _).symm
        have h8 : (j + 1) * (r - d) ≤ k * (r - d) := Nat.mul_le_mul_right _ (by omega)
        have h9 : (j + 1) * (r - d) = j * (r - d) + (r - d) := by ring
        omega)

    rw [this]
    split <;> rfl

theorem slewSpan_le {r ppm : Nat} {rem : Int} (hd : 0 < slewPerCycle r ppm) (hr : slewPerCycle r ppm < r) (n : Nat) :
    (slewSpan r ppm rem n).1 ≤ n * (r + slewPerCycle r ppm) := by
  induction n with
  | zero => simp [slewSpan_zero hd]
  | succ k ih =>
    rw [slewSpan_add k 1 hd hr]
    have h1 := (slewSpan_one (rem := (slewSpan r ppm rem k).2) hd hr).2
    have : (k + 1) * (r + slewPerCycle r ppm) = k * (r + slewPerCycle r ppm) + (r + slewPerCycle r ppm) := by ring
    simp only []; omega

/-- The bounds of R34 and R35 on one cycle. -/
theorem slew_bounds {r ppm : Nat} (h1 : 2861879875 ≤ r) (h2 : r ≤ 15 * 2864743187) (h3 : 1 ≤ ppm) (h4 : ppm ≤ 500) :
    0 < slewPerCycle r ppm ∧ slewPerCycle r ppm < r ∧ r + slewPerCycle r ppm < 2 ^ 36 := by
  unfold slewPerCycle
  have h5 : r * ppm ≤ r * 500 := Nat.mul_le_mul_left _ h4
  have h6 : r * 1 ≤ r * ppm := Nat.mul_le_mul_left _ h3
  refine ⟨?_, ?_, ?_⟩ <;> omega

/-- A time base has reached a time when it lies less than half a turn ahead. -/
theorem timeReached_iff (a c : Nat) (hc : c < 2 ^ 64) : timeReached (a % 2 ^ 80 / 2 ^ 16 % 2 ^ 64) c = true ↔ (a % 2 ^ 80 + 2 ^ 80 - c * 2 ^ 16) % 2 ^ 80 < 2 ^ 79 := by
  have h1 : a % 2 ^ 80 < 2 ^ 80 := Nat.mod_lt _ (by decide)
  generalize a % 2 ^ 80 = x at *
  unfold timeReached
  rw [decide_eq_true_iff]
  unfold timeDiff signedOf
  split <;> omega

/-- A counter stays in its width. -/
theorem addFree_lt (w v k : Nat) : addFree w v k < 2 ^ w := by
  unfold addFree lowBits
  split
  · assumption
  · exact Nat.mod_lt _ (Nat.two_pow_pos _)

/-- Cycles keep the invariant. -/
theorem Time.Inv.advance {t : Time} {r n : Nat} (h : t.Inv) (h1 : 2861879875 ≤ r) (h2 : r ≤ 15 * 2864743187) :
    (t.advance r n).Inv := by
  obtain ⟨hd, hr, -⟩ := slew_bounds h1 h2 h.ppm.1 h.ppm.2
  have hs : -(2 ^ 31) * 2 ^ 32 ≤ (slewSpan r t.slewPpm t.slewRem n).2 ∧
      (slewSpan r t.slewPpm t.slewRem n).2 ≤ (2 ^ 31 - 1) * 2 ^ 32 := by
    have := h.slew
    unfold slewSpan
    generalize slewPerCycle r t.slewPpm = d at *
    simp only [lt_ceilDiv hd]
    have hn : (0 : Int) ≤ n * d := by positivity
    split
    · simp
    · split
      · rename_i h4
        have : ((n * d : Nat) : Int) < t.slewRem.natAbs := by exact_mod_cast h4
        push_cast at this
        split <;> simp only [] <;> omega
      · simp
  exact { h with
    tb := Nat.mod_lt _ (by decide)
    era := addFree_lt _ _ _
    slew := hs
    grid := h.grid }

theorem now_lt (t : Time) : t.now < 2 ^ 64 := by
  unfold Time.now; exact Nat.mod_lt _ (by decide)

/-- A time without its modulus is that time modulo 2^64. -/
theorem Time.fullOf_emod (t : Time) (x : Nat) : t.fullOf x % 2 ^ 64 = (x % 2 ^ 64 : Nat) := by
  have hn := now_lt t
  unfold Time.fullOf timeDiff signedOf
  generalize t.now = a at *
  split <;> omega

/-- Re-arming keeps the invariant. -/
theorem Time.Inv.rearm {t : Time} (h : t.Inv) : t.rearm.Inv :=
  { h with
    change := Nat.zero_le _
    grids := by simp [Time.rearm]
    grid := ⟨_, _, rfl, rfl, 0, by
      have hn := now_lt t
      simp only [Time.rearm, Nat.zero_mul]
      generalize (if timeDiff t.now t.anchor < 0 then 0 else ceilDiv (timeDiff t.now t.anchor).toNat t.period16) = k
      generalize t.anchor + k * t.period16 = a
      omega, by simp [Time.rearm]⟩ }

/-- A step of the time base keeps the invariant. -/
theorem Time.Inv.step {t : Time} (h : t.Inv) (v : Int) : (t.step v).Inv := by
  refine Time.Inv.rearm { h with tb := ?_, era := ?_ }
  · have := Int.emod_lt_of_pos (t.tb + v * 2 ^ 16) (show (0 : Int) < 2 ^ 80 by decide)
    have := Int.emod_nonneg (t.tb + v * 2 ^ 16) (show (2 ^ 80 : Int) ≠ 0 by decide)
    simp only []; omega
  · have := h.era
    simp only []
    split
    · split
      · exact Nat.mod_lt _ (by decide)
      · omega
    · exact addFree_lt _ _ _

/-- A boundary keeps the invariant. -/
theorem Time.Inv.cut {t : Time} (h : t.Inv) : t.cut.Inv := by
  obtain ⟨g, r, hg, hp, n, h1, h2⟩ := h.grid
  have hb : t.nextBoundary < 2 ^ 64 := by omega
  have ht : t.nextTick < 2 ^ 32 := by rw [h2]; exact Nat.mod_lt _ (by decide)
  unfold Time.cut
  simp only []
  split
  · exact { h with
      tick := ht, bound := hb, period := h.periodNext, change := by simp
      grids := by simp
      grid := ⟨_, _, rfl, rfl, 1, by
        have hf := Time.fullOf_emod { t with tickNumber := t.nextTick, boundary := t.nextBoundary } t.nextBoundary
        simp only [Time.period16, Nat.one_mul] at hf ⊢
        generalize Time.fullOf _ _ = a at *
        generalize t.periodNext * 2 ^ 16 = p
        omega, by simp⟩ }
  · exact { h with
      tick := ht, bound := hb
      grid := ⟨g, r, hg, hp, n + 1, by
        simp only [Time.period16] at h1 ⊢
        have e : (n + 1) * (t.period * 2 ^ 16) = n * (t.period * 2 ^ 16) + t.period * 2 ^ 16 := by ring
        rw [e]
        generalize n * (t.period * 2 ^ 16) = m at *
        generalize t.period * 2 ^ 16 = p at *
        omega,
        by simp only []; rw [h2]; omega⟩ }

end Sys2Proof.Machine
end

