-- ==== Sys2Proof/Laws/Kept.lean ====
section
/-! SUPPORT. `Time.Inv` through waits, boundaries and object writes: what proofs about commands cite. -/

namespace Sys2Proof.Machine

/-- A command that works on time and body keeps the invariant if its work does. -/
theorem onDev_inv {f : Dev → Dev} {s t : State} (hf : ∀ d : Dev, d.tm.Inv → (f d).tm.Inv) (h : onDev f s = .next t)
    (hi : s.tm.Inv) : t.tm.Inv := by
  unfold onDev at h
  injection h with h; subst h
  exact hf ⟨s.tm, s.b⟩ hi

theorem clockRate_bounds {t : Time} (h : t.Inv) (a : Bool) : 2861879875 ≤ clockRate t a ∧ clockRate t a ≤ 15 * 2864743187 := by
  have := h.rate
  unfold clockRate; split <;> omega

/-! Waits and boundaries. -/

theorem wait_inv {d : Dev} (h : d.tm.Inv) (n : Nat) : (d.wait n).tm.Inv := by
  unfold Dev.wait
  split
  · exact h
  · exact h.advance (clockRate_bounds h _).1 (clockRate_bounds h _).2
theorem waitUntil_inv {d : Dev} (h : d.tm.Inv) (n : Nat) : (d.waitUntil n).tm.Inv := wait_inv h _
theorem waitPast_inv {d : Dev} (h : d.tm.Inv) (n : Nat) : (d.waitPast n).tm.Inv := wait_inv h _
theorem waitCycle_inv {d : Dev} (h : d.tm.Inv) (n : Nat) : (d.waitCycle n).tm.Inv := wait_inv h _
theorem boundary_inv {d : Dev} (h : d.tm.Inv) : d.boundary.tm.Inv := by
  unfold Dev.boundary
  split
  · exact h
  · exact (waitPast_inv h _).cut

/-- The invariant speaks of these fields only. -/
theorem Time.Inv.same {t u : Time} (h : t.Inv) (h1 : u.tb = t.tb) (h2 : u.era = t.era) (h3 : u.rate = t.rate)
    (h4 : u.slewRem = t.slewRem) (h5 : u.slewPpm = t.slewPpm) (h6 : u.period = t.period) (h7 : u.periodNext = t.periodNext)
    (h8 : u.pendingChange = t.pendingChange) (h9 : u.tickNumber = t.tickNumber) (h10 : u.boundary = t.boundary)
    (h11 : u.nextBoundary = t.nextBoundary) (h12 : u.nextTick = t.nextTick) (h13 : u.grids = t.grids) : u.Inv := by
  obtain ⟨a1, a2, a3, a4, a5, a6, a7, a8, a9, a10, a11, a12⟩ := h
  constructor
  · rw [h1]; exact a1
  · rw [h2]; exact a2
  · rw [h3]; exact a3
  · rw [h4]; exact a4
  · rw [h5]; exact a5
  · rw [h6]; exact a6
  · rw [h7]; exact a7
  · rw [h8]; exact a8
  · rw [h9]; exact a9
  · rw [h10]; exact a10
  · rw [h13]; exact a11
  · rw [h13, h11, h12, h6, Time.period16, h6]; exact a12

/-! Writes of TICK[0]. -/

theorem rate_inv {t : Time} (h : t.Inv) (v : Nat) : (t.writeRate v).2.Inv := by
  unfold Time.writeRate; split
  · rename_i h1; exact { h with rate := h1, grid := h.grid }
  · exact h
theorem slew_inv {t : Time} (h : t.Inv) (v : Nat) : (t.writeSlew v).2.Inv := by
  unfold Time.writeSlew; simp only []; split
  · rename_i h1; exact { h with slew := h1, grid := h.grid }
  · exact h
theorem step_inv {t : Time} (h : t.Inv) (c v : Nat) : (t.writeStep c v).2.Inv := by
  unfold Time.writeStep; split
  · exact h.step _
  · exact h
theorem arm_inv {t : Time} (h : t.Inv) (c : Nat) : (t.writeArm c).2.Inv := by
  unfold Time.writeArm; split
  · exact h.rearm
  · exact h
theorem pn_inv {t : Time} (h : t.Inv) (c : Nat) : (t.writePeriodNext c).2.Inv := by
  unfold Time.writePeriodNext; split
  · exact h
  · split
    · exact h
    · exact { h with periodNext := by simp only []; omega, grid := h.grid }
theorem change_inv {t : Time} (h : t.Inv) (v : Nat) : ({ t with applyTick := v, pendingChange := 1 } : Time).Inv :=
  { h with change := Nat.le_refl _, grid := h.grid }
theorem ite_inv {p : Prop} [Decidable p] {a b : Nat × Time} (h1 : p → a.2.Inv) (h2 : ¬ p → b.2.Inv) :
    (if p then a else b).2.Inv := by
  split
  · exact h1 ‹_›
  · exact h2 ‹_›
theorem at_inv {t : Time} (h : t.Inv) (c : Nat) : (t.writeApplyTick c).2.Inv := by
  unfold Time.writeApplyTick
  exact ite_inv (fun _ => h) (fun _ => ite_inv (fun _ => h) (fun _ => change_inv h _))
theorem ppsn_inv {t : Time} (h : t.Inv) (c : Nat) : (t.writePpsNext c).Inv := by
  unfold Time.writePpsNext; exact h.same rfl rfl rfl rfl rfl rfl rfl rfl rfl rfl rfl rfl rfl
theorem ppse_inv {t : Time} (h : t.Inv) (c : Nat) : (t.writePpsEn c).Inv := by
  unfold Time.writePpsEn; split <;> exact h.same rfl rfl rfl rfl rfl rfl rfl rfl rfl rfl rfl rfl rfl
theorem unhold_inv {t : Time} (h : t.Inv) : t.unhold.Inv := h.same rfl rfl rfl rfl rfl rfl rfl rfl rfl rfl rfl rfl rfl

/-- A word written over a field that starts at its bit 0 leaves a value of the field's width. -/
theorem splice_lt {f : Fld} {off w v : Nat} (hv : v < 2 ^ f.width) (h1 : f.lo = 32 * off) (h2 : f.width ≤ 32) :
    f.splice off w v < 2 ^ f.width := by
  unfold Fld.splice setBits Fld.lowIn Fld.bitsIn bitsAt
  have e1 : 32 * off - f.lo = 0 := by omega
  have e2 : min (f.lo + f.width) (32 * off + 32) - max f.lo (32 * off) = f.width := by omega
  rw [e1, e2]
  simp only [Nat.pow_zero, Nat.div_one, Nat.mul_one]
  rw [Nat.mod_eq_of_lt hv]
  have := Nat.mod_lt (w / 2 ^ (f.lo - 32 * off)) (Nat.two_pow_pos f.width)
  omega


theorem put_inv {w : Wr} {f : Fld} {g : Time → Nat → Time} {t : Time} (h : t.Inv)
    (hg : w.hit f = true → (g t (w.next f)).Inv) :
    (w.put f g t).Inv := by
  unfold Wr.put
  split
  · exact hg ‹_›
  · exact h

/-- What a word that writes a field says of it. -/
theorem hit_word {w : Wr} {f : Fld} (h : w.hit f = true) : f.inWordOf w.off = true ∧ w.acc f = .rw := by
  simp [Wr.hit, Wr.hits] at h
  exact h.1

/-- No later word changes a field that ends in this one. -/
theorem leaves_of_ends {w : Wr} {f : Fld} (h : f.lo + f.width ≤ 32 * (w.off + 1)) : w.leaves f = w.next f := by
  unfold Wr.leaves
  induction w.later with
  | nil => rfl
  | cons e r ih =>
    rw [List.foldl_cons, if_neg]
    · exact ih
    · rintro ⟨h1, h2⟩
      simp only [Fld.inWordOf, decide_eq_true_eq] at h2
      omega

theorem era_lt {w : Wr} (hw : w.cls = clsTick ∧ w.inst = 0) (h : w.d.tm.Inv) (h1 : w.hit FTick.era = true) :
    w.next FTick.era < 2 ^ 32 := by
    have h2 := (hit_word h1).1
    have h3 : w.off = 2 := by
      unfold Fld.inWordOf at h2; rw [decide_eq_true_iff] at h2; simp only [FTick.era] at h2; omega
    have h4 : w.old FTick.era = w.d.tm.era := by
      simp [Wr.old, Dev.view, hw, clsTick, Time.field, FTick.era, FTick.time]
    unfold Wr.next
    rw [if_pos h2, h4, h3]
    exact splice_lt (f := FTick.era) h.era (by decide) (by decide)
theorem ppm_range {w : Wr} (hw : w.cls = clsTick ∧ w.inst = 0) (h1 : w.hit FTick.slewPpm = true) (hr : w.inRange = true) :
    1 ≤ w.next FTick.slewPpm ∧ w.next FTick.slewPpm ≤ 500 := by
    have h2 := hit_word h1
    have h3 : w.off = 9 := by have h2 := h2.1; unfold Fld.inWordOf at h2; rw [decide_eq_true_iff] at h2; simp only [FTick.slewPpm] at h2; omega
    have h5 : FTick.slewPpm ∈ w.fields := by
      unfold Wr.fields; rw [hw.1, hw.2, h3]; decide
    have h7 := List.all_eq_true.mp hr _ h5
    rw [Bool.or_eq_true] at h7
    have h8 := h7.resolve_left (by simp [h2.2])
    have h9 : ∀ v, FTick.slewPpm.inRange v = true → 1 ≤ v ∧ v ≤ 500 := by
      intro v hv
      simp [Fld.inRange, FTick.slewPpm] at hv
      exact ⟨of_decide_eq_true hv.1.1, hv.1.2⟩
    rw [leaves_of_ends (by rw [h3]; decide)] at h8
    exact h9 _ h8
theorem era_inv {t : Time} (h : t.Inv) {v : Nat} (hv : v < 2 ^ 32) : ({ t with era := v } : Time).Inv :=
  { h with era := hv, grid := h.grid }
theorem ppm_inv {t : Time} (h : t.Inv) {v : Nat} (hv : 1 ≤ v ∧ v ≤ 500) : ({ t with slewPpm := v } : Time).Inv :=
  { h with ppm := hv, grid := h.grid }

theorem putNarrow_inv {w : Wr} (hw : w.cls = clsTick ∧ w.inst = 0) (h : w.d.tm.Inv) (hr : w.inRange = true) :
    (w.putNarrow w.d.tm).Inv := by
  unfold Wr.putNarrow
  simp only []
  have keep : ∀ {f : Fld} {g : Time → Nat → Time} {t : Time}, t.Inv → (∀ x v, x.Inv → (g x v).Inv) → (w.put f g t).Inv :=
    fun h1 h2 => put_inv h1 (fun _ => h2 _ _ h1)
  have h1 := put_inv (w := w) (f := FTick.era) (g := fun x v => { x with era := v }) h
    (fun h1 => era_inv h (era_lt hw h h1))
  have h2 := put_inv (w := w) (f := FTick.slewPpm) (g := fun x v => { x with slewPpm := v }) h1
    (fun h2 => ppm_inv h1 (ppm_range hw h2 hr))
  have plain : ∀ (x u : Time), x.Inv → u = { x with
      syncState := u.syncState, ppsOutPeriod := u.ppsOutPeriod, ppsOutWidth := u.ppsOutWidth
      ppsInEn := u.ppsInEn, anchorTick := u.anchorTick } → u.Inv := by
    intro x u hx hu
    rw [hu]
    exact hx.same rfl rfl rfl rfl rfl rfl rfl rfl rfl rfl rfl rfl rfl
  exact keep (keep (keep (keep (keep (keep h2 (fun x _ hx => plain x _ hx rfl)) (fun x _ hx => plain x _ hx rfl))
    (fun x _ hx => plain x _ hx rfl)) (fun _ _ hx => ppse_inv hx _)) (fun x _ hx => plain x _ hx rfl))
    (fun x _ hx => plain x _ hx rfl)

theorem writeNarrow_inv {w : Wr} (hw : w.cls = clsTick ∧ w.inst = 0) (h : w.d.tm.Inv) : w.writeNarrow.2.Inv := by
  unfold Wr.writeNarrow
  refine ite_inv (fun _ => arm_inv h _) (fun _ => ite_inv (fun _ => h) (fun hr => ite_inv (fun _ => slew_inv h _)
    (fun _ => ite_inv (fun _ => pn_inv h _) (fun _ => ite_inv (fun _ => at_inv h _) (fun _ => ?_)))))
  exact putNarrow_inv hw h (by
      cases hr' : w.inRange
      · exact absurd (by rw [hr']; rfl) hr
      · rfl)

theorem writeWide_inv {t : Time} (h : t.Inv) (c v : Nat) (f : Fld) : (t.writeWide c f v).2.Inv := by
  unfold Time.writeWide
  exact ite_inv (fun _ => rate_inv h _) (fun _ => ite_inv (fun _ => step_inv h _ _) (fun _ => ite_inv (fun _ => ppsn_inv h _)
    (fun _ => h.same rfl rfl rfl rfl rfl rfl rfl rfl rfl rfl rfl rfl rfl)))

theorem writeTick_inv {w : Wr} (hw : w.cls = clsTick ∧ w.inst = 0) (h : w.d.tm.Inv) : w.writeTick.2.Inv := by
  unfold Wr.writeTick
  split
  · split
    · exact h.same rfl rfl rfl rfl rfl rfl rfl rfl rfl rfl rfl rfl rfl
    · exact unhold_inv (writeWide_inv h _ _ _)
  · exact unhold_inv (writeNarrow_inv hw h)

theorem write_inv {w : Wr} (h : w.d.tm.Inv) : w.write.2.tm.Inv := by
  unfold Wr.write
  split
  · rename_i h1; simp [isTick] at h1; exact writeTick_inv h1 h
  · split
    · exact h
    · exact h

theorem writeWords_inv {au : Auth} {cls inst : Nat} : ∀ (ws : List Nat) (off i : Nat) (d : Dev), d.tm.Inv →
    (Dev.writeWords au cls inst off i ws d).2.2.tm.Inv := by
  intro ws
  induction ws with
  | nil => intro off i d h; exact h
  | cons x r ih =>
    intro off i d h
    unfold Dev.writeWords
    simp only []
    have h1 : (if lastWord cls inst < off then (stOutOfRange, d)
        else (Wr.mk d au cls inst off x (wordsAt (off + 1) r)).write).2.tm.Inv := by
      split
      · exact h
      · exact write_inv h
    generalize (if lastWord cls inst < off then (stOutOfRange, d)
      else (Wr.mk d au cls inst off x (wordsAt (off + 1) r)).write) = y at h1 ⊢
    split
    · exact ih _ _ _ h1
    · exact h1

/-- An object write keeps the invariant of the time base. -/
theorem objWrite_inv {d : Dev} (h : d.tm.Inv) (au : Auth) (cls inst off : Nat) (ws : List Nat) :
    (d.objWrite au cls inst off ws).2.2.tm.Inv := by
  unfold Dev.objWrite
  simp only []
  split
  · exact h
  · split
    · split
      · exact h
      · split
        · exact writeWords_inv _ _ _ _ h
        · split
          · exact unhold_inv h
          · exact h
    · exact h

end Sys2Proof.Machine
end

