-- ==== Sys2Proof/Laws/Runnel.lean ====
section
/-! SUPPORT. What a Runnel instruction of a thread that holds a context does: it reaches core commit with what its
operation left in the context. Proofs about an operation cite these and never unfold `runnelInsn`. -/

namespace Sys2Proof.Machine

theorem psel_ok {p : BitVec 4} (h : selectAllowed p) : pselBad p = false := by
  revert p; unfold selectAllowed pselBad; decide

@[simp] theorem State.issued_ctx (s : State) (h k x : Nat) : (s.issued h).ctx k x = s.b.ctx k x := rfl
@[simp] theorem State.issued_contextOf (s : State) (h k : Nat) : (s.issued h).contextOf k = s.b.contextOf k := rfl

/-- A Runnel instruction without a bad field, of a thread that holds a context, does what its operation says. -/
theorem runnel_ok {s : State} {h x n : Nat} (hc : HoldsContext s h x n) {ma mi : Nat} {f : FmtE} {r : Bool}
    {e : Body → Nat → RCtx → Effect} {b1 : Body} {pc : Nat} (hr : r = false) (hp : pselBad f.ep = false) (h0 : f.rsv = 0)
    (he : e (s.issued h) x (s.b.ctx h x) = .done b1 n pc) :
    runnelInsn h ma mi f false r e s = .next (s.committed h b1 n pc) := by
  have hl := hc.plane
  refine insn_done hc.issues (by subst hr; simp [runnelBad, badWord, hp, h0]; omega) (b1 := b1) (n := n) (pc := pc) ?_ rfl
  simp only [State.issued_contextOf, hc.held]; exact he

theorem lane_lt (v n : Nat) : laneOf 10 v n < 1024 := Nat.mod_lt _ (by decide)

/-- The number of a code in S10 or U10. -/
theorem sampleOf_eq (u : Bool) (c : Nat) (h : c < 1024) :
    sampleOf u c = if u || decide (c < 512) then (c : Int) else c - 1024 := by
  cases u <;> simp [sampleOf, signedOf, Nat.mod_eq_of_lt h]

/-- An operation on lanes writes its results to the selected lanes of rd. -/
theorem rlane_ok {s : State} {h x mi : Nat} {f : FmtE} {raw one : Bool} {g : RCtx → Bool → Nat → Nat → LaneOut}
    {k : Nat → LaneOut} (hc : HoldsContext s h x)
    (hr : ((raw && f.e != 0) || (one && f.rb != 0)) = false) (hp : pselBad f.ep = false) (h0 : f.rsv = 0)
    (hg : ∀ n, g (s.b.ctx h x) (f.e == 1) (laneOf 10 ((s.b.ctx h x).sreg f.ra.toNat) n)
      (laneOf 10 ((s.b.ctx h x).sreg f.rb.toNat) n) = k n) :
    rlane h mi f raw one g s =
      .next (s.runnel h x ((s.b.ctx h x).writeSamples f.rd.toNat f.ep.toNat k)) := by
  unfold rlane
  rw [show k = fun n => k n from rfl, ← funext hg]
  refine runnel_ok hc hr hp h0 ?_
  simp [Body.ctxDone]

end Sys2Proof.Machine
end

