-- ==== Sys2Proof/Laws/Settle.lean ====
section
/-! SUPPORT. What `Body.settle` can do: it empties recirculation queues, counts and sends flow control and counts the
waits of R245. Everything else of the device stays. -/

namespace Sys2Proof.Machine

/-- Fields of different places have different keys. -/
theorem fieldKey_ne {c i l c' i' l' : Nat} (hi : i < 2 ^ 24) (hi' : i' < 2 ^ 24) (hl : l < 2 ^ 16) (hl' : l' < 2 ^ 16)
    (h : c ≠ c' ∨ i ≠ i' ∨ l ≠ l') : fieldKey c i l ≠ fieldKey c' i' l' := by
  intro e
  have := fieldKey_inj hi hi' hl hl' e
  omega

/-- `c` is `b` but for its fields of PORT and of the classes from QUEUE on, its queues, its items at the Outfall, its
egress state and its outputs. (Queues and tents that wait are data, so in a state that no run reaches one may stand for
a field of a later class.) -/
structure SettledFrom (b c : Body) : Prop where
  latches : c.latches = b.latches
  sys : c.sys = b.sys
  mem : c.mem = b.mem
  isa : c.isa = b.isa
  bufs : c.work.bufs = b.work.bufs
  slots : c.work.slots = b.work.slots
  records : c.work.records = b.work.records
  drafts : c.work.drafts = b.work.drafts
  sync : c.sync = b.sync
  drm : c.drm = b.drm
  tab : c.tab = b.tab
  bas : c.bas = b.bas
  host : c.host = b.host
  adm : c.adm = b.adm
  reply : c.reply = b.reply
  free : c.free = b.free
  clock : c.clock = b.clock
  fget : ∀ k i (f : Fld), i < 2 ^ 24 → f.lo < 2 ^ 16 → k ≠ clsPort → k < clsQueue → c.fget k i f = b.fget k i f

theorem SettledFrom.refl (b : Body) : SettledFrom b b := by constructor <;> intros <;> rfl

theorem SettledFrom.trans {a b c : Body} (h : SettledFrom a b) (k : SettledFrom b c) : SettledFrom a c :=
  ⟨k.latches.trans h.latches, k.sys.trans h.sys, k.mem.trans h.mem, k.isa.trans h.isa, k.bufs.trans h.bufs,
    k.slots.trans h.slots, k.records.trans h.records, k.drafts.trans h.drafts,
    k.sync.trans h.sync, k.drm.trans h.drm, k.tab.trans h.tab, k.bas.trans h.bas, k.host.trans h.host,
    k.adm.trans h.adm, k.reply.trans h.reply, k.free.trans h.free, k.clock.trans h.clock,
    fun x i f h1 h2 h3 h4 => (k.fget x i f h1 h2 h3 h4).trans (h.fget x i f h1 h2 h3 h4)⟩

/-- A change of nothing but queues, items at the Outfall, egress state, outputs and arrival numbers. -/
theorem SettledFrom.of (b c : Body) (hf : c.fields = b.fields) (hs : c.sys = b.sys) (h1 : c.latches = b.latches)
    (h2 : c.mem = b.mem) (h3 : c.isa = b.isa) (h4 : c.work.bufs = b.work.bufs) (h5 : c.work.slots = b.work.slots)
    (h6 : c.work.records = b.work.records) (h7 : c.work.drafts = b.work.drafts) (h8 : c.sync = b.sync) (h9 : c.drm = b.drm)
    (h10 : c.tab = b.tab) (h11 : c.bas = b.bas) (h12 : c.host = b.host) (h13 : c.adm = b.adm) (h14 : c.reply = b.reply)
    (h15 : c.free = b.free) (h16 : c.clock = b.clock) : SettledFrom b c :=
  ⟨h1, hs, h2, h3, h4, h5, h6, h7, h8, h9, h10, h11, h12, h13, h14, h15, h16, fun k i f _ _ _ _ => by
    simp only [Body.fget, hf, hs]⟩

/-- A write of a field of PORT, or of a class from QUEUE on. -/
theorem SettledFrom.fset (b : Body) (c i : Nat) (f : Fld) (v : Nat)
    (hc : (c = clsPort ∧ i < 2 ^ 24 ∧ f.lo < 2 ^ 16) ∨ clsQueue ≤ c) : SettledFrom b (b.fset c i f v) := by
  refine ⟨rfl, rfl, rfl, rfl, rfl, rfl, rfl, rfl, rfl, rfl, rfl, rfl, rfl, rfl, rfl, rfl, rfl, fun k j g h1 h2 h3 h4 =>
    Body.fget_fset_ne b ?_ v⟩
  rcases hc with ⟨rfl, h5, h6⟩ | hc
  · exact fieldKey_ne h1 h5 h2 h6 (Or.inl h3)
  · unfold fieldKey
    simp only [clsQueue] at *
    omega

/-- A count in PORT, or in a class from QUEUE on. -/
theorem SettledFrom.bumpPort (b : Body) (i : Nat) (f : Fld) (n : Nat) (hi : i < 2 ^ 24) (hf : f.lo < 2 ^ 16) :
    SettledFrom b (b.bump clsPort i f n) := .fset b _ _ _ _ (Or.inl ⟨rfl, hi, hf⟩)

theorem SettledFrom.bumpOutfall (b : Body) (i : Nat) (f : Fld) (n : Nat) : SettledFrom b (b.bump clsOutfall i f n) :=
  .fset b _ _ _ _ (Or.inr (by decide))

theorem SettledFrom.setEg (b : Body) (p : Nat) (x : EgPort) : SettledFrom b (b.setEg p x) := by
  constructor <;> intros <;> rfl

theorem SettledFrom.emit (b : Body) (o : Output) : SettledFrom b (b.emit o) := by constructor <;> intros <;> rfl

theorem SettledFrom.foldl {α : Type} (P : α → Prop) (g : Body → α → Body)
    (hg : ∀ b x, P x → SettledFrom b (g b x)) (l : List α) (hl : ∀ x, x ∈ l → P x) (b : Body) :
    SettledFrom b (l.foldl g b) := by
  induction l generalizing b with
  | nil => exact .refl b
  | cons x r ih => exact (hg b x (hl x (.head r))).trans (ih (fun y hy => hl y (.tail x hy)) _)

theorem flowPort_settled (b : Body) (tm : Time) (p : Nat) (hp : p < 65) : SettledFrom b (b.flowPort tm p) := by
  unfold Body.flowPort Body.sendFlow
  have hp' : p < 2 ^ 24 := by omega
  dsimp only
  split
  · exact .refl b
  · split
    · exact (SettledFrom.setEg b p _).trans ((SettledFrom.bumpPort _ p _ 1 hp' (by decide)).trans (.emit _ _))
    · split
      · exact (SettledFrom.setEg b p _).trans ((SettledFrom.bumpPort _ p _ 1 hp' (by decide)).trans (.emit _ _))
      · exact .refl b

theorem syncExc_settled (b : Body) (tm : Time) : SettledFrom b (b.syncExc tm) := by
  unfold Body.syncExc
  dsimp only
  split
  · exact .refl b
  · have h := SettledFrom.foldl (fun _ => True)
      (fun (x : Body) t => x.bump clsOutfall (1 + t) FOut.excWaits (tm.cycle - b.net.excCycle))
      (fun x t _ => .bumpOutfall x (1 + t) _ _) b.net.exc (fun _ _ => trivial) b
    have k : ∀ c : Body, SettledFrom c { c with net.exc := b.excTents, net.excCycle := tm.cycle } := fun c => by
      constructor <;> intros <;> rfl
    split
    · exact h.trans (k _)
    · exact (h.trans (.bumpOutfall _ _ _ _)).trans (k _)

theorem syncReady_settled (b : Body) (q : Nat) : SettledFrom b (b.syncReady q) := by
  unfold Body.syncReady
  split
  · split
    · exact .refl b
    · constructor <;> intros <;> rfl
  · constructor <;> intros <;> rfl

theorem checkUnder_settled (b : Body) (q : Nat) : SettledFrom b (b.checkUnder q) := by
  unfold Body.checkUnder
  split
  · exact .fset b _ _ _ _ (Or.inr (by decide))
  · exact .refl b

theorem setChain_settled (b : Body) (q : Nat) (l : List Elem) : SettledFrom b (b.setChain q l) := by
  constructor <;> intros <;> rfl

theorem dequeue_settled (b : Body) (q : Nat) : SettledFrom b (b.dequeue q).2 := by
  unfold Body.dequeue
  split
  · exact .refl b
  · exact (setChain_settled b q _).trans ((checkUnder_settled _ q).trans (syncReady_settled _ q))

theorem noteWaiting_settled (b : Body) (it : Item) : SettledFrom b (b.noteWaiting it) := by
  unfold Body.noteWaiting Body.raise
  split
  · exact .fset b _ _ _ _ (Or.inr (by decide))
  · exact .refl b

theorem recircTake_settled (b : Body) (tm : Time) (q : Nat) : SettledFrom b (b.recircTake tm q) := by
  have h := dequeue_settled b q
  unfold Body.recircTake
  split
  · rename_i e b1 he
    rw [he] at h
    dsimp only at h ⊢
    split
    · refine h.trans (SettledFrom.trans ?_ (noteWaiting_settled _ _))
      constructor <;> intros <;> rfl
    · exact h
  · rename_i b1 he
    rw [he] at h
    exact h

theorem recircTakes_settled (b : Body) (tm : Time) : SettledFrom b (b.recircTakes tm) :=
  SettledFrom.foldl (fun _ => True) (fun (x : Body) q => (x.chain q).foldl (fun (y : Body) _ => y.recircTake tm q) x)
    (fun x q _ => SettledFrom.foldl (fun _ => True) (fun (y : Body) _ => y.recircTake tm q)
      (fun y _ _ => recircTake_settled y tm q) (x.chain q) (fun _ _ => trivial) x) b.recircQueues (fun _ _ => trivial) b

/-- Everything that `settle` can do. -/
theorem settle_settled (b : Body) (tm : Time) : SettledFrom b (b.settle tm) := by
  unfold Body.settle Body.flowCheck
  refine (recircTakes_settled b tm).trans ?_
  refine SettledFrom.trans (SettledFrom.foldl (fun p => p < 65) _ (fun x p hp => flowPort_settled x tm p hp) _ ?_ _)
    (syncExc_settled _ tm)
  intro p hp
  simp only [Body.flowPorts, List.mem_filter, List.mem_range] at hp
  exact hp.1

@[simp] theorem Body.settle_sys (b : Body) (tm : Time) : (b.settle tm).sys = b.sys := (settle_settled b tm).sys
@[simp] theorem Body.settle_mem (b : Body) (tm : Time) : (b.settle tm).mem = b.mem := (settle_settled b tm).mem
@[simp] theorem Body.settle_isa (b : Body) (tm : Time) : (b.settle tm).isa = b.isa := (settle_settled b tm).isa
@[simp] theorem Body.settle_clock (b : Body) (tm : Time) : (b.settle tm).clock = b.clock := (settle_settled b tm).clock
@[simp] theorem Body.settle_reply (b : Body) (tm : Time) : (b.settle tm).reply = b.reply := (settle_settled b tm).reply
@[simp] theorem Body.settle_adm (b : Body) (tm : Time) : (b.settle tm).adm = b.adm := (settle_settled b tm).adm
@[simp] theorem Body.settle_host (b : Body) (tm : Time) : (b.settle tm).host = b.host := (settle_settled b tm).host
@[simp] theorem Body.settle_hart (b : Body) (tm : Time) (h : Nat) : (b.settle tm).hart h = b.hart h := by
  simp [Body.hart]
@[simp] theorem Body.settle_core (b : Body) (tm : Time) (c : Nat) : (b.settle tm).core c = b.core c := by
  simp [Body.core]

end Sys2Proof.Machine
end

