-- ==== Sys2Proof/Laws/Shesin.lean ====
section
/-! SUPPORT. What a Shesin command that passes the checks does, performed or declined: proofs about an opcode cite these
and never unfold `Dev.serve`. -/

namespace Sys2Proof.Machine

/-- A command that is performed is counted and answered OK. -/
theorem shesin_ok {s : State} {m : Msg} {op : Nat} {c : Caller} {au : Auth} {p : List Byte} {b : Body}
    (f : Perform) (h : Received s m op c au p b) (ps : List Byte) (d : Dev)
    (hf : f c au p ⟨s.tm, b⟩ = (some stOk, ps, d)) :
    shesin op m f s = .next (s.replied c d (replyParams op stOk ps)) := by
  obtain ⟨h1, h0, path, l, h2, h3, h4, h5, h6, h7⟩ := h
  simp [shesin, onDev, Dev.serve, h0, h1, h2, h3, h4, Dev.handle, h5, h6, h7, hf, State.replied]

/-- A command that ends in another status is answered with it and not counted as performed. -/
theorem shesin_bad {s : State} {m : Msg} {op : Nat} {c : Caller} {au : Auth} {p : List Byte} {b : Body}
    (f : Perform) (h : Received s m op c au p b) (ps : List Byte) (d : Dev) (st : Nat)
    (hf : f c au p ⟨s.tm, b⟩ = (some st, ps, d)) (hst : st ≠ stOk) (h11 : op ≠ 0x11) (ht : d.tm = s.tm) :
    shesin op m f s = .next (s.declined c st d.b) := by
  obtain ⟨h1, h0, path, l, h2, h3, h4, h5, h6, h7⟩ := h
  simp [shesin, onDev, Dev.serve, h0, h1, h2, h3, h4, Dev.handle, h5, h6, h7, hf, State.declined, hst, h11, replyParams, ht]

end Sys2Proof.Machine
end

