-- ==== Sys2Proof/WellFormed.lean ====
section
/-! DEFINITION. Well-formed commands: the numbers in a command name things the device has. -/

namespace Sys2Proof

/-- The master number of a thread (0 to 1,023) or a Bivouac core (1,024 to 1,027), R324. -/
def hartOk (h : Nat) : Bool := decide (h < 1028)

/-- A monitored clock input. -/
def ClockIn.ok : ClockIn → Bool
  | .sys => true
  | .group g => decide (g < 16)
  | .pcie => true

/-- A lock window of one of 64 tents or four Bivouac cores. -/
def Win.ok : Win → Bool
  | .tent t => decide (t < 64)
  | .biv j => decide (j < 4)

/-- An authority: the Bivouac, or the host of one of 64 tents. -/
def Auth.ok : Auth → Bool
  | .biv => true
  | .host t => decide (t < 64)

/-- A message in one of the 32 receive slots or the mailbox. -/
def Msg.ok : Msg → Bool
  | .slot x => decide (x < 32)
  | .mailbox => true

/-- The commands whose numbers are in range. -/
def Instr.wellFormed : Instr → Bool
  | .clockEdgeTimeout ck | .clockRestored ck | .clockFrequencyWindow ck _ => ck.ok
  | .gateEntryStart p | .linkHoldExpiry p | .portLinkDown p | .portLinkUp p _ _ => decide (p < 65)
  | .rxFrameStart p _ | .rxBufferGrow p _ | .rxFrameEnd p _ _ _ | .xoffRepeat p => decide (p < 65)
  | .pauseExpiry p c => decide (p < 65 ∧ c < 8)
  | .intakeEntry p | .intakeDramStageReturn p | .egressStart p | .transmitComplete p => decide (p < 68)
  | .redundEliminate p c => decide (p < 68 ∧ c < 8)
  | .dispatchSelect c | .redispatchSelect c | .clusterRetire c => decide (c < 16)
  | .waitCycleDeclare c _ => decide (c < 16)
  | .threadSwitch c | .coreWatchdog c => decide (c < 128)
  | .coreMemoryError c _ => decide (c < 128)
  | .itemStart h | .cycleCapReached h | .divertGraceExpiry h
  | .itemHandover h | .logStoreEntry h => decide (h < 1024)
  | .threadTimerExpiry h | .taskTimerExpiry h => hartOk h
  | .requestReply h ep => hartOk h && decide (ep < 16)
  | .directMessageDeliver h ep => decide (h < 1024 ∧ ep < 16)
  | .windowAcquire w | .windowRelease w | .windowP w | .windowV w | .reqCancel w => w.ok
  | .bivouacInterrupt j | .bivouacWatchdog j => decide (j < 4)
  | .kick au j => au.ok && decide (j < 4)
  | .channelFreeze ch _ | .channelThaw _ ch _ | .subchannelCommand ch _ _ | .dramComplete ch _ _ | .dramRefresh ch _
  | .dqsRetrain ch _ | .scrubRead ch _ => decide (ch < 8)
  | .registerWrite au _ _ | .lowWordLatch au _ | .counterReadClear au _ => au.ok
  | .echo m | .identify m | .objRead m | .objWrite m | .objModify m | .modeSet m | .thaw m | .resetCmd m => m.ok
  | .loadImem m | .readImem m | .storeSave m | .storeRead m | .restoreFactory m | .setKey m => m.ok
  | .modRead m _ | .modWrite m _ | .fwWrite m | .fwActivate m => m.ok
  | .txRecordGo x _ => decide (x < 12)
  | .add h _ | .sub h _ | .adds h _ | .subs h _ | .neg h _ | .andI h _ | .orI h _ | .xorI h _ | .andn h _ => hartOk h
  | .shl h _ | .shr h _ | .sar h _ | .rol h _ | .ror h _ | .mul h _ | .mulh h _ | .mulhu h _ => hartOk h
  | .divI h _ | .divu h _ | .rem h _ | .remu h _ | .min h _ | .max h _ | .minu h _ | .maxu h _ => hartOk h
  | .clz h _ | .popc h _ | .bswap h _ | .addi h _ | .subi h _ | .andi h _ | .ori h _ | .xori h _ => hartOk h
  | .lui h _ | .shi h _ | .bfx h _ | .bcc h _ | .jr h _ | .call h _ | .callr h _ | .ret h _ => hartOk h
  | .ldb h _ | .ldbu h _ | .ldh h _ | .ldhu h _ | .ldw h _ | .stb h _ | .sth h _ | .stw h _ => hartOk h
  | .sstw h _ | .ssadd h _ | .atomFadd h _ | .atomSwap h _ | .atomCas h _ => hartOk h
  | .batomFadd h _ | .batomSwap h _ | .batomCas h _ | .chr h _ | .chw h _ | .waitI h _ => hartOk h
  | .frd h _ | .brd h _ | .drd h _ | .treq h _ | .lkacq h _ | .lkrel h _ | .lkrelc h _ => hartOk h
  | .semp h _ | .semv h _ | .semvc h _ | .stg h _ | .tfset h _ | .tfclr h _ | .tarm h _ | .qarm h _ => hartOk h
  | .nop h _ | .commitI h _ | .divert h _ | .tret h _ | .breakI h _ | .mff h _ | .mtf h _ => hartOk h
  | .rdt h _ | .rdth h _ | .rdtick h _ | .ord h _ | .owr h _ | .lstat h _ | .claim h _ | .cplt h _ => hartOk h
  | .resetNLow | .resetNRelease | .suppliesLost | .sensorSample _ _ | .pfail | .holdLift | .bootComplete _
  | .holdupMeasureDone _ _ | .surveyComplete _ | .configRestore | .tickBoundary | .periodChange
  | .repitchApply | .bgTestStart _ | .bgTestEnd _ _ _ | .counterCheckpoint | .ppsInEdge _ | .ppsOutEdge
  | .ppsOutFall | .bivouacRx _ | .headgateCheck | .releaseStart | .diversionRelease | .basinApply
  | .snapshotFrame | .tableSearch _ | .tableNext _ | .tableInsert _ | .tableDelete _ | .flushByPort _
  | .flushStep _ | .learn _ | .routerDeliver | .txRingServe _ | .pcieReset | .mgmtTimeout | .deviceResetStart
  | .drainSettle | .firmwareHandover | .fwReadyTimeout | .dormantEntry | .mailboxGo _ _ | .suppliesReturn
  | .scopeResetStart _ | .timeBaseWrap | .memoryUncorrectable _ _ _ => true
  | .thermTrip sensor => decide (sensor < 24)
  | .stalenessExpiry slot => decide (slot < 1048576)
  | .streamReset n | .shadowBlockCheck n | .shadowRecheck n | .agerScan n | .clearingDone _ n => decide (n < 4096)
  | .lockHeldLong n | .lockGrant _ n => decide (n < 16384)
  | .tentFrozen t | .freezeTimeout t | .strikeSettle t | .apertureAccess t _ _ _
  | .saveDone t | .restoreDone t _ => decide (t < 64)
  | .storeWriteDone area => decide (area % 16 < 5 ∧ area < 21)
  | .tableEnable au _ n _ => au.ok && decide (n < 4096)
  | .doorbellRing au src | .hostComplete au src => au.ok && decide (src < 4096)
  | .vectorUnmask v => decide (v < 2048)
  | .windowAccess t _ _ => decide (t ≤ 64)
  | .hostDoorbell t ring _ _ => decide (t < 64 ∧ ring < 4096)
  | .txDmaComplete ring _ | .txOutcomeWriteback ring => decide (ring < 4096)
  | .rxRingDeliver t cls _ => decide (t < 64 ∧ cls < 8)
  | .hostReset au t | .pitch au t | .freeze au t | .unfreeze au t | .save au t | .restore au t | .strike au t => au.ok && decide (t < 64)
  | .repitch au | .epochSwap au | .arm au | .timeStep au _ | .slew au _ | .applyTick au _
  | .ppsOutNextWrite au _ | .fwReady au => au.ok
  | .gateListSwap au p | .txTsLatch au p | .txTsTagRead au p => au.ok && decide (p < 65)
  | .hwReset au q | .flagSet au q _ => au.ok && decide (q < 1048576)
  | .lwReset au pool => au.ok && decide (pool < 8)
  | .force au slot | .unforce au slot | .cfgIndexWrite au slot _ => au.ok && decide (slot < 1048576)
  | .crossingResync x => decide (x < 38)
  | .wake src => decide (src < 5)
  | .keyClear au k => au.ok && decide (k < 256)
  | .debugHalt au h | .debugResume au h | .debugStep au h | .debugReset au h | .regDataAccess au h _ => au.ok && decide (h < 1024)
  | .rbind h _ | .rfree h _ | .rsave h _ | .rrestore h _ | .rmfc h _ | .rmtc h _ | .rfence h _ | .radd h _
  | .rsub h _ | .rneg h _ | .rabs h _ | .rmin h _ | .rmax h _ | .rmulf h _ | .rdiv h _ | .rshl h _
  | .rshr h _ | .rsar h _ | .rand h _ | .rlaneRor h _ | .rxor h _ | .rsel h _ | .rsmov h _ | .ceq h _
  | .cne h _ | .clt h _ | .cle h _ | .cgt h _ | .cge h _ | .pand h _ | .por h _ | .pxor h _ | .pnot h _
  | .rmul h _ | .rmac h _ | .rmsu h _ | .rmulus h _ | .rmacus h _ | .racc h _ | .raclr h _ | .raadd h _
  | .rasub h _ | .ramov h _ | .rashl h _ | .rashr h _ | .rasar h _ | .raset h _ | .rnrw h _ | .rbcast h _
  | .rins h _ | .rext h _ | .rains h _ | .raext h _ | .rsum h _ | .rpcnt h _ | .rld h _ _ | .rst h _ _ => hartOk h

end Sys2Proof
end

