-- ==== Sys2Proof/Tests/Slice0.lean ====
section
/-! SUPPORT. The model's own tests: well-formedness, results of single steps, and for each statement about states that
meet hypotheses a concrete state and operands that meet them all (named test_met_…). -/

namespace Sys2Proof.Tests
open Machine

/-! Helpers: small states, and what makes an access admitted. -/

/-- Fields of a body set, by class, instance, field and value. -/
def setAll (b : Body) (l : List (Nat × Nat × Fld × Nat)) : Body := l.foldl (fun x e => x.fset e.1 e.2.1 e.2.2.1 e.2.2.2) b

/-- The device after reset, put into a mode, with some fields set. -/
def inMode (m : Mode) (l : List (Nat × Nat × Fld × Nat)) : State :=
  { State.reset with b := setAll { Body.reset with sys.base := m } l }

/-- What Admits asks for, as a computation. -/
def admitsAll (s : State) (au : Auth) (cls inst : Nat) (w : Bool) : Bool :=
  decide (s.b.sys.base ≠ .cold) && !s.b.asleep && !s.b.adm.unanswered && instExists s.b.nLogN cls inst && s.b.reaches au cls inst w &&
    (match au with
      | .biv => true
      | .host t => s.b.hostIn && s.b.tentReached t)

theorem admits_of {s : State} {au : Auth} {cls inst : Nat} {w : Bool} (h : admitsAll s au cls inst w = true) :
    Admits s au cls inst w := by
  simp only [admitsAll, Bool.and_eq_true, decide_eq_true_eq, Bool.not_eq_true'] at h
  obtain ⟨⟨⟨⟨⟨h1, h2⟩, h0⟩, h3⟩, h4⟩, h5⟩ := h
  refine ⟨h1, h2, ?_, h0, h3, h4⟩
  intro t ht
  subst ht
  simpa using h5

/-! WellFormed refuses an ill-formed term for each of its checks. -/

theorem test_wf_hart : (Instr.nop 1028 ⟨0, 0, 0, 0, 0, 0⟩).wellFormed = false := by decide
theorem test_wf_clock : (Instr.clockRestored (.group 16)).wellFormed = false := by decide
theorem test_wf_port : (Instr.portLinkDown 65).wellFormed = false := by decide
theorem test_wf_rx_port : (Instr.rxFrameStart 65 0).wellFormed = false := by decide
theorem test_wf_pause_class : (Instr.pauseExpiry 0 8).wellFormed = false := by decide
theorem test_wf_egress_port : (Instr.egressStart 68).wellFormed = false := by decide
theorem test_wf_redund_class : (Instr.redundEliminate 0 8).wellFormed = false := by decide
theorem test_wf_cluster : (Instr.dispatchSelect 16).wellFormed = false := by decide
theorem test_wf_wait_cycle : (Instr.waitCycleDeclare 16 none).wellFormed = false := by decide
theorem test_wf_core : (Instr.threadSwitch 128).wellFormed = false := by decide
theorem test_wf_core_error : (Instr.coreMemoryError 128 false).wellFormed = false := by decide
theorem test_wf_thread : (Instr.itemStart 1024).wellFormed = false := by decide
theorem test_wf_endpoint : (Instr.requestReply 0 16).wellFormed = false := by decide
theorem test_wf_deliver : (Instr.directMessageDeliver 0 16).wellFormed = false := by decide
theorem test_wf_window : (Instr.windowV (.biv 4)).wellFormed = false := by decide
theorem test_wf_biv : (Instr.bivouacWatchdog 4).wellFormed = false := by decide
theorem test_wf_kick : (Instr.kick (.host 64) 0).wellFormed = false := by decide
theorem test_wf_channel : (Instr.dramRefresh 8 0).wellFormed = false := by decide
theorem test_wf_auth : (Instr.registerWrite (.host 64) ⟨0, 0, 0⟩ 0).wellFormed = false := by decide
theorem test_wf_msg : (Instr.echo (.slot 32)).wellFormed = false := by decide
theorem test_wf_tx_record : (Instr.txRecordGo 12 0).wellFormed = false := by decide
theorem test_wf_objects :
    (Instr.thermTrip 24).wellFormed = false ∧ (Instr.stalenessExpiry 1048576).wellFormed = false ∧
    (Instr.streamReset 4096).wellFormed = false ∧ (Instr.lockHeldLong 16384).wellFormed = false ∧
    (Instr.tentFrozen 64).wellFormed = false ∧ (Instr.storeWriteDone 5).wellFormed = false ∧
    (Instr.tableEnable .biv false 4096 false).wellFormed = false ∧ (Instr.doorbellRing .biv 4096).wellFormed = false ∧
    (Instr.vectorUnmask 2048).wellFormed = false ∧ (Instr.hostDoorbell 0 4096 false 0).wellFormed = false ∧
    (Instr.txOutcomeWriteback 4096).wellFormed = false ∧ (Instr.pitch .biv 64).wellFormed = false ∧
    (Instr.repitch (.host 64)).wellFormed = false ∧ (Instr.gateListSwap .biv 65).wellFormed = false ∧
    (Instr.flagSet .biv 1048576 0).wellFormed = false ∧ (Instr.lwReset .biv 8).wellFormed = false ∧
    (Instr.force .biv 1048576).wellFormed = false ∧ (Instr.crossingResync 38).wellFormed = false ∧
    (Instr.wake 5).wellFormed = false ∧ (Instr.keyClear .biv 256).wellFormed = false ∧
    (Instr.debugHalt .biv 1024).wellFormed = false ∧ (Instr.rxRingDeliver 0 8 0).wellFormed = false := by decide
theorem test_wf_good : (Instr.nop 1027 ⟨0, 0, 0, 0, 0, 0⟩).wellFormed = true := by decide
/-! The time base. -/

/-- A time at `tb` with a slew to come. -/
def timeAt (tb : Nat) (rem : Int) : Time := { Time.reset with tb := tb, slewRem := rem }

theorem timeAt_inv {tb : Nat} {rem : Int} (h1 : tb < 2 ^ 80)
    (h2 : -(2 ^ 31) * 2 ^ 32 ≤ rem ∧ rem ≤ (2 ^ 31 - 1) * 2 ^ 32) : (timeAt tb rem).Inv := by
  constructor <;> simp only [timeAt, Time.reset, Time.period16]
  case tb => exact h1
  case slew => exact h2
  case grid => exact ⟨_, _, rfl, rfl, 1, by decide⟩
  all_goals decide

theorem test_met_inv : Time.reset.Inv := timeAt_inv (tb := 0) (rem := 0) (by decide) (by decide)

/-- O2: a step from reset answers a next state. -/
theorem test_met_step : State.reset.tm.Inv ∧ ∃ t, step State.reset = .next t := ⟨test_met_inv, _, rfl⟩

/-- O3, O4: a queue with a command, and empty queues in Cold and elsewhere. -/
theorem test_met_queue : ({ State.reset with pending := [.pfail, .repitchApply] } : State).pending = .pfail :: [.repitchApply] ∧
    (inMode .cold []).pending = [] ∧ (inMode .cold []).b.sys.base = .cold ∧ State.reset.pending = [] ∧
    State.reset.b.sys.base ≠ .cold := by decide

/-- O4: each case of the slew, at its bounds (d = 286331 at the reset RATE), and both cases of TB_ERA. -/
theorem test_met_cycle : (∀ x ∈ [0, 286331, 286332, -286331, -286332], (timeAt (2 ^ 80 - 1) x).Inv) ∧
    2863311531 * (timeAt 0 0).slewPpm / 1000000 = 286331 ∧
    ((timeAt (2 ^ 80 - 1) 0).advance 2863311531 1).tb < (timeAt (2 ^ 80 - 1) 0).tb ∧
    (timeAt 0 0).tb ≤ ((timeAt 0 0).advance 2863311531 1).tb :=
  ⟨fun x hx => timeAt_inv (by decide) (by revert x; decide), by decide, by decide, by decide⟩

/-- O4: a memory of the device, a line of an enabled table, and the first and last core. -/
theorem test_met_errors :
    let b := setAll Body.reset [(clsTable, 0, FTable.enable, 1)]
    memBytes 2 = 0x2000000 ∧ memBytes 0x100 = 0x30000 ∧ memBytes 0x17F = 0x30000 ∧
    b.tableOn 0 = true ∧ (b.lineRanges false 0).any (fun r => decide (r.1 ≤ 0 ∧ 0 < r.1 + r.2)) = true := by decide

/-- O6: cycles that do not wrap TB_ERA, at the largest increment, and the farthest target. -/
theorem test_met_cycles : (timeAt 5 1).Inv ∧ 2861879875 ≤ 15 * 2864743187 ∧ (timeAt 5 1).era + (3 + 4) < 2 ^ 32 ∧
    2 ^ 64 - 1 < 2 ^ 64 := ⟨timeAt_inv (by decide) (by decide), by decide, by decide, by decide⟩

/-- O7: the conditions of the time and tick commands. -/
theorem test_met_time_events :
    let s : State := { inMode .service [] with tm := { Time.reset with
      ppsInEn := 1, ppsOutEn := 1, ppsFall := some 9, pendingChange := 1, applyTick := 1 } }
    let r : State := { s with b.bas.deadlines := [(7, 1)] }
    s.b.sys.base ≠ .cold ∧ s.tm.ppsInEn = 1 ∧ s.tm.ppsOutEn = 1 ∧ s.tm.ppsFall = some 9 ∧ s.tm.pendingChange = 1 ∧
    s.tm.nextTick = s.tm.applyTick ∧ r.b.runs = true ∧ mapFind 7 r.b.bas.deadlines = some 1 ∧
    0 ≤ tickDiff r.tm.nextTick 1 ∧ (s.b.fset clsTent 0x100 FTents.repitchPending 1).pitchPending = true := by
  decide

/-- O7: the conditions of the time and tick writes, at the bounds of SLEW and of APPLY_TICK. -/
theorem test_met_time_writes :
    (∀ m ∈ [Mode.boot, .survey, .standby, .dormant], (inMode m []).b.sys.base ≠ .cold) ∧
    (∀ m ∈ [Mode.boot, .survey, .standby, .dormant], (inMode m []).b.modeCode ∈ [1, 2, 3, 11]) ∧
    -(2 ^ 31) * 2 ^ 32 ≤ Time.reset.slewRem + (BitVec.ofInt 32 (-2 ^ 31)).toInt * 2 ^ 32 ∧
    Time.reset.slewRem + (BitVec.ofInt 32 (2 ^ 31 - 1)).toInt * 2 ^ 32 ≤ (2 ^ 31 - 1) * 2 ^ 32 ∧
    2 ≤ ((2 : BitVec 32).toNat + 2 ^ 32 - Time.reset.tickNumber % 2 ^ 32) % 2 ^ 32 ∧
    ((2147483647 : BitVec 32).toNat + 2 ^ 32 - Time.reset.tickNumber % 2 ^ 32) % 2 ^ 32 < 2 ^ 31 ∧
    Time.reset.pendingChange = 0 := by decide

/-- O8, O9: a boundary with and without a due change; a re-arm at the two bounds. -/
theorem test_met_boundary :
    ({ Time.reset with pendingChange := 1, applyTick := 1 } : Time).pendingChange = 1 ∧
    Time.reset.nextTick = ({ Time.reset with pendingChange := 1, applyTick := 1 } : Time).applyTick ∧
    Time.reset.pendingChange ≠ 1 ∧ Time.reset.anchor < 2 ^ 64 ∧
    timeDiff (timeAt (2 ^ 78) 0).now 0 = 2 ^ 62 ∧ timeDiff (timeAt (2 ^ 80 - 2 ^ 78) 0).now 0 = -2 ^ 62 := by decide

/-! Object writes and reads. -/

/-- O10: queue, pool and Basin writes. -/
theorem test_met_queue_writes :
    Admits (inMode .standby []) .biv clsQueue 1048575 true ∧
    (inMode .standby []).Fits clsQueue 1048575 FQueue.hwReset.word ∧ Admits (inMode .service []) .biv clsPool 7 true ∧
    Admits (inMode .service []) .biv clsBasin (slotInst 1048575) true ∧ (inMode .service []).b.basinRoom 1 = true ∧
    (inMode .service []).Fits clsBasin (slotInst 1048575) FForce.force.word :=
  ⟨admits_of (by decide), by unfold State.Fits; decide, admits_of (by decide), admits_of (by decide), by decide,
    by unfold State.Fits; decide⟩

/-- A firmware handover that runs. -/
def inUpdate : State := { inMode .update [] with b := { (inMode .update []).b with adm.fw := some ⟨1, true, 0⟩ } }

/-- A re-pitch asked for with no table enabled. -/
def toPitch : State := inMode .standby [(clsTent, 0x100, FTents.nNext, 2)]

/-- With no field set above the TENT class but N_NEXT, no table is on. -/
theorem no_tables {b : Body} (h : b.fields = [] ∨ b.fields = [(fieldKey clsTent 0x100 FTents.nNext.lo, 2)]) :
    b.enabledTables = [] := by
  rw [Body.enabledTables, List.filter_eq_nil_iff]
  intro n hn
  have hk : fieldKey clsTent 0x100 FTents.nNext.lo ≠ fieldKey clsTable n FTable.enable.lo := by
    rw [List.mem_range] at hn
    simp only [fieldKey, clsTent, clsTable, FTents.nNext, FTable.enable]
    omega
  rcases h with h | h
  · simp [Body.tableOn, Body.fget, h, mapGet, resetAt, clsTable, FTable.enable]
  · simp only [Body.tableOn, Body.fget, h, mapGet, mapFind, hk, if_false]
    simp [resetAt, clsTable, FTable.enable]

/-- A body of the N of reset with no tables and no prefix instances on may be re-pitched to 2 tents. -/
theorem pitchTables_ok {b : Body} (h : b.enabledTables = []) (hp : b.enabledPrefixes = []) : b.pitchTablesOk 1 = true := by
  simp [Body.pitchTablesOk, h, hp]

/-- The last table of the standby state may be enabled. -/
theorem enable_ok : (inMode .standby []).b.enableCheck false 4095 = stOk := by
  have h1 : (inMode .standby []).b.enabledTables = [] := no_tables (Or.inl rfl)
  have h2 : (inMode .standby []).b.enabledPrefixes = [] := by decide +kernel
  have h3 : (inMode .standby []).b.lineRanges false 4095 = [(0, 4)] := by decide
  simp only [Body.enableCheck, h1, h2, h3]
  decide

/-- O10: swaps, the handover, kicks, keys, a re-pitch and a table. -/
theorem test_met_rule_writes :
    (Admits (inMode .service []) .biv clsIntake 0 true ∧
      (inMode .service []).b.epochLive (1 - (inMode .service []).b.fget clsIntake 0 FIntake.activeEpoch) = false ∧
      ({ Body.reset with net.swapping := true } : Body).net.swapping = true) ∧
    (Admits (inMode .service []) .biv clsEgress 64 true ∧ (inMode .service []).Fits clsEgress 64 FEgress.swap.word) ∧
    (Admits inUpdate .biv clsPower 0 true ∧ inUpdate.Fits clsPower 0 FPower.fwReady.word ∧
      inUpdate.b.adm.fw = some ⟨1, true, 0⟩ ∧ (inUpdate.tm.now + 2 ^ 64 - 0) % 2 ^ 64 ≤ 2 * 10 ^ 9 * 2 ^ 16) ∧
    Admits (inMode .boot []) .biv clsDevice (1 + 3) true ∧ Admits (inMode .standby []) .biv clsDevice (0x100 + 0xFF) true ∧
    (Admits toPitch .biv clsTent 0x100 true ∧ toPitch.Fits clsTent 0x100 FTents.repitch.word ∧ toPitch.b.tentMode = true ∧
      nLogOf (toPitch.b.fget clsTent 0x100 FTents.nNext) = some 1 ∧ toPitch.b.pitchPending = false ∧
      toPitch.b.pitchTentsOk 1 = true ∧ toPitch.b.pitchQueuesOk 1 = true ∧ toPitch.b.pitchTablesOk 1 = true) ∧
    (∀ e ∈ [0, 1], let s := inMode .standby (if e = 0 then [] else [(clsTable, 4095, FTable.enable, 1)])
     admitsAll s .biv clsTable 4095 true = true ∧ s.b.fget clsTable 4095 FTable.enable = e) ∧
    (inMode .standby []).Fits clsTable 4095 0 ∧ (inMode .standby []).b.enableCheck false 4095 = stOk :=
  ⟨⟨admits_of (by decide), by decide, rfl⟩, ⟨admits_of (by decide), by unfold State.Fits; decide⟩,
    ⟨admits_of (by decide), by unfold State.Fits; decide, rfl, by decide⟩, admits_of (by decide), admits_of (by decide),
    ⟨admits_of (by decide), by unfold State.Fits; decide, by decide, by decide, by decide, by decide, by decide,
      pitchTables_ok (no_tables (Or.inr rfl)) (by decide +kernel)⟩, by decide, by unfold State.Fits; decide, enable_ok⟩

/-- O11: a ring of an edge and of a level source; completions of the Bivouac and of the source's host, and ones that do
not count: not in service, of another target, of another host. -/
theorem test_met_interrupts :
    (∀ au ∈ [Auth.biv, Auth.host 0], ∀ x ∈ [(2, 1), (2, 0), (0, 1)],
      let s := inMode .service [(clsIrq, 4095, FIrq.targetKind, x.1), (clsIrq, 4095, FIrq.inService, x.2)]
      admitsAll s .biv clsIrq 4095 true = true ∧ s.b.accessOf .biv clsIrq 4095 FIrq.ring = .wo ∧
        s.b.fget clsIrq 4095 FIrq.targetKind = x.1 ∧ s.b.fget clsIrq 4095 FIrq.inService = x.2 ∧
        (au = .biv ∨ s.b.fget clsIrq 4095 FIrq.targetTent = 0)) ∧
    (let s := inMode .service [(clsIrq, 4095, FIrq.targetKind, 2), (clsIrq, 4095, FIrq.inService, 1)]
     s.Fits clsIrq 4095 0) ∧
    (let s := inMode .standby []
     Admits s .biv clsIrq 0 true ∧ s.Fits clsIrq 0 0 ∧ s.b.accessOf .biv clsIrq 0 FIrq.ring = .wo ∧
       s.b.fget clsIrq 0 FIrq.sense = 1 ∧ s.b.fget clsIrq 0 FIrq.targetKind ≠ 2) :=
  ⟨by decide, by unfold State.Fits; decide, admits_of (by decide), by unfold State.Fits; decide, by decide, by decide,
    by decide⟩

/-- O11: a delivery in a cycle in which a source was rung, and in a later one; a source that may be asserted. -/
theorem test_met_ring_cycle :
    let s : State := { inMode .service [] with b.sync.irqFrom := 1 }
    s.tm.cycle < s.b.sync.irqFrom ∧ (inMode .service []).b.sync.irqFrom ≤ (inMode .service []).tm.cycle ∧
    s.b.irqIdle 0 = true := by decide

/-- O11: a source of each target. -/
theorem test_met_targets : ∀ k ∈ [0, 1, 2],
    (inMode .standby [(clsIrq, 7, FIrq.targetKind, k), (clsIrq, 7, FIrq.pending, 1), (clsIrq, 7, FIrq.enable, 1)]).b.fget
      clsIrq 7 FIrq.targetKind = k := by decide

/-! Debugging, locks and object accesses. -/

/-- A state with one thread or Bivouac core given, in a mode with fields. -/
def withHart (m : Mode) (l : List (Nat × Nat × Fld × Nat)) (h : Nat) (x : Hart) : State :=
  { inMode m l with b := { (inMode m l).b with isa := ⟨[(h, x)], [(h / 8, { CoreSt.reset with issuing := some h })], [], []⟩ } }

/-- O12: a live thread in Bench mode, halted or not. -/
theorem test_met_debug : ∀ stopped : Bool,
    let s := withHart .bench [] 1023 { Hart.reset with halted := stopped }
    Admits s .biv clsDebug 1023 true ∧ s.Fits clsDebug 1023 0 ∧ s.b.inBench = true ∧ s.b.live 1023 = true ∧
      (s.b.hart 1023).halted = stopped := by
  intro stopped
  cases stopped <;> exact ⟨admits_of (by decide), by unfold State.Fits; decide, by decide, by decide, by decide⟩

/-- O13: each request of a window, at the last lock and the last semaphore of tent 0 and one past them, for itself and
for the last task, and while one is sent. -/
theorem test_met_windows : ∀ e ∈ [(0, 16383), (1, 16383), (2, 4095), (3, 4095), (2, 4096), (3, 4096)], ∀ task ∈ [0, 1],
    ∀ busy ∈ [0, 1],
    let i := winInst (.biv 3)
    let s := inMode .service [(clsLock, i, FWindow.reqOp, e.1), (clsLock, i, FWindow.reqNum, e.2),
      (clsLock, i, FWindow.reqTask, task), (clsLock, i, FWindow.reqQueue, 1048575), (clsLock, i, FWindow.reqBusy, busy)]
    s.b.winExists (.biv 3) = true ∧ admitsAll s (winAuth (.biv 3)) clsLock (winInst (.biv 3)) true = true ∧
    (∀ f, f ∈ fieldsOfWord clsLock (winInst (.biv 3)) FWindow.reqIssue.word → f.acc = .rw →
      (Dev.mk s.tm s.b).view clsLock (winInst (.biv 3)) f < 2 ^ f.width ∧
        f.inRange ((Dev.mk s.tm s.b).view clsLock (winInst (.biv 3)) f) = true) ∧
    s.b.fget clsLock i FWindow.reqOp = e.1 ∧ s.b.fget clsLock i FWindow.reqBusy = busy ∧ s.b.winTent (.biv 3) < s.b.tents ∧
    (s.b.fget clsLock i FWindow.reqNum < lockTotal (decide (2 ≤ e.1)) / s.b.tents ↔ e.2 = 16383 ∨ e.2 = 4095) ∧
    s.b.fget clsLock i FWindow.reqTask = task ∧ s.b.fget clsLock i FWindow.reqQueue < 1048576 / s.b.tents := by decide

/-- O13: a free lock and a semaphore with a count that somebody waits for; a hold longer than HOLD_TICKS. -/
theorem test_met_grants :
    let w : Waiter := ⟨.biv 0, none, 1, 0, 9⟩
    let b := setAll { Body.reset with sync := ⟨[(5, ⟨none, [w], 0, false, 7, none⟩), (6, ⟨some (.biv 1), [], 8, false, 0, none⟩)],
        [(5, ⟨[], [w], 11⟩)], [], 0⟩ }
      [(clsLock, semInst 5, FSem.count, 1), (clsLock, lockTentInst 0, FLockTent.holdTicks, 7)]
    b.lockDue 5 = some (9, w) ∧ b.semDue 5 = some (11, w) ∧
    0 < b.fget clsLock (lockTentInst (b.lockTent false 6)) FLockTent.holdTicks ∧
    b.fget clsLock (lockTentInst (b.lockTent false 6)) FLockTent.holdTicks < (b.lock 6).heldTicks ∧
    (b.lock 6).holder ≠ none ∧ (b.lock 6).longRaised = false := by decide

/-- O14: a register write, a latch and a clearing read. -/
theorem test_met_object_words :
    (let s := inMode .standby []
     Admits s .biv clsCore 127 true ∧ s.Fits clsCore 127 FCore.watchdog.word ∧
     (Wr.mk ⟨s.tm, s.b⟩ .biv clsCore 127 FCore.watchdog.word (4096 : Word).toNat []).judge = ⟨true, true, false⟩ ∧
     fieldsOfWord clsCore 127 FCore.watchdog.word = [FCore.watchdog] ∧ FCore.watchdog.word ≤ lastWord clsCore 127 ∧
     FCore.watchdog.acc = .rw ∧ s.b.accessOf .biv clsCore 127 FCore.watchdog = .rw ∧
     FCore.watchdog.lo = 32 * FCore.watchdog.word ∧ FCore.watchdog.width ≤ 32 ∧
     (4096 : Word).toNat < 2 ^ FCore.watchdog.width ∧ FCore.watchdog.inRange (4096 : Word).toNat = true) ∧
    (let s := inMode .standby []
     Admits s .biv clsTick 0 false ∧ fieldsOfWord clsTick 0 FTick.ppsInTime.word = [FTick.ppsInTime] ∧
     FTick.ppsInTime.width = 64 ∧ FTick.ppsInTime.word ≤ lastWord clsTick 0 ∧ FTick.ppsInTime.acc ≠ .wo) ∧
    (let s := inMode .standby []
     Admits s .biv clsBasin 0 false ∧ fieldsOfWord clsBasin 0 FBasin.snapFrames.word = [FBasin.snapFrames] ∧
     FBasin.snapFrames.width = 32 ∧ FBasin.snapFrames.lo = 32 * FBasin.snapFrames.word ∧
     FBasin.snapFrames.word ≤ lastWord clsBasin 0 ∧ FBasin.snapFrames.acc = .rc) := by
  refine ⟨⟨admits_of (by decide), by unfold State.Fits; decide, rfl, ?_⟩, ⟨admits_of (by decide), ?_⟩, admits_of (by decide), ?_⟩ <;>
    decide

/-- O14: a port with a stamp and one without; a failing write. -/
theorem test_met_stamps :
    let e : EgPort := { Body.reset.eg 64 with stamps := [(2 ^ 64 - 1, 7)] }
    let s := inMode .service [(clsPort, 64, FPort.txTs, 2 ^ 64 - 1), (clsPort, 64, FPort.txTsTag, 7), (clsPort, 64, FPort.txTsValid, 1)]
    let r : State := { s with b := s.b.setEg 64 e }
    Admits r .biv clsPort 64 false ∧ (r.b.eg 64).stamps = [(2 ^ 64 - 1, 7)] ∧ Admits s .biv clsPort 64 false ∧
    (s.b.eg 64).stamps = [] ∧ r.b.fget clsPort 64 FPort.txTsValid = 1 ∧ r.b.fget clsPort 64 FPort.txTs = 2 ^ 64 - 1 ∧
    (inMode .service []).b.fget clsPort 64 FPort.txTsValid = 0 ∧
    ((Dev.mk s.tm s.b).objWrite .biv clsDevice 5 0 [0]).1 ≠ stOk :=
  ⟨admits_of (by decide), by decide, admits_of (by decide), by decide, by decide, by decide, by decide, by decide⟩

/-- O15: a 64-bit field of TICK[0], a device that still holds its latch and one that holds none. -/
theorem test_met_wide :
    let f := FTick.ppsInTime
    f.width = 64 ∧ f.lo % 32 = 0 ∧ f.acc ≠ .wo ∧ fieldsOfWord clsTick 0 f.word = [f] ∧
    fieldsOfWord clsTick 0 (f.word + 1) = [f] ∧ mapFind (fieldKey clsTick 0 f.lo) Body.reset.latches = none := by decide

/-! The host. -/

/-- A descriptor of a frame of 64 bytes in buffer 0 of pool 0, and that frame in an egress queue. -/
def aDesc : Desc := ⟨0, 64, 3, 0, 0, 0, 0, 0, 0, 0, 0, 0⟩
def aFrame : EgFrame := ⟨0, 0, 64, aDesc, 0, false, 0, none, false, none, .none, false, false⟩
def aBuf : Buf := ⟨.egress, 1, .frame 0, false, List.replicate 64 0⟩

/-- O16: doorbells; the last ring of tent 0, at its last free entry. -/
theorem test_met_doorbell :
    let s := inMode .service [(clsTent, ringObj 4095, FHostRing.enable, 1)]
    s.b.hostIn = true ∧ s.b.tentReached 0 = true ∧ 4095 < 4096 / s.b.tents ∧
    s.b.doorbellCheck 0 (s.b.ringAbs 0 4095) true ((16 : BitVec 64).toNat + s.b.generation 0 * 2 ^ 32) = stOk ∧
    s.b.generation 0 = 0 ∧ s.b.rg (s.b.ringAbs 0 4095) FHostRing.creditEn = 0 ∧
    s.b.doorbellCheck 0 (s.b.ringAbs 0 4095) true (17 : BitVec 64).toNat ≠ stOk ∧
    s.b.doorbellCheck 0 (s.b.ringAbs 0 4095) false 0 ≠ stOk := by decide

/-- A TX ring with one entry to serve, and `q` KiB for its tent. -/
def txState (q : Nat) : State := inMode .service [(clsTent, ringObj 7, FHostRing.enable, 1),
  (clsTent, ringObj 7, FHostRing.kind, 1), (clsTent, ringObj 7, FHostRing.tail, 1), (clsPool, 0x200, FPoolTent.hostQuotaKib, q)]

/-- O16: the entry in turn is refused with a reason, for want of allowance, or takes a buffer. -/
theorem test_met_tx_serve : (txState 1).b.hostIn = true ∧
    ((txState 1).b.inputQueue 65).length + ((txState 1).b.host.tx.filter (fun x => x.stage = .reading)).length < 256 ∧
    (txState 1).b.txTurnRing = some 7 ∧ (txState 0).b.txTurnRing = some 7 ∧
    (txState 1).b.txEntryReason 7 (59 * 2 ^ 64) = some 0x32 ∧ (txState 1).b.txEntryReason 7 (60 * 2 ^ 64) = none ∧
    (txState 0).b.chargeFits (.host 0) (poolSize 0) = false ∧ (txState 1).b.chargeFits (.host 0) (poolSize 0) = true ∧
    (({ (txState 1).b with host.txTurn := 8 } : Body).takeBuf 0 (.host 0) (.host 0) []).isSome = true := by
  refine ⟨?_, ?_, ?_, ?_, ?_, ?_, ?_, ?_, rfl⟩ <;> decide

/-- O16: an entry that is being read, stale or not, and one whose outcome is known. -/
theorem test_met_tx_ends : ∀ x ∈ [(⟨7, 0, 0, 60 * 2 ^ 64, 5, .reading⟩ : TxEnt), ⟨7, 0, 1, 60 * 2 ^ 64, 5, .reading⟩,
      ⟨7, 0, 0, 60 * 2 ^ 64, 5, .known 0⟩, ⟨7, 0, 0, 60 * 2 ^ 64, 5, .known 0x32⟩],
    let s : State := { txState 1 with b := { (txState 1).b with host.tx := [x], work.bufs := [(5, aBuf)] } }
    (x.stage = .reading → s.b.host.tx.find? (fun x => x.ring == 7 && decide (x.stage = .reading)) = some x) ∧
    s.b.generation (s.b.ringTent 7) = 0 ∧ s.b.hostOut = true ∧
    s.b.work.outcomes.find? (fun o => o.1 == 7) = none ∧ s.b.host.tx.find? (fun x => x.ring == 7) = some x := by decide

/-- O16: a frame that waits for an RX ring with an entry, too short by one byte and just long enough. -/
theorem test_met_rx_deliver :
    let b := setAll { Body.reset with sys.base := .service } [(clsTent, ringObj 9, FHostRing.enable, 1),
      (clsTent, ringObj 9, FHostRing.kind, 2), (clsTent, ringObj 9, FHostRing.cls, 7), (clsTent, ringObj 9, FHostRing.tail, 1)]
    let s : State := { State.reset with b := { b.setEgQueue 65 7 [aFrame] with work.bufs := [(0, aBuf)] } }
    s.b.hostOut = true ∧ s.b.rxHead 0 7 = some aFrame ∧ s.b.rxRing 0 7 = some 9 ∧ s.b.ringLeft 9 ≠ 0 ∧
    s.b.unjudged aFrame = false ∧ s.b.bufHeld aFrame.buffer = false ∧
    entryLength (59 * 2 ^ 64) < (s.b.handBytes aFrame).length ∧
    (s.b.handBytes aFrame).length ≤ entryLength (60 * 2 ^ 64) := by decide

/-- O16: a masked vector: not pending, pending, and pending under the function mask. -/
theorem test_met_vector : 2047 < 2048 ∧ 2047 ∉ Body.reset.host.unmasked ∧ 2047 ∉ Body.reset.host.pba ∧
    (∀ m : Bool, let b : Body := { Body.reset with host.pba := [2047], host.functionMask := m }
      2047 ∈ b.host.pba ∧ 2047 ∉ b.host.unmasked ∧ b.host.functionMask = m) := by decide

/-- O17: pages out of reach and in reach, each register, an object behind WIN_DATA, a doorbell. -/
theorem test_met_window :
    let s := inMode .service []
    let r : State := { s with b.host.winAddr := [(0, 7 * 2 ^ 24)] }
    s.b.hostIn = true ∧ s.b.tentReached 63 = false ∧ s.b.tentReached 0 = true ∧ s.b.asleep = false ∧
    (0, 4, 8, 12) = (4 * 0, 4 * 1, 4 * 2, 4 * 3) ∧ 0x17FFF < 0x18000 ∧ 2047 < 2048 ∧ 3 < 4 ∧ (1 : Word).toNat % 2 = 1 ∧
    (let a := mapGet 0 0 r.b.host.winAddr
     ((Dev.mk r.tm r.b).objRead (.host 0) (a / 2 ^ 24 % 256) (a % 2 ^ 24) (mapGet 0 0 r.b.host.winOff) 1).1 = stOk) := by decide

/-- O17: an aperture that a region grants for reads and writes, with its channel running and frozen, and one that none
grants. -/
theorem test_met_aperture :
    (∀ z ∈ [0, 1],
    let i := 0x10000 + 8 * 1028
    let s := inMode .service [(clsMemregion, i, FRegion.en, 1), (clsMemregion, i, FRegion.r, 1), (clsMemregion, i, FRegion.w, 1),
      (clsMemregion, i, FRegion.top, 64), (clsDram, 0, FDram.channels, 1), (clsDram, 0, FDram.capacityMib, 1),
      (clsDram, 1, FChan.frozen, z)]
    s.b.hostIn = true ∧ s.b.tentReached 0 = true ∧ s.b.asleep = false ∧ 60 + 4 ≤ 2 ^ 28 ∧
    s.b.regionGrants 1028 1 (s.b.fget clsTent 0 FTent.apertureBase + 60) 4 true false = true ∧
    s.b.regionGrants 1028 1 (s.b.fget clsTent 0 FTent.apertureBase + 60) 4 false true = true ∧
    s.b.dramHeld (s.b.fget clsTent 0 FTent.apertureBase + 60) 4 = (z == 1) ∧
    s.b.regionGrants 1028 1 (s.b.fget clsTent 0 FTent.apertureBase + 64) 4 true false = false ∧
    s.b.regionGrants 1028 1 (s.b.fget clsTent 0 FTent.apertureBase + 64) 4 false true = false) ∧
    [1, 2, 3, (4 : Byte)].length = 4 := by decide

/-! Tents. -/

/-- O18: a tent in each state, pitched by a mode that allows tent operations. -/
theorem test_met_tents : ∀ x ∈ [0, 1, 2, 3], ∀ saved ∈ [0, 1],
    let s := inMode .service [(clsTent, 0, FTent.state, x), (clsTent, 0, FTent.saved, saved)]
    admitsAll s .biv clsTent 0 true = true ∧ (x ≠ 0 → admitsAll s (.host 0) clsTent 0 true = true) ∧ s.b.tentMode = true ∧
    s.b.fget clsTent 0 FTent.opBusy = 0 ∧ s.b.fget clsTent 0 FTent.state = x ∧ s.b.fget clsTent 0 FTent.saved = saved ∧
    ((s.b.fset clsTent 0 FTent.state 1).fset clsTent 0 FTent.saved 0).pasidClash = false := by decide

/-- O18: a freeze and a strike that have settled, a freeze that has run out of ticks, a save with its DRAM running, a
restore in its generation and in another. -/
theorem test_met_tent_ends :
    let b := setAll { Body.reset with
      sys.base := .service
      host.freezes := [(0, ⟨false, 64, true⟩), (1, ⟨true, 64, true⟩), (2, ⟨false, 1000000, true⟩)]
      host.saving := [(3, [1, 2])]
      host.restoring := [(4, 0), (5, 1)] } [(clsTent, 2, FTent.blockers, 1)]
    (mapFind 0 b.host.freezes = some ⟨false, 64, true⟩ ∧ b.fget clsTent 0 FTent.blockers = 0) ∧
    (mapFind 1 b.host.freezes = some ⟨true, 64, true⟩ ∧ b.fget clsTent 1 FTent.blockers = 0) ∧
    (mapFind 2 b.host.freezes = some ⟨false, 1000000, true⟩ ∧ b.fget clsTent 2 FTent.blockers ≠ 0 ∧
      b.fget clsTent 2 FTent.freezeTicks ≤ 1000000) ∧
    mapFind 3 b.host.saving = some [1, 2] ∧ b.anyFrozen = false ∧
    mapFind 4 b.host.restoring = some 0 ∧ b.generation 4 = 0 ∧ mapFind 5 b.host.restoring = some 1 ∧
    b.generation 5 ≠ 1 := by decide

/-- O18: with no frozen channel no read of an image is held. -/
theorem test_met_save {b : Body} (h : b.anyFrozen = false) : ∀ r ∈ b.imageReads 3, b.dramHeld r.2.1 r.2.2 = false :=
  fun r _ => by simp [Body.dramHeld, h]

/-! Modes, resets and clocks. -/

/-- A device with a management state of its own. -/
def withAdm (m : Mode) (l : List (Nat × Nat × Fld × Nat)) (a : Adm) : State :=
  { inMode m l with b := { (inMode m l).b with adm := a } }

/-- O19: Cold with RESET_N low or supplies lost or neither, drains that are over for each reason, with and without a
frozen channel, and a sensor at its trip temperature. -/
theorem test_met_resets :
    let r := fun (x y : Bool) => ({ inMode .cold [] with b.sys.resetLow := x, b.sys.supplyLost := y } : State)
    let d := withAdm .service [(clsDram, 1, FChan.frozen, 1)] { Adm.reset with draining := some 0 }
    let e := withAdm .service [] { Adm.reset with draining := some 1000000 }
    (∀ x y : Bool, (r x y).b.sys.base = .cold ∧ (r x y).b.sys.resetLow = x ∧ (r x y).b.sys.supplyLost = y) ∧
    (160 * 16 ≤ signedOf 16 ((inMode .service [(clsSensor, 0x20 + 23, FTemp.temp, 2560)]).b.fget clsSensor (0x20 + 23)
      FTemp.temp)) ∧
    (d.b.adm.draining = some 0 ∧ d.b.unreleased = 0 ∧ d.b.anyFrozen = true) ∧
    (e.b.adm.draining = some 1000000 ∧ e.b.fget clsDram 0 FDram.drainTicks ≤ 1000000 ∧ e.b.anyFrozen = false) ∧
    (inMode .boot []).b.sys.base ≠ .cold := by decide

/-- O19: a scope asked for, and the first and the last crossing not ready. -/
theorem test_met_scopes :
    (0x40 : BitVec 8).toNat ∈ (withAdm .service [] { Adm.reset with scopes := [0x10, 0x40] }).b.adm.scopes ∧
    ∀ x ∈ [0, 0x24], x < 0x25 ∧ (inMode .service [(clsClock, 0x100 + x, FCross.ready, 0)]).b.fget clsClock (0x100 + x)
      FCross.ready = 0 := by decide

/-- O20: Boot that ends without a spare, with a status, and well with a core and a cluster lost; Survey below and above
MEAS_LO_MV. -/
theorem test_met_boot :
    ((inMode .boot []).b.sys.base = .boot ∧ (inMode .boot []).b.fget clsPower 0 FPower.bootStatus = 0 ∧
      ((inMode .boot []).b.repairColumns [(3, 0), (3, 0), (3, 0)]).2 = [3] ∧
      ((inMode .boot []).b.repairColumns [(0x17F, 0), (0x20F, 0), (0x17F, 0), (0x20F, 0), (0x17F, 0), (0x20F, 0)]).2 =
        [0x17F, 0x20F]) ∧
    (let s := inMode .survey [(clsPower, 0, FPower.measLoMv, 100), (clsPower, 0, FPower.measHiMv, 200)]
     let b1 := { s.b.endRow1.sampleBank 0 with sys.holdupChg := true, adm.survey.bank := true }
     s.b.sys.base = .survey ∧ s.b.adm.survey.bank = false ∧
     b1.fget clsPower 0 FPower.bankMv < b1.fget clsPower 0 FPower.measLoMv) ∧
    (let s := inMode .survey [(clsPower, 0, FPower.measLoMv, 0)]
     let b1 := { s.b.endRow1.sampleBank 0 with sys.holdupChg := true, adm.survey.bank := true }
     s.b.sys.base = .survey ∧ b1.fget clsPower 0 FPower.measLoMv ≤ b1.fget clsPower 0 FPower.bankMv) := by decide +kernel

/-- O20: a Survey that has not yet run row 7, one that has, and one in which row 8 is due. -/
theorem test_met_survey :
    let a : Adm := { Adm.reset with survey := ⟨[], some 0, true, true⟩ }
    (inMode .survey []).b.adm.survey.bank = false ∧ (withAdm .survey [] a).b.adm.survey.bank = true ∧
    (withAdm .survey [] a).b.rowEightDue = false ∧
    (withAdm .survey [(clsPower, 0, FPower.autoRestore, 1)] { a with
      slots := [(0, ⟨1, false, .config 64 [1] []⟩)] }).b.rowEightDue = true := by decide

/-- O20: a stored set for the N in force and for another; a handover that has not started and one that has. -/
theorem test_met_restore :
    (∀ n ∈ [1, 64],
     let s := withAdm .survey [(clsPower, 0, FPower.autoRestore, 1)] { Adm.reset with
       slots := [(0, ⟨1, false, .config n [1] []⟩)], survey := ⟨[], some 0, true, true⟩ }
     s.b.adm.survey.bank = true ∧ s.b.adm.survey.shown = true ∧ s.b.sys.base = .survey ∧ s.b.fget clsPower 0 FPower.autoRestore = 1 ∧ s.b.adm.bootSet = false ∧
     s.b.storeSlot 0 = some ⟨1, false, .config n [1] []⟩ ∧ s.b.tents = 1 ∧ s.b.pitchPending = false) ∧
    ∀ x : Bool, (withAdm .update [] { Adm.reset with fw := some ⟨1, x, 0⟩ }).b.adm.fw = some ⟨1, x, 0⟩ := by decide

/-- O21: a drain that has settled, sleep that is due, with and without a source that has fired, and in Hold; sleep with
each source enabled and fired. -/
theorem test_met_sleep :
    (let s := inMode .drain [(clsPower, 0, FPower.modeTarget, 3)]
     s.b.sys.base = .drain ∧ s.b.settled = true ∧ s.b.fget clsPower 0 FPower.modeTarget = 3) ∧
    (∀ x ∈ [0, 2], let s := withAdm .standby [] { Adm.reset with sleep := some ⟨.mailbox, [], none⟩, fired := x }
     s.b.adm.sleep = some ⟨.mailbox, [], none⟩ ∧ s.b.sys.base = .standby ∧ s.b.sys.hold = false ∧ s.b.adm.fired = x) ∧
    (let s : State := { withAdm .standby [] { Adm.reset with sleep := some ⟨.mailbox, [], none⟩ } with b.sys.hold := true }
     s.b.adm.sleep = some ⟨.mailbox, [], none⟩ ∧ s.b.sys.base = .standby ∧ s.b.sys.hold = true) ∧
    (let s := withAdm .dormant [(clsPower, 0, FPower.wakeEn, 31)] { Adm.reset with fired := 31 }
     s.b.sys.base = .dormant ∧ s.b.sys.hold = false ∧ ∀ k, k < 5 → (s.b.fget clsPower 0 FPower.wakeEn).testBit k = true ∧
       s.b.adm.fired.testBit k = true) :=
  ⟨by decide +kernel, by decide, by decide, by decide⟩

/-- O21: power about to fail, a Hold that may lift, asleep or not, and the bounds of the sensors' instances. -/
theorem test_met_power :
    (∀ m ∈ [Mode.survey, .dormant], let s := inMode m []
     s.b.sys.base ≠ .cold ∧ s.b.sys.base ≠ .boot ∧ s.b.sys.hold = false ∧ s.b.asleep = decide (m = .dormant)) ∧
    (∀ m ∈ [Mode.service, .dormant], let s : State := { inMode m [] with b.sys.hold := true }
     s.b.sys.hold = true ∧ s.b.brownOut = false) ∧
    (∀ i ∈ [0, 11], i < 12 ∧ (inMode .boot []).b.fget clsSensor i FSupply.offsetMv = 0) ∧
    (∀ i ∈ [0x20, 0x37], 0x20 ≤ i ∧ i < 0x38 ∧ (inMode .boot []).b.fget clsSensor i FTemp.offset = 0) := by decide +kernel

/-- O21: the least and the greatest raw value of a supply and of a temperature, with the offset 0. -/
theorem test_met_raw : (0 : Int) ≤ (0 : BitVec 16).toNat + signedOf 16 0 ∧ (65535 : BitVec 16).toNat + signedOf 16 0 < 65536 ∧
    (-32768 : Int) ≤ (0x8000 : BitVec 16).toInt + signedOf 16 0 ∧ (0x7FFF : BitVec 16).toInt + signedOf 16 0 < 32768 := by
  simp [signedOf]

/-- O21: the first sample of a Survey. -/
theorem test_met_row_one : (inMode .survey []).b.sys.base = .survey ∧ 0 ∉ (inMode .survey []).b.adm.survey.sampled ∧
    (inMode .survey []).b.adm.survey.sampled.length ≠ 35 := by decide

/-- O22: clocks monitored, lost and off by 1,000 ppm and more. -/
theorem test_met_clocks : (inMode .service []).b.sys.base ≠ .cold ∧
    (∀ ck ∈ [ClockIn.sys, .pcie], (inMode .service []).b.monitored ck = true ∧ (inMode .service []).b.isLost ck = false) ∧
    (inMode .service [(clsClock, 0, FClock.pcieLost, 1)]).b.isLost .pcie = true ∧ ClockIn.pcie ≠ .sys ∧
    (-2 ^ 31 : Int) ≤ -1000001 ∧ (1000000 : Int).natAbs ≤ 1000000 ∧ 1000000 < (-1000001 : Int).natAbs := by decide

/-- O22: store writes that end, of every area and of the factory set, before and after their header; a checkpoint that
starts at the end of its period. -/
theorem test_met_store :
    (∀ a ∈ [0, 1, 2, 3, 4], ∀ e h : Bool,
      let s := withAdm .service [] { Adm.reset with job := some ⟨a, e, .nothing, h⟩ }
      s.b.adm.job = some ⟨a, e, .nothing, h⟩ ∧ s.b.sys.base ≠ .cold ∧ s.b.adm.holdDue = false ∧ s.b.adm.ckptDue = false) ∧
    (let s := inMode .service [(clsPower, 0, FPower.ckptMs, 10)]
     s.b.fget clsPower 0 FPower.ckptMs ≠ 0 ∧ s.b.sys.base ≠ .cold ∧ s.b.sys.base ≠ .boot ∧ s.b.asleep = false ∧
     s.b.adm.ckptDue = false ∧
     (let d := (Dev.mk s.tm s.b).waitUntil ((s.b.adm.ckptAt + 10 * 1000000 * 2 ^ 16) % 2 ^ 64)
      d.b.adm.job = none ∧ d.b.ckptHeld = false)) := by
  constructor
  · decide
  · decide +kernel

/-! Shesin commands, through the mailbox. -/

/-- A message without a tag: version 1, opcode `op`, parameters `p`. -/
def message (op : Nat) (p : List Byte) : List Byte :=
  [1, 0] ++ beBytes 2 (20 + p.length) ++ [0, 0, 0, 0, 0, 0, 0, 0, 0, 0] ++ beBytes 2 op ++ [0, 0, 0, 0] ++ p

/-- A device whose mailbox holds a message. -/
def mailed (m : Mode) (l : List (Nat × Nat × Fld × Nat)) (op : Nat) (p : List Byte) : State :=
  { inMode m l with b := { (inMode m l).b with
    mem.bmem := writeBytes [] 0x7F0000 (message op p), adm.mailbox := ⟨true, false, true, 0, false⟩ } }

/-- What the checks leave of it. -/
def checked (m : Mode) (l : List (Nat × Nat × Fld × Nat)) (op : Nat) (p : List Byte) : Body :=
  (((mailed m l op p).b.takeUp .mailbox).checks .mailbox ((message op p).take (be16 (message op p) 2))).2.2.2

/-- What Received asks for, as a computation. -/
def receivedAll (m : Mode) (l : List (Nat × Nat × Fld × Nat)) (op : Nat) (p : List Byte) : Bool :=
  let s := mailed m l op p
  let x := message op p
  s.b.serves && s.b.firstCome .mailbox && decide (s.b.messageAt .mailbox = some (some (.mailbox, x))) && !badMessage x && opcodeOf x == op &&
    opcodeOf (x.take (be16 x 2)) == op && paramsOf (x.take (be16 x 2)) == p &&
    ((s.b.takeUp .mailbox).checks .mailbox (x.take (be16 x 2))).2.1 == stOk

theorem received_of {m : Mode} {l : List (Nat × Nat × Fld × Nat)} {op : Nat} {p : List Byte}
    (h : receivedAll m l op p = true) : ∃ c au, Received (mailed m l op p) .mailbox op c au p (checked m l op p) := by
  simp only [receivedAll, Bool.and_eq_true, decide_eq_true_eq, Bool.not_eq_true', beq_iff_eq] at h
  obtain ⟨⟨⟨⟨⟨⟨⟨h1, h0⟩, h2⟩, h3⟩, h4⟩, h5⟩, h6⟩, h7⟩ := h
  exact ⟨_, _, h1, h0, _, _, h2, h3, h4, h5, h6, by rw [← h7]; rfl⟩

/-- O23: a message of each object opcode, with an access that succeeds. -/
theorem test_met_object_opcodes :
    (∃ c au, Received (mailed .standby [] 0x01 [1, 2]) .mailbox 0x01 c au [1, 2] (checked .standby [] 0x01 [1, 2])) ∧
    (∃ c au, Received (mailed .standby [] 0x02 []) .mailbox 0x02 c au [] (checked .standby [] 0x02 [])) ∧
    (let p : List Byte := [10, 0, 0, 127, 0, 1, 0, 1]
     (∃ c au, Received (mailed .standby [] 0x10 p) .mailbox 0x10 c au p (checked .standby [] 0x10 p)) ∧
     objAddress p = (10, 127, 1, 1) ∧ ((Dev.mk Time.reset (checked .standby [] 0x10 p)).objRead .biv 10 127 1 1).1 = stOk) ∧
    (let p : List Byte := [10, 0, 0, 127, 0, 1, 0, 1, 0, 0, 16, 0]
     (∃ c au, Received (mailed .standby [] 0x11 p) .mailbox 0x11 c au p (checked .standby [] 0x11 p)) ∧
     ((Dev.mk Time.reset (checked .standby [] 0x11 p)).objWrite .biv 10 127 1 [4096]).1 = stOk) ∧
    (let p : List Byte := [10, 0, 0, 127, 0, 1, 0, 1, 0xFF, 0xFF, 0xFF, 0xFF, 0, 0, 16, 0]
     (∃ c au, Received (mailed .standby [] 0x12 p) .mailbox 0x12 c au p (checked .standby [] 0x12 p)) ∧
     ((Dev.mk Time.reset (checked .standby [] 0x12 p)).objModify .biv 10 127 1 0xFFFFFFFF 4096).1 = stOk) :=
  ⟨received_of (by decide), received_of (by decide), ⟨received_of (by decide), by decide, by decide⟩,
    ⟨received_of (by decide), by decide⟩, received_of (by decide), by decide⟩

/-- O24: mode changes, to Survey and to Dormant, and resets. -/
theorem test_met_mode_set :
    (let p : List Byte := [2, 0, 0, 0]
     (∃ c au, Received (mailed .standby [] 0x20 p) .mailbox 0x20 c au p (checked .standby [] 0x20 p)) ∧
     ((checked .standby [] 0x20 p).modeSet 2).1 = some stOk) ∧
    (let p : List Byte := [11, 0, 0, 0]
     let l := [(clsPower, 0, FPower.wakeEn, 1)]
     (∃ c au, Received (mailed .standby l 0x20 p) .mailbox 0x20 c au p (checked .standby l 0x20 p)) ∧
     ((checked .standby l 0x20 p).modeSet 11).1 = none) ∧
    (∀ x ∈ [(0 : Byte), 0x40], (∃ c au, Received (mailed .standby [] 0x22 [x, 0, 0, 0]) .mailbox 0x22 c au [x, 0, 0, 0]
      (checked .standby [] 0x22 [x, 0, 0, 0])) ∧ (checked .standby [] 0x22 [x, 0, 0, 0]).scopeStatus x.toNat = stOk) := by
  refine ⟨⟨received_of (by decide), by decide⟩, ⟨received_of (by decide), by decide⟩, ?_⟩
  intro x hx
  simp only [List.mem_cons, List.not_mem_nil, or_false] at hx
  obtain rfl | rfl := hx <;> exact ⟨received_of (by decide), by decide⟩

/-- A device with a frozen channel 7, and one whose bank has energy to spare. -/
def frozen7 : List (Nat × Nat × Fld × Nat) := [(clsDram, 0, FDram.channels, 8), (clsDram, 8, FChan.present, 1),
  (clsDram, 8, FChan.frozen, 1)]
def charged : List (Nat × Nat × Fld × Nat) := [(clsPower, 0, FPower.bankCapUf, 100000000), (clsPower, 0, FPower.bankMv, 12000),
  (clsPower, 0, FPower.bankMinMv, 6000), (clsPower, 0, FPower.holdLoadMw, 1)]

/-- O24: thawing, and instruction memory at the bounds of CORE, OFFSET and COUNT. -/
theorem test_met_thaw_imem :
    (let p : List Byte := [7, 1, 0, 0]
     let b := checked .service frozen7 0x21 p
     (∃ c au, Received (mailed .service frozen7 0x21 p) .mailbox 0x21 c au p b) ∧ byteAt p 0 ≤ 7 ∧
     byteAt p 0 < b.dramChannels ∧ b.frozen (byteAt p 0) = true ∧
     ((b.fset clsDram (chanInst (byteAt p 0)) FChan.repair (byteAt p 1 % 2)).thawChannel Time.reset (byteAt p 0) none).1 = stOk) ∧
    (let p : List Byte := [127, 0, 0xFF, 0xFC, 1, 2, 3, 4]
     let b := checked .bench [] 0x30 p
     (∃ c au, Received (mailed .bench [] 0x30 p) .mailbox 0x30 c au p b) ∧
     imemStatus (byteAt p 0) (be16 p 2) ((p.length - 4) / 4) = stOk ∧ (b.inBench && b.coreAtWork (byteAt p 0)) = false) ∧
    (let p : List Byte := [0, 0, 0xF0, 0, 4, 0, 0, 0]
     (∃ c au, Received (mailed .service [] 0x31 p) .mailbox 0x31 c au p (checked .service [] 0x31 p)) ∧
     imemStatus (byteAt p 0) (be16 p 2) (be16 p 4) = stOk) :=
  ⟨⟨received_of (by decide), by decide, by decide, by decide, by decide +kernel⟩,
    ⟨received_of (by decide), by decide, by decide⟩, received_of (by decide), by decide⟩

/-- O24: the store; a key given plain; a write that has the energy. -/
theorem test_met_store_opcodes :
    (∀ x ∈ [(0 : Byte), 1], ∃ c au, Received (mailed .standby [] 0x40 [x, 0, 0, 0]) .mailbox 0x40 c au [x, 0, 0, 0]
      (checked .standby [] 0x40 [x, 0, 0, 0])) ∧
    (let p : List Byte := [2, 0, 4, 0, 0, 15, 0xFC, 0]
     (∃ c au, Received (mailed .standby [] 0x41 p) .mailbox 0x41 c au p (checked .standby [] 0x41 p)) ∧ byteAt p 0 < 3 ∧
     be16 p 2 = 1024 ∧ beNat ((p.drop 4).take 4) + be16 p 2 = slotSize (byteAt p 0)) ∧
    (let b := checked .standby charged 0x42 []
     (∃ c au, Received (mailed .standby charged 0x42 []) .mailbox 0x42 c au [] b) ∧ (b.storeWrite 1 true .nothing).1 = stOk ∧
     b.adm.job = none ∧ (b.energyCheck 1 StoreBody.nothing.bytes.length).1 = true) ∧
    (∀ x ∈ [(0xFF : Byte), 0], let p : List Byte := [x, 0, 0, 0] ++ List.replicate 32 7
     let b := checked .standby [] 0x43 p
     (∃ c au, Received (mailed .standby [] 0x43 p) .mailbox 0x43 c au p b) ∧ (byteAt p 0 = 0xFF ∨ byteAt p 0 < b.tents) ∧
     b.carriedKey p = some (List.replicate 32 7)) := by
  refine ⟨?_, ⟨received_of (by decide), by decide +kernel⟩,
    ⟨received_of (by decide), by decide +kernel, by decide, by decide +kernel⟩, ?_⟩
  · intro x hx
    simp only [List.mem_cons, List.not_mem_nil, or_false] at hx
    obtain rfl | rfl := hx <;> exact received_of (by decide)
  · intro x hx
    simp only [List.mem_cons, List.not_mem_nil, or_false] at hx
    obtain rfl | rfl := hx <;> exact ⟨received_of (by decide +kernel), by decide +kernel, by decide +kernel⟩

/-- O24: modules at the last cage and byte, firmware. -/
theorem test_met_module_firmware :
    (let p : List Byte := [15, 0, 128, 128]
     (∃ c au, Received (mailed .standby [] 0x50 p) .mailbox 0x50 c au p (checked .standby [] 0x50 p)) ∧
     byteAt p 0 = 15 ∧ byteAt p 3 = 128 ∧ byteAt p 2 + byteAt p 3 = 256) ∧
    (let p : List Byte := [0, 0, 255, 1, 9]
     (∃ c au, Received (mailed .standby [] 0x51 p) .mailbox 0x51 c au p (checked .standby [] 0x51 p)) ∧
     byteAt p 3 = 1 ∧ byteAt p 2 + byteAt p 3 = 256) ∧
    (let p : List Byte := [0, 0x7F, 0xFF, 0xFF, 9]
     let b := checked .standby [] 0x60 p
     (∃ c au, Received (mailed .standby [] 0x60 p) .mailbox 0x60 c au p b) ∧
     beNat (p.take 4) + (p.drop 4).length = 2 ^ 23 ∧ b.adm.job = none) ∧
    (let b := checked .standby [] 0x61 []
     (∃ c au, Received (mailed .standby [] 0x61 []) .mailbox 0x61 c au [] b) ∧ b.adm.fw = none) :=
  ⟨⟨received_of (by decide), by decide⟩, ⟨received_of (by decide), by decide⟩,
    ⟨received_of (by decide), by decide⟩, received_of (by decide), by decide⟩

/-- O25: a malformed message, and one whose length is wrong for its opcode. -/
theorem test_met_refusals :
    (let s : State := { inMode .standby [] with b := { (inMode .standby []).b with adm.mailbox := ⟨true, false, true, 0, false⟩ } }
     s.b.serves = true ∧ s.b.messageAt .mailbox = some (some (.mailbox, List.replicate 20 0)) ∧
     badMessage (List.replicate 20 0) = true) ∧
    (let s := mailed .standby [] 0x02 [1]
     let l := message 0x02 [1]
     s.b.serves = true ∧ s.b.messageAt .mailbox = some (some (.mailbox, l)) ∧ badMessage l = false ∧ opcodeOf l = 0x02 ∧
     opcodeOf (l.take (be16 l 2)) = 0x02 ∧ ((s.b.takeUp .mailbox).checks .mailbox (l.take (be16 l 2))).2.1 ≠ stOk) := by decide

/-- O26: a slot not seen, and one ahead of, 63 behind and 64 behind the highest sequence, for the last key and slot. -/
theorem test_met_replay :
    let b := setAll Body.reset [(clsDevice, 0x100 + 0xFF, FKey.seen, 8), (clsDevice, 0x100 + 0xFF, FKey.highSeq 3, 100)]
    (Body.reset.fget clsDevice (0x100 + 0xFF) FKey.seen).testBit 3 = false ∧
    (b.fget clsDevice (0x100 + 0xFF) FKey.seen).testBit 3 = true ∧
    0 < tickDiff 101 (b.fget clsDevice (0x100 + 0xFF) (FKey.highSeq 3)) ∧
    tickDiff 36 (b.fget clsDevice (0x100 + 0xFF) (FKey.highSeq 3)) ≤ -64 ∧
    (b.replayCheck 0xFF 3 37).1 = true ∧ (b.replayCheck 0xFF 3 36).1 = false ∧ 2 ^ 32 - 1 < 2 ^ 32 := by decide

/-- O27: an interrupt that is requested, transmit records at the bounds of LENGTH, a mailbox GO. -/
theorem test_met_bivouac :
    (let s := inMode .service [(clsIrq, irqCore 3, FIrqDev.request, 1), (clsDevice, 4, FBiv.ie, 1)]
     s.b.bivRuns = true ∧ s.b.coreRequest 3 = true ∧ s.b.fget clsDevice (1 + 3) FBiv.ie = 1 ∧
     (s.b.hart (1024 + 3)).inTrap = false) ∧
    (∀ n ∈ [60, 16379], let w : Word := BitVec.ofNat 32 (n + 2 ^ 14 + 64 * 2 ^ 16)
     w.getLsbD 14 = true ∧ 60 ≤ w.toNat % 2 ^ 14 ∧ w.toNat % 2 ^ 14 ≤ 16379 ∧ bitsAt w.toNat 16 7 ≤ 64) ∧
    (60 : Word).getLsbD 14 = false ∧
    ((inMode .service []).b.hostIn = true ∧ (inMode .service []).b.adm.mailbox.busy = false ∧ (1 : Word).getLsbD 0 = true ∧
     ∀ k, k < 32 → ((4 ≤ k ∧ k < 16) ∨ 29 ≤ k) → (1 : Word).getLsbD k = false) := by
  refine ⟨?_, ?_, ?_, ?_⟩ <;> decide

/-! Ports, Intake, the Headgate and dispatch. -/

/-- A device with an egress port of its own. -/
def withPort (m : Mode) (l : List (Nat × Nat × Fld × Nat)) (p : Nat) (x : EgPort) : State :=
  { inMode m l with b := (inMode m l).b.setEg p x }

/-- A port that is up, with ADMIN_UP = 1. -/
def upPort (p : Nat) : List (Nat × Nat × Fld × Nat) := [(clsPort, p, FPort.operState, 3), (clsPort, p, FPort.adminUp, 1)]

/-- O28, O29: links that may come up, the service port's under SGMII among them, and links that are up, with and without
a frame in transmission. -/
theorem test_met_links :
    (∀ e ∈ [(0, Mode.service, 0), (64, .standby, 0), (64, .standby, 4)],
     let s := inMode e.2.1 [(clsPort, e.1, FPort.adminUp, 1), (clsPort, e.1, FPort.mode, e.2.2)]
     e.1 ≤ 64 ∧ s.b.portPresent e.1 = true ∧ s.b.fget clsPort e.1 FPort.adminUp = 1 ∧ s.b.modeAllowsPort e.1 = true ∧
     s.b.portUp e.1 = false ∧ s.b.linkReady e.1 = true ∧ s.b.fget clsPort e.1 FPort.mode = e.2.2) ∧
    (1 ≤ (1 : BitVec 3).toNat ∧ (3 : BitVec 3).toNat ≤ 3) ∧
    (∀ x ∈ [none, some ⟨7, aFrame, 0, 100⟩], let s := withPort .service (upPort 64) 64 { EgPort.reset with sending := x }
     s.b.portPresent 64 = true ∧ s.b.fget clsPort 64 FPort.operState = 3 ∧ (s.b.eg 64).sending = x) := by decide

/-- O28: a gate list with a later entry in its cycle, a pause, a partner held off. -/
theorem test_met_gates :
    (let s := inMode .service [(clsEgress, 64, FEgress.operLen, 2), (clsEgress, 64, gateDuration true 0, 10)]
     (gateAt (s.b.gateList 64 true) (timeDiff s.tm.now (s.b.eg 64).cycleStart).toNat).2 = some (10 * 2 ^ 16) ∧
     ((10 * 2 ^ 16 : Nat) : Int) < timeDiff ((s.b.eg 64).cycleEnd s.tm) s.tm.now) ∧
    (let s := withPort .service [] 64 { EgPort.reset with pauses := [(7, 5)] }
     mapFind 7 (s.b.eg 64).pauses = some 5) ∧
    (let s := withPort .service ((clsPort, 0, FPort.fcTxEn, 1) :: (clsPort, 0, FPort.xonKib, 65535) :: upPort 0) 0
       { EgPort.reset with xoff := some 0 }
     (s.b.eg 0).xoff = some 0 ∧ s.b.fget clsPort 0 FPort.fcTxEn = 1 ∧ s.b.portUp 0 = true ∧
     (let d := (Dev.mk s.tm s.b).waitUntil ((0 + bitTime16 (s.b.fget clsPort 0 FPort.pauseQuanta * 256) (s.b.portRate 0)) % 2 ^ 64)
      d.b.freeOnchipKib < d.b.fget clsPort 0 FPort.xonKib)) :=
  ⟨by decide, by decide, by decide +kernel⟩

/-- O28: a direct-path frame with and without a free slot, and a frame for the Bivouac at the head of port 67. -/
theorem test_met_bivouac_rx :
    let f : InFrame := ⟨0, 64, 3, 0, none, 0, none⟩
    let s : State := { inMode .service [] with b := { (inMode .service []).b with net.bivIn := [f] } }
    let r : State := { s with b.mem.bmem := writeLE [] (rxRecord 0) 4 (2 ^ 14) }
    let q := withPort .service [] 67 { EgPort.reset with queues := [(7, [aFrame])] }
    s.b.crossReady 0x24 = true ∧ s.b.net.bivIn = [f] ∧ ({ s.b with net.bivIn := [] } : Body).rxSlotFree = true ∧
    ({ r.b with net.bivIn := [] } : Body).rxSlotFree = false ∧ q.b.rxSlotFree = true ∧
    q.b.pickClass q.tm 67 = some (7, aFrame, false) := by decide

/-- A port that receives `l` into buffer 5, of pool 0. -/
def receiving (l : List Byte) : State :=
  { inMode .service (upPort 64) with b := { (inMode .service (upPort 64)).b with
    net.rx := [(64, ⟨9, some 5, l⟩)], work.bufs := [(5, aBuf)] } }

/-- O30: a port that may receive, with room and without. -/
theorem test_met_rx_start :
    let s := inMode .service (upPort 64)
    let r : State := { s with b.work.rxQuota := 0 }
    s.b.portUp 64 = true ∧ s.b.crossReady (rxCross 64) = true ∧ s.b.rx? 64 = none ∧
    s.b.chargeFits .rx (poolSize (s.b.fget clsPool 0x100 (rxFloor 64))) = true ∧
    (s.b.takeBuf (s.b.fget clsPool 0x100 (rxFloor 64)) .rx .rx []).isSome = true ∧
    r.b.chargeFits .rx (poolSize (r.b.fget clsPool 0x100 (rxFloor 64))) = false := by
  refine ⟨?_, ?_, ?_, ?_, rfl, ?_⟩ <;> decide

/-- A frame of 64 bytes that is no MAC control frame, and a PAUSE frame. -/
def plainFrame : List Byte := sealFrame (List.replicate 60 0)
def pauseFrame : List Byte := sealFrame (List.replicate 12 0 ++ [0x88, 0x08, 0, 1] ++ List.replicate 44 0)

/-- O30: ends of reception for each reason, with flow control and with a good frame, with room and without, and on the
direct path. -/
theorem test_met_rx_end :
    (∀ e ∈ [(plainFrame, true, true, FPort.rxPcsErr), (plainFrame.take 63, false, true, FPort.rxRunt),
        (plainFrame, false, false, FPort.rxFcsErr), (plainFrame.take 63 ++ [0], false, true, FPort.rxFcsErr)],
      let s := receiving e.1
      (s.b.receive 64 []).rx? 64 = some ⟨9, some 5, e.1⟩ ∧
      (s.b.receive 64 []).rxReason 64 ⟨9, some 5, e.1⟩ e.2.1 e.2.2.1 = some e.2.2.2) ∧
    (let s := receiving pauseFrame
     (s.b.receive 64 []).rxReason 64 ⟨9, some 5, pauseFrame⟩ false true = none ∧ flowKind pauseFrame = some false) ∧
    (∀ e ∈ [(0, 0), (0, 256), (1, 0)],
     let s0 := receiving plainFrame
     let s : State := { s0 with b := { setAll s0.b [(clsDevice, 0, FDevice.cmdPorts, e.1 * 2 ^ 64),
       (clsDevice, 0, FDevice.cmdMac, 0), (clsDevice, 0, FDevice.cmdEthertype, 0)] with
       net.input := [(64, List.replicate e.2 ⟨5, 64, 64, 0, none, 0, none⟩)] } }
     let b := ((((s.b.receive 64 []).endRx 64).putBuf 5 plainFrame).bump clsPort 64 FPort.rxFrames 1).bump clsPort 64
       FPort.rxBytes 64
     (s.b.receive 64 []).rx? 64 = some ⟨9, some 5, plainFrame⟩ ∧
     (s.b.receive 64 []).rxReason 64 ⟨9, some 5, plainFrame⟩ false true = none ∧ flowKind plainFrame = none ∧
     b.directPath 64 plainFrame = (e.1 == 1) ∧ (b.inputQueue 64).length = e.2) := by
  refine ⟨?_, ?_, ?_⟩ <;> decide +kernel

/-- O31: a class that may start on a line port and on port 66; a frame in transmission, with and without a stamp. -/
theorem test_met_egress :
    (let s := withPort .service (upPort 64) 64 { EgPort.reset with queues := [(0, [aFrame])] }
     s.b.portUp 64 = true ∧ s.b.crossReady (txCross 64) = true ∧ (s.b.eg 64).sending = none ∧
     s.b.pickClass s.tm 64 = some (0, aFrame, false)) ∧
    (∀ x : Bool, let f : EgFrame := { aFrame with strip := x }
     let s := withPort .service [] 66 { EgPort.reset with queues := [(7, [f])] }
     s.b.inputRoom 66 = true ∧ s.b.pickClass s.tm 66 = some (7, f, false) ∧ f.strip = x) ∧
    (∀ e ∈ [(0, 0), (2 ^ 59, 63), (2 ^ 59, 64)],
      let x : Sending := ⟨0, { aFrame with body := e.1 }, 0, 0⟩
      let g : EgPort := { EgPort.reset with sending := some x, stamps := List.replicate e.2 (0, 0) }
      ((withPort .service (upPort 64) 64 g).b.eg 64).sending = some x ∧
      bitsAt x.frame.body 59 1 = (if e.1 = 0 then 0 else 1) ∧ g.stamps.length = e.2) := by
  refine ⟨?_, ?_, ?_⟩ <;> decide +kernel

/-- O31: an eliminating stream whose head passes, one whose head is a duplicate; a quiet stream; a port down too long. -/
theorem test_met_redundancy :
    let f : EgFrame := { aFrame with stream := some 4095 }
    let fs := [(clsRedund, 4095, FRedund.function, 3), (clsRedund, 4095, FRedund.passUntagged, 1)]
    let s := withPort .service fs 3 { EgPort.reset with queues := [(7, [f])] }
    let r : State := { s with b := s.b.fset clsRedund 4095 FRedund.passUntagged 0 }
    let q : State := { s with b := s.b.setRecov 4095 ⟨false, 0, 2 ^ 20, true⟩ }
    s.b.egQueue 3 7 = [f] ∧ s.b.toJudge 3 7 = some f ∧ f.stream = some 4095 ∧ s.b.streamFn 4095 = 3 ∧
    (s.b.eliminate 4095 (rTagOf (s.b.egBytes f))).1 = true ∧ (r.b.eliminate 4095 (rTagOf (r.b.egBytes f))).1 = false ∧
    q.b.fget clsRedund 4095 FRedund.resetTicks ≤ (q.b.recov 4095).quiet ∧
    -- on port 65 the first frame of a tent
    (withPort .service fs 65 { EgPort.reset with queues := [(0, [f])] }).b.toJudge 65 0 = some f ∧
    (let d : State := { inMode .service [] with b.work.tickSets := 2 ^ 20 }
     d.b.portUp 64 = false ∧ d.b.fget clsPort 64 FPort.holdLimit + 1 ≤ d.b.work.tickSets - (d.b.eg 64).downSince) := by
  decide

/-- O32: a frame at the input; a pass whose stage may answer, behind one that has ended. -/
theorem test_met_intake :
    let f : InFrame := ⟨0, 64, 3, 0, none, 0, none⟩
    let x : Pass := ⟨f, 0, 0, false, 0, 7, 0, none, 0, none, false, false, []⟩
    let s : State := { inMode .service [] with b := { (inMode .service []).b with
      net.input := [(3, [f])], net.waiting := [(4, [⟨x, true⟩, ⟨x, false⟩])] } }
    s.b.asleep = false ∧ s.b.bufHeld f.buffer = false ∧ s.b.inputQueue 3 = [f] ∧ s.b.passes 4 = [⟨x, true⟩] ++ (⟨x, false⟩ : Waiting) :: [] ∧
    s.b.stageHeld x = false := by decide

/-- O32: a draft handed off in the present cycle, whose check waits for the next; it is refused, and with its queue
enabled admitted. -/
theorem test_met_drafts :
    let x : Draft := ⟨aDesc, 0, 0, none, 0⟩
    let s : State := { inMode .service [] with b.work.drafts := [x] }
    let d := (Dev.mk s.tm s.b).waitCycle s.b.checkAt
    let b1 : Body := { d.b with work := { d.b.work with drafts := [], checkCount := 1, checkCycle := d.b.clock } }
    s.b.work.drafts ≠ [] ∧ d.b.work.drafts.find? (fun y => decide (y.cyc < d.b.clock)) = some x ∧
    b1.refusal d.tm x = some 2 ∧ (b1.fset clsQueue 0 FQueue.enable 1).refusal d.tm x = none ∧
    ((b1.fset clsQueue 0 FQueue.enable 1).admitDraft d.tm x).isSome = true :=
  ⟨by decide, by decide, by decide, by decide, rfl⟩

/-! Threads, their events and the Outfall. -/

/-- An event-only item and a frame item of queue 0. -/
def eventItem : Item := ⟨.event, 0, 0, aDesc, 0, 0, 0, 0, 0, 100, [], [], false⟩
def frameItem : Item := { eventItem with src := .slot 0 }

/-- Thread 1023 in a mode, with `x` given. -/
def last (m : Mode) (l : List (Nat × Nat × Fld × Nat)) (x : Hart) : State := withHart m l 1023 x

/-- A thread that runs an item. -/
def running (it : Item) : Hart := { Hart.reset with phase := .running, item := some it }

/-- O33: a ready queue and a free thread, a re-dispatched item, slots that are complete, switches. -/
theorem test_met_dispatch :
    (let s : State := { inMode .service [] with b.work.ready := [16] }
     s.b.runs = true ∧ s.b.nextRedispatch 0 = none ∧ s.b.pickPair 0 (s.b.freeThreads 0) = some (0, 16)) ∧
    (let s : State := { inMode .service [] with b.work.redispatch := [(15, frameItem)] }
     s.b.runs = true ∧ s.b.nextRedispatch 15 = some (15, frameItem, 960)) ∧
    (∀ it ∈ [eventItem, frameItem],
     let s := last .service [] { Hart.reset with phase := .loading, loading := some (it, 8) }
     (s.b.hart 1023).loading = some (it, 8) ∧ (it.src = .event ∨ s.b.bufHeld it.desc.buffer = false)) ∧
    (let s := last .service [] Hart.reset
     (s.b.core 127).issuing = some 1023 ∧ s.b.able 1023 = false ∧ s.b.nextThread 127 none = none) ∧
    (let s := withHart .service [] 1016 (running eventItem)
     let r : State := { s with b := s.b.setCore 127 CoreSt.reset }
     (r.b.core 127).issuing = none ∧ r.b.nextThread 127 none = some 1016) := by
  refine ⟨⟨?_, ?_, ?_⟩, ?_, ?_, ?_, ?_⟩ <;> decide +kernel

/-- O33: a thread that waits 12 cycles for a Runnel result, alone in its core and with another that is able. -/
theorem test_met_switch : ∀ e ∈ [none, some 1016],
    let x : Hart := { running eventItem with score := [⟨scSample 0, 11, true, false, 0⟩] }
    let s0 := last .service [] x
    let s1 : State := if e = none then s0 else { s0 with b := s0.b.setHart 1016 (running eventItem) }
    let s : State := { s1 with b.mem.imem := writeLE [] (imemAddr 127 0) 4 (0x31 * 2 ^ 26) }
    (s.b.core 127).issuing = some 1023 ∧ s.b.able 1023 = true ∧ s.b.mustSwitch s.tm 1023 = true ∧
    s.b.nextThread 127 (some 1023) = e := by decide +kernel

/-- O35: the cap, in and out of a handler; the grace; the core's watchdog; a wait set that has held. -/
theorem test_met_thread_events :
    (∀ t : Bool, let s := last .service [] { running { frameItem with cycles := 100 } with inTrap := t }
      (s.b.hart 1023).item = some { frameItem with cycles := 100 } ∧ frameItem.src ≠ .event ∧ frameItem.overrun = false ∧
      frameItem.cap ≤ 100 ∧ s.b.inBench = false ∧ (s.b.hart 1023).phase = .running ∧ (s.b.hart 1023).inTrap = t) ∧
    (let it : Item := { frameItem with overrun := true }
     let s := last .service [] { running it with graceUsed := 2 ^ 20 }
     (s.b.hart 1023).item = some it ∧
     s.b.fget clsTick (classInst it.tent it.desc.cls) FClass.divertGrace ≤ (s.b.hart 1023).graceUsed) ∧
    (let s := last .service [] (running eventItem)
     s.b.able (8 * 127 + 7) = true ∧ s.b.fget clsCore 127 FCore.state = 0) ∧
    (∀ g ∈ [none, some (0, 0)],
      let w : WaitSet := ⟨15, g, 3, false⟩
      ({ State.reset with b.adm.waits := [w] } : State).b.adm.waits.find?
        (fun w => decide (w.cluster = 15 ∧ w.group = g ∧ 3 ≤ w.held) && !w.disarmed) = some w) := by
  refine ⟨?_, ?_, ?_, ?_⟩ <;> decide

/-- O36: timers, requests with a known reply and for frame words, direct messages to a live peer with room and to a
retired one. -/
theorem test_met_timers :
    (let s := last .service [] { running frameItem with
       timer := some (5, 0xFF), taskTimer := some (9, 0), reqs := [⟨1, 0, .drd 0 1, some [7]⟩, ⟨2, 1, .frd 0 1, none⟩] }
     (s.b.hart 1023).timer = some (5, 0xFF) ∧ (s.b.hart 1023).taskTimer = some (9, 0) ∧
     (s.b.hart 1023).reqs.find? (fun r => r.ep == 1) = some ⟨1, 0, .drd 0 1, some [7]⟩ ∧
     (s.b.hart 1023).reqs.find? (fun r => r.ep == 2) = some ⟨2, 1, .frd 0 1, none⟩ ∧
     (s.b.hart 1023).item = some frameItem ∧ s.b.bufHeld frameItem.desc.buffer = false) ∧
    (∀ gone : Bool,
     let s0 := last .service [] { running eventItem with block := .direct 8 0 15 [1, 2] }
     let s : State := if gone then { s0 with b := s0.b.setHart 0 { Hart.reset with phase := .retired } } else s0
     (s.b.hart 1023).block = .direct 8 0 15 [1, 2] ∧ (s.b.hart 1023).halted = false ∧
     (if gone then s.b.live 0 = false else s.b.live 0 = true ∧ (s.b.hart 0).wordsIn 15 + 2 ≤ 16)) := by decide

/-- O37: an item to hand over, a commit that waits for room, items that may be committed and diverted. -/
theorem test_met_outfall :
    (∀ dv : Bool, let s := last .service [] { running eventItem with block := .handover dv }
      (s.b.hart 1023).block = .handover dv ∧ (s.b.hart 1023).halted = false ∧ (s.b.hart 1023).awaits = false ∧
      (∀ o, o ∈ s.b.work.commits → o.thread ≠ some 1023)) ∧
    (let o : OItem := ⟨1, some 1023, some 1023, 15, frameItem, none, .thread, 0⟩
     let s : State := { last .service [] (running frameItem) with b.work.commits := [o] }
     s.b.work.commits.find? (fun o => decide (o.thread = some 1023)) = some o ∧ s.b.logRoom o.item = true ∧
     (s.b.hart 1023).halted = false) ∧
    (let o : OItem := ⟨1, none, none, 15, eventItem, none, .stage, 0⟩
     let s : State := { inMode .service [] with b.work.commits := [o] }
     s.b.runs = true ∧ s.b.nextRelease s.tm false = some o) ∧
    (let o : OItem := ⟨1, none, none, 15, frameItem, some .program, .stage, 0⟩
     let s : State := { inMode .service [] with b.work.commits := [o] }
     s.b.runs = true ∧ s.b.nextRelease s.tm true = some o) := by
  refine ⟨?_, ?_, ?_, ?_⟩ <;> decide

/-! Tables, the Basin, memories and DRAM. -/

/-- Table 7 on, of kind 4, with shadows and ageing. -/
def withTable (t : Tab) : State :=
  let s := inMode .service [(clsTable, 7, FTable.enable, 1), (clsTable, 7, FTable.kind, 4), (clsTable, 7, FTable.sizeLog2, 8),
    (clsTable, 7, FTable.shadowEn, 1), (clsTable, 7, FTable.shadowRate, 1), (clsLearn, 0, FLearn.ageEn, 1)]
  { s with b := { s.b with tab := t, work.tickSets := 9 } }

/-- A window's request of operation `op` for table 7; an insertion is static. -/
def tabReq (op : Nat) : TabReq := ⟨1, 0, .window 0, none, op + 7 * 2 ^ 16 + (if op = 2 then 0x80 * 2 ^ 64 else 0)⟩

/-- O38: requests of every operation that may be performed, and refused ones, in the cycle after their arrival. -/
theorem test_met_table_requests :
    (∀ op ∈ [0, 1, 2, 3, 4, 5],
      let r := tabReq op
      let s := withTable ⟨[], [r], [], [], []⟩
      let d := (Dev.mk s.tm s.b).waitCycle ((Dev.mk s.tm s.b).reqCycle r)
      s.b.tab.reqs[0]? = some r ∧ d.b.rqReady r = true ∧ rqOp r.block = op ∧
      (d.b.dropReq r).rqRefusal r.origin r.tent r.block = none ∧ d.b.rqRefusal r.origin r.tent r.block = none ∧
      mapHas (rqInst r.block) d.b.tab.walks = false) ∧
    (∀ op ∈ [0, 1, 2, 3, 4, 5, 6, 15],
      let r : TabReq := ⟨1, 0, .window 0, none, op⟩
      let s := withTable ⟨[], [r], [], [], []⟩
      let d := (Dev.mk s.tm s.b).waitCycle ((Dev.mk s.tm s.b).reqCycle r)
      s.b.tab.reqs[0]? = some r ∧ d.b.rqReady r = true ∧ rqOp r.block = op ∧
      (∀ x ∈ [d.b, d.b.dropReq r], x.rqRefusal r.origin r.tent r.block =
        some (if op < 6 then stNoSuchObject else stUnknownOpcode))) := by
  constructor <;> decide +kernel

/-- O38: a walk in progress and at its end; shadow checks, a recheck; the ager. -/
theorem test_met_table_walkers :
    (∀ k ∈ [0, 63],
      let w : Walk := ⟨tabReq 4, k, 0⟩
      let s := withTable ⟨[], [], [(7, w)], [], []⟩
      mapFind 7 s.b.tab.walks = some w ∧ s.b.tableHeld (s.b.tableGeo 7) ((s.b.tableGeo 7).walkSlots k) = false ∧
      s.b.tableOn 7 = true ∧ s.b.tableClearing 7 = false ∧
      (if k = 0 then k + 1 < (s.b.tableGeo 7).walkSteps else (s.b.tableGeo 7).walkSteps ≤ k + 1)) ∧
    (let s := withTable ⟨[], [], [], [(7, ⟨0, 9, 0, [(0, 7)]⟩)], []⟩
     s.b.tableOn 7 = true ∧ s.b.tableClearing 7 = false ∧ s.b.fget clsTable 7 FTable.shadowEn = 1 ∧
     (if (s.b.shadow 7).tick = s.b.work.tickSets then (s.b.shadow 7).done else 0) < s.b.fget clsTable 7 FTable.shadowRate ∧
     s.b.shadowHeld 7 0 = false ∧ (s.b.shadow 7).again = (0, 7) :: [] ∧ 7 + 2 ≤ s.b.work.tickSets) ∧
    (let s := withTable ⟨[], [], [], [], []⟩
     let b := ((Dev.mk s.tm s.b).wait 1).b
     b.tableOn 7 = true ∧ b.tableClearing 7 = false ∧ b.fget clsTable 7 FTable.kind = 4 ∧
     b.fget clsLearn 0 FLearn.ageEn = 1 ∧ (mapGet (0, 0) 7 b.tab.ager).2 < b.work.tickSets ∧
     (∀ x, x ∈ b.tab.reqs → x.updates false 7 = false)) := by
  refine ⟨?_, ?_, ?_⟩
  · decide
  · decide
  · decide +kernel

/-- O38: clearing of a table in line memory, and of a kind 2 table whose channel runs and is frozen. -/
theorem test_met_clearing : ∀ kind ∈ [1, 2], ∀ z ∈ [0, 1],
    let s := inMode .service [(clsTable, 7, FTable.enable, 1), (clsTable, 7, FTable.kind, kind),
      (clsTable, 7, FTable.sizeLog2, 12), (clsTable, 7, FTable.clearing, 1), (clsDram, 0, FDram.channels, 1),
      (clsDram, 0, FDram.capacityMib, 1), (clsDram, 1, FChan.frozen, z)]
    (s.b.tableGeo 7).dram = (kind == 2) ∧ s.b.tableClearing 7 = true ∧
    s.b.dramHeld (s.b.tableGeo 7).base (32 * (s.b.tableGeo 7).entries) = (z == 1) := by decide +kernel

/-- A snapshot list and an emission of one or two frames. -/
def aList : SnapList := ⟨0, 0, 1, 0, 0, 64, 7, 0, 1024, List.replicate 14 0⟩
def anEmission (n : Nat) : Emission := ⟨aList, 1, 0, List.replicate n (3, List.replicate 60 0)⟩

/-- O39: an entry to apply, cuts that waited; the last frame of an emission and one before it, with a buffer and
without. -/
theorem test_met_basin :
    (let e : BasinEntry := ⟨5, 1, 0, 255, .unforce⟩
     let s : State := { inMode .service [] with b.bas.queue := [e] }
     s.b.bas.emissions = [] ∧ s.b.bas.cuts = [] ∧ s.b.bas.queue = e :: [] ∧ s.b.basinHeld 1 = false) ∧
    (let c : Cut := ⟨0, 1, 0, 0, [], 0, 0⟩
     let s : State := { inMode .service [] with b.bas.cuts := [c] }
     s.b.bas.emissions = [] ∧ s.b.bas.cuts ≠ []) ∧
    (∀ n ∈ [1, 2],
      let s : State := { inMode .service [] with b.bas.emissions := [anEmission n] }
      let d := (Dev.mk s.tm s.b).waitCycle 3
      s.b.bas.emissions = anEmission n :: [] ∧
      (anEmission n).frames = (3, List.replicate 60 0) :: List.replicate (n - 1) (3, List.replicate 60 0) ∧
      (d.b.takeForced aList.tent 64 (List.replicate 60 0)).isSome = true) ∧
    ((Body.reset.fset clsPool 0 FPool.onchipCount 0).takeForced 0 64 []).isNone = true := by
  refine ⟨?_, ?_, ?_, ?_⟩
  · decide
  · decide
  · decide +kernel
  · decide

/-- O40: the last byte of each memory; a background test due, and one that runs, with and without a spare left. -/
theorem test_met_memories :
    (∀ e ∈ [(0, 0x3FFFFFF), (3, 16), (4, 0), (0x17F, 0x1FFFF), (0x20F, 0)], e.2 < memBytes e.1 ∧ State.reset.b.sys.base = .boot) ∧
    (let s := inMode .service [(clsMemregion, 3, FMem.bgEn, 1)]
     let r : State := { s with b.work.tickSets := 1 }
     r.b.bgDue 3 r.tm.tickNumber = true) ∧
    (∀ n ∈ [0, 2], let x : BgTest := ⟨5, 0, 16, true⟩
     let s : State := { inMode .service [] with b.adm.bg := [(3, x)], b.adm.spares := [(spareKey 3 1, n)] }
     mapFind 3 s.b.adm.bg = some x ∧ x.running = true ∧ s.b.spareLeft 3 (x.region / 16) = (n == 0)) := by
  refine ⟨?_, ?_, ?_⟩ <;> decide

/-- O40: a buffer at the start of packet memory, in use; a line of an enabled table that holds an entry. -/
theorem test_met_buffer_error :
    (let b1 := { Body.reset with work.bufs := [(mkHandle 0 0, aBuf)] }
     let b2 := (b1.bump clsMemregion 0 FMem.uncorrectable 1).fset clsMemregion 0 FMem.lastErrAddr 0x1840000
     0x1840000 < memBytes 0 ∧ b2.bufferAt 0 = some (mkHandle 0 0) ∧ b2.buf? (mkHandle 0 0) = some aBuf) ∧
    (let b := setAll { Body.reset with tab.lines := [(3, ⟨2 ^ 127, false⟩)] } [(clsTable, 0, FTable.enable, 1)]
     let b1 := (b.bump clsMemregion 2 FMem.uncorrectable 1).fset clsMemregion 2 FMem.lastErrAddr 48
     48 < memBytes 2 ∧ b1.enabledTables.head? = some 0 ∧
     (b1.lineRanges false 0).any (fun r => decide (r.1 ≤ 48 / 16 ∧ 48 / 16 < r.1 + r.2)) = true ∧
     (((b1.bump clsTable 0 FTable.uncorrectable 1).fset clsTable 0 FTable.lastEccLine 3).line? 3) = some ⟨2 ^ 127, false⟩) := by
  constructor
  · decide
  · decide +kernel

/-- Channel 7 with one request in its queue. -/
def withReq (r : DramReq) (rows : SMap Nat) : State :=
  { inMode .service [(clsDram, 8, FChan.present, 1)] with
    b.drm := { Drm.reset with queues := [(7, [r])], due := [(4 * 7 + 3, 1)], rows := rows } }

/-- O41: channel 7 with a refresh due and a request in its queue: issued, of every use, and after its last try; the
scrubber in a pass and before one; a thaw with and without repair, after a parity error and not. -/
theorem test_met_dram :
    (∀ u ∈ [DramUse.posted, .writeBack, .scrub false, .scrub true, .thread 1023 1, .aperture false, .aperture true],
      ∀ n ∈ [0, 3, 4],
      let r : DramReq := ⟨1, 1, 6, 0, 2048, true, u, 0, false, true, n, []⟩
      let s := withReq r []
      0 < mapGet 0 (4 * 7 + 2 * (1 % 2) + 1 % 2) s.b.drm.due ∧ s.b.sys.base ≠ .dormant ∧ s.b.frozen 7 = false ∧
      (s.b.dramQueue 7)[0]? = some r ∧ r.issued = true ∧ (s.b.dramQueue 7).take 0 = [] ∧
      s.b.fget clsDram (1 + 7) FChan.present = 1 ∧ 0 ≤ s.b.fget clsDram 0 FDram.ranksM1 ∧ s.b.sys.base ≠ .cold ∧
      s.b.runs = true) ∧
    (∀ n ∈ [0, 5], let s := inMode .service [(clsDram, 0, FDram.scrubHours, 1), (clsDram, 8, FChan.present, 1)]
     let r : State := { s with b.drm.scrub := [(7, n)] }
     0 < r.b.fget clsDram 0 FDram.scrubHours ∧ r.b.frozen 7 = false ∧ r.b.scrubbing 7 = false ∧ mapGet 0 7 r.b.drm.scrub = n) ∧
    (∀ repair ∈ [0, 1], ∀ cause ∈ [1, 3], let s := inMode .service [(clsDram, 8, FChan.frozen, 1),
        (clsDram, 8, FChan.repair, repair), (clsDram, 8, FChan.frzCause, cause)]
      s.b.sys.base ≠ .cold ∧ s.b.asleep = false ∧ s.b.frozen 7 = true ∧ s.b.fget clsDram 8 FChan.repair = repair ∧
      s.b.fget clsDram 8 FChan.frzCause = cause) := by
  refine ⟨?_, ?_, ?_⟩ <;> decide

/-- The state in the cycle in which the rank of a line may take its next command. -/
def atRank (s : State) (a : Nat) : Dev :=
  (Dev.mk s.tm s.b).waitCycle (mapGet 0 (2 * 7 + s.b.lineRank a % 2) s.b.drm.rankBusy)

/-- O41: the one request of a channel may be chosen, with no row open, its own row open, and another row open. -/
theorem test_met_choice : ∀ m : Bool,
    let r : DramReq := ⟨1, 1, 6, 0, 2048, false, .thread 1023 1, 0, m, false, 0, []⟩
    let k := (withReq r []).b.rowKey 7 2048
    let sub := (withReq r []).b.lineSub 2048
    (∀ rows, (withReq r rows).b.mayChoose 7 sub r = true ∧ (withReq r rows).b.frozen 7 = false ∧
      (withReq r rows).b.dramQueue 7 = [r] ∧ (withReq r rows).b.goesBefore 7 r r = false) ∧
    (atRank (withReq r []) 2048).b.openRow 7 2048 = none ∧
    (∀ n, (atRank (withReq r [(k, n)]) 2048).b.openRow 7 2048 = some n) ∧ r.modify = m := by
  intro m r k sub
  refine ⟨fun rows => ⟨?_, rfl, rfl, ?_⟩, rfl, fun n => ?_, rfl⟩
  · simp only [Body.mayChoose, r, sub, Body.lineSub]
    simp
  · simp [Body.goesBefore]
  · have : (atRank (withReq r [(k, n)]) 2048).b.openRow 7 2048 = mapFind k [(k, n)] := rfl
    rw [this]
    simp [mapFind]

/-! Instructions. -/

/-- Thread 1023 issues instructions of an item, with all memory in its region 0. -/
def issuing (x : Hart) : State :=
  let r := 0x10000 + 8 * 1023
  last .service [(clsMemregion, r, FRegion.en, 1), (clsMemregion, r, FRegion.base, 0),
    (clsMemregion, r, FRegion.top, 0xFFFFFFC0), (clsMemregion, r, FRegion.r, 1), (clsMemregion, r, FRegion.w, 1),
    (clsMemregion, r + 1, FRegion.en, 1), (clsMemregion, r + 1, FRegion.space, 1), (clsMemregion, r + 1, FRegion.base, 0),
    (clsMemregion, r + 1, FRegion.top, 0xFFFFFFC0), (clsMemregion, r + 1, FRegion.r, 1),
    (clsThread, 1023, FThread.chanValid 7, 1), (clsThread, 1023, FThread.stackHi, 0x1DFFF)]
    { x with phase := .running, item := some (x.item.getD eventItem) }

/-- Registers of a thread. -/
def withRegs (l : List (Nat × Word)) : Hart := { Hart.reset with regs := l }

/-- What Starts and Issues ask for, as computations. -/
def startsAll (s : State) (h : Nat) : Bool := s.b.mayIssue h && !s.b.mustSwitch s.tm h && !s.b.atBreakpoint h
def issueAll (s : State) (h n : Nat) : Bool := startsAll s h && !s.b.tooLong h (s.b.waitOf s.tm h n + n)

theorem starts_of {s : State} {h : Nat} (e : startsAll s h = true) : Starts s h := by
  simp only [startsAll, Bool.and_eq_true, Bool.not_eq_true'] at e
  exact ⟨e.1.1, e.1.2, Or.inl e.2⟩

theorem issues_of {s : State} {h n : Nat} (e : issueAll s h n = true) : Issues s h n := by
  simp only [issueAll, Bool.and_eq_true, Bool.not_eq_true'] at e
  exact ⟨starts_of e.1, e.2⟩

/-- A Bivouac core that runs, with all of its memory and of DRAM in its regions 0 and 1. -/
def bivIssuing (x : Hart) : State :=
  let r := 0x10000 + 8 * 1027
  withHart .service [(clsMemregion, r, FRegion.en, 1), (clsMemregion, r, FRegion.base, 0),
    (clsMemregion, r, FRegion.top, 0xFFFFFFC0), (clsMemregion, r, FRegion.r, 1), (clsMemregion, r, FRegion.w, 1),
    (clsMemregion, r + 1, FRegion.en, 1), (clsMemregion, r + 1, FRegion.space, 1), (clsMemregion, r + 1, FRegion.base, 0),
    (clsMemregion, r + 1, FRegion.top, 0xFFFFFFC0), (clsMemregion, r + 1, FRegion.r, 1),
    (clsMemregion, r + 1, FRegion.w, 1)] 1027 { x with phase := .running }

/-- O43 to O46: a thread and a Bivouac core issue, for every length of an instruction; a frame item at the last cycle that
its cap leaves for it; a JR target, with and without a waiting IE write. -/
theorem test_met_issues :
    (∀ n ∈ [0, 1, 2, 8, 20], Issues (issuing Hart.reset) 1023 n) ∧ (issuing Hart.reset).b.reg 1023 0 = 0 ∧
    Issues (issuing (running { frameItem with cap := 30, cycles := 10 })) 1023 20 ∧
    ¬ Issues (issuing (running { frameItem with cap := 30, cycles := 11 })) 1023 20 ∧
    (∀ e ∈ [none, some true],
      let s := bivIssuing { Hart.reset with pendingIe := e }
      Issues s 1027 2 ∧ (s.b.reg 1027 0).toNat % 4 = 0 ∧ (s.b.hart 1027).pendingIe = e) := by
  refine ⟨?_, by decide, issues_of (by decide +kernel), ?_, ?_⟩
  · intro n hn
    simp only [List.mem_cons, List.not_mem_nil, or_false] at hn
    rcases hn with rfl | rfl | rfl | rfl | rfl <;> exact issues_of (by decide +kernel)
  · intro e
    exact absurd e.2 (by unfold State.Room; decide +kernel)
  · intro e he
    simp only [List.mem_cons, List.not_mem_nil, or_false] at he
    rcases he with rfl | rfl <;> exact ⟨issues_of (by decide +kernel), by decide +kernel, by decide +kernel⟩

/-- O47: a call that saves w16 and w31, with the stack in local memory and in the scratchpad. -/
theorem test_met_calls : ∀ inLocal : Bool,
    let at_ := fun (a : Nat) => if inLocal then Place.local a else Place.scratch a
    let top := if inLocal then 0x1000 else 0x10001000
    let s := issuing (withRegs [(3, 0x40), (31, BitVec.ofNat 32 top)])
    issueAll s 1023 5 = true ∧ (s.b.reg 1023 3).toNat % 2 ^ 16 = 0x40 ∧ (s.b.reg 1023 31).toNat = top ∧
      s.b.fget clsThread 1023 FThread.stackLo ≤ top - 12 ∧
      (∀ k ∈ [0, 1, 2], s.b.place 1023 (top - 12 + 4 * k) 4 false true = some (at_ (top - 12 + 4 * k))) := by
  decide +kernel

/-- O47: the return from it, in local memory; a frame in the scratchpad lies beyond STACK_HI. -/
theorem test_met_returns :
    (let s0 := issuing (withRegs [(31, 0xFF4)])
     let s : State := { s0 with b := { s0.b.fset clsThread 1023 FThread.stackHi 0xFFF with
       mem.lmem := writeLE [] (lmemAddr 127 0xFF4) 4 0x808001 } }
     let m := readLE s.b.mem.lmem (lmemAddr (1023 / 8) 0xFF4) 4
     issueAll s 1023 5 = true ∧ (List.range 16).filter (fun k => m.testBit k) = [0, 15] ∧ bitsAt m 16 2 = 0 ∧
     s.b.fget clsThread 1023 FThread.stackLo ≤ 0xFF4 ∧ 0x1000 ≤ s.b.fget clsThread 1023 FThread.stackHi + 1 ∧
     (∀ k ∈ [0, 1, 2], s.b.place 1023 (0xFF4 + 4 * k) 4 true false = some (.local (0xFF4 + 4 * k)))) ∧
    (let s := issuing (withRegs [(31, 0x10000000)])
     issueAll s 1023 1 = true ∧ s.b.fget clsThread 1023 FThread.stackLo ≤ 0x10000000 ∧
     s.b.fget clsThread 1023 FThread.stackHi + 1 < 0x10000000 + 4 ∧
     s.b.place 1023 0x10000000 4 true false = some (.scratch 0x10000000)) := by
  constructor <;> decide +kernel

/-- O48, O49: an address of local memory and one of the scratchpad, and room among the staged entries and none. -/
theorem test_met_accesses :
    ∀ n ∈ [0, 15, 16], ∀ a ∈ [0x1DFF0, 0x10000000, 0x100FFFF0],
      let it : Item := { eventItem with staged := List.replicate n (.semRel 0) }
      let s := issuing { withRegs [(2, BitVec.ofNat 32 a)] with item := some it }
      let f : FmtM := ⟨1, 2, 0, 4⟩
      let p : Place := if a < 0x10000000 then .local (a + 4) else .scratch (a + 4)
      issueAll s 1023 p.cycles = true ∧ indexReserved f = false ∧ (s.b.hart 1023).item = some it ∧
      ((s.b.hart 1023).ea f).1.toNat = a + 4 ∧ s.b.placeHeld p 4 = false ∧
      s.b.place 1023 (a + 4) 4 true false = some p ∧ s.b.place 1023 (a + 4) 4 false true = some p ∧
      s.b.place 1023 (a + 4) 4 true true = some p := by decide +kernel

/-- O48: a Bivouac core's memory, the first and another word of a transmit record, the addresses that nothing takes and the
DRAM window, with no channel frozen. -/
theorem test_met_biv_accesses :
    ∀ e ∈ [(0x100, Place.biv 0x100), (0x7F8200, .biv 0x7F8200), (0x7F82BC, .biv 0x7F82BC), (0x7F82C0, .nothing),
        (0x7FFFFC, .nothing), (0x80000000, .dram 0), (0x8FFFFFFC, .dram 0xFFFFFFC)],
      let s := bivIssuing (withRegs [(2, BitVec.ofNat 32 e.1)])
      let f : FmtM := ⟨1, 2, 0, 0⟩
      issueAll s 1027 e.2.cycles = true ∧ ((s.b.hart 1027).ea f).1.toNat = e.1 ∧
      s.b.place 1027 e.1 4 true false = some e.2 ∧ s.b.place 1027 e.1 4 false true = some e.2 ∧
      s.b.placeHeld e.2 4 = false := by decide +kernel

/-- O50: a word to read, room for a word to send, requests of every endpoint, a fifth request. -/
theorem test_met_channels :
    (let s := issuing { withRegs [(2, 0x100)] with inbox := [(15, [[7, 8], [9]])] }
     issueAll s 1023 1 = true ∧ s.b.bound 1023 15 = true ∧
     (s.b.hart 1023).unread 15 = (7 :: [8]) :: [[9]] ∧ (mapGet [] 15 (s.b.hart 1023).staging).length < 8 ∧
     (s.b.hart 1023).unread 15 ≠ [] ∧ (s.b.hart 1023).outstanding 1 < 4 ∧ (s.b.hart 1023).outstanding 2 < 4 ∧
     (s.b.hart 1023).outstanding 3 < 4 ∧ s.b.holdings 1023 < 16 ∧ (s.b.reg 1023 2).toNat = 0x100 ∧
     s.b.place 1023 0x100 32 true false = some (.local 0x100) ∧ s.b.place 1023 0x100 16 true false = some (.local 0x100) ∧
     s.b.regionGrants 1023 1 0x100 32 true false = true ∧
     s.b.fget clsThread 1023 (FThread.chanDelivery (15 - 8)) ≠ 1) ∧
    (let s := issuing { Hart.reset with reqs := List.replicate 4 ⟨3, 0, .brd 0, none⟩ }
     issueAll s 1023 1 = true ∧ 4 ≤ (s.b.hart 1023).outstanding 3) := by
  constructor <;> decide

/-- O50, O51: DRAM within and beyond its capacity; TREQ of a Bivouac core; a thread with 16 holdings that asks for one of
them. -/
theorem test_met_requests :
    (∀ e ∈ [(1, true), (0, false)],
      let s := issuing (withRegs [(2, 0x100)])
      let s1 : State := { s with b := s.b.fset clsDram 0 FDram.capacityMib e.1 }
      issueAll s1 1023 1 = true ∧
      (s1.b.reg 1023 2).toNat = 0x100 ∧ s1.b.regionGrants 1023 1 0x100 32 true false = true ∧
      decide (0x100 < s1.b.dramCapacity) = e.2) ∧
    (let s := withHart .service [] 1027 { Hart.reset with phase := .running, regs := [(2, 0x100)] }
     issueAll s 1027 1 = true ∧
     (s.b.hart 1027).outstanding 1 < 4 ∧ (s.b.reg 1027 2).toNat = 0x100 ∧
     s.b.place 1027 0x100 32 true false = some (.biv 0x100)) ∧
    (let s := issuing (withRegs [(2, 15)])
     let r : State := { s with b.sync.locks := (List.range 16).map (fun n => (n, { LockSt.free with holder := some (.thread 1023) })) }
     issueAll r 1023 1 = true ∧
     (r.b.hart 1023).outstanding 2 < 4 ∧ r.b.holdings 1023 = 16 ∧
     r.b.lockAbs false (r.b.masterTent 1023) (r.b.reg 1023 2).toNat = 15 ∧ r.b.holdsEntry 1023 false 15 = true) := by
  refine ⟨?_, ?_, ?_⟩ <;> decide

/-- O51: logs with room and full; queues of the thread's tent. -/
theorem test_met_staging : ∀ n ∈ [0, 31, 32],
    let it : Item := { eventItem with log := List.replicate n (.stg 0 0) }
    let s := issuing { withRegs [(2, 0xFFFFF)] with item := some it }
    issueAll s 1023 1 = true ∧ (s.b.hart 1023).item = some it ∧
    (s.b.reg 1023 2).toNat < 1048576 ∧ queueTent s.b.sys.nLog.val (s.b.reg 1023 2).toNat = s.b.masterTent 1023 := by
  decide

/-- O52, O53: a handler to leave, a break that halts and one that traps, an item to commit. -/
theorem test_met_system :
    (∀ t : Bool, let s := issuing { Hart.reset with inTrap := t }
     issueAll s 1023 1 = true ∧ (s.b.hart 1023).inTrap = t ∧ s.b.inBench = false ∧
     (s.b.hart 1023).item = some eventItem ∧ eventItem.overrun = false ∧ (s.b.hart 1023).reqs = [] ∧
     (s.b.hart 1023).unread 2 = []) ∧
    (let s := last .bench [(clsDebug, 1023, FDebug.breakHalt, 1)] (running eventItem)
     issueAll s 1023 1 = true ∧ s.b.inBench = true ∧
     s.b.fget clsDebug 1023 FDebug.breakHalt = 1) ∧
    -- the handler of an overrun, and a Bivouac core
    (let s := issuing { Hart.reset with inTrap := true, item := some { eventItem with overrun := true } }
     issueAll s 1023 1 = true ∧
     (s.b.hart 1023).item = some { eventItem with overrun := true } ∧ (s.b.hart 1023).inTrap = true ∧
     (s.b.hart 1023).reqs = [] ∧ (s.b.hart 1023).unread 2 = []) ∧
    -- a Bivouac core in a handler and outside one, which issues in the cycle after a ring, too
    (∀ t : Bool, ∀ c ∈ [0, 1],
      let s0 := bivIssuing { Hart.reset with inTrap := t }
      let s : State := { s0 with b.sync.irqFrom := c }
      let u := (Dev.mk s.tm s.b).waitCycle c
      issueAll s 1027 1 = true ∧ (s.b.hart 1027).inTrap = t ∧ s.b.inBench = false ∧ decide (s.b.sync.irqFrom ≤ s.tm.cycle) = (c == 0) ∧
      issueAll { s with tm := u.tm, b := u.b } 1027 1 = true) := by
  refine ⟨?_, ?_, ?_, ?_⟩ <;> decide +kernel

/-- O53: words that spell no instruction at the PC of a thread and of a Bivouac core. -/
theorem test_met_words :
    (issueAll (issuing Hart.reset) 1023 1 = true ∧ (issuing Hart.reset).b.wordAt 1023 = 0) ∧
    (∀ w ∈ [2 ^ 32 - 1, 0x24000000, 0x98000200, 0xF8000280, 0xFC000500],
      let s0 := issuing Hart.reset
      let s : State := { s0 with b.mem.imem := writeLE [] (imemAddr 127 0) 4 w }
      issueAll s 1023 1 = true ∧ s.b.wordAt 1023 = w) ∧
    (let s0 := bivIssuing Hart.reset
     let s : State := { s0 with b.mem.bmem := writeLE [] 0x730000 4 0xF8000280 }
     issueAll s 1027 1 = true ∧ s.b.wordAt 1027 = 0xF8000280) := by
  refine ⟨?_, ?_, ?_⟩ <;> decide +kernel

/-- Thread 1023 with its core's two contexts owned as given. -/
def contexts (o1 o2 : Option Nat) : State :=
  let s := issuing (withRegs [(2, 0x1000)])
  { s with b := s.b.setCore 127 { s.b.core 127 with
    ctx0 := { RCtx.reset with owner := o1 }, ctx1 := { RCtx.reset with owner := o2 } } }

/-- O54, O57 to O60: no context and one free, both taken; a context held, with blocks of each size. -/
theorem test_met_contexts :
    (∀ e ∈ [(none, none), (some 1016, none), (some 1016, some 1017)],
      let s := contexts e.1 e.2
      issueAll s 1023 1 = true ∧ s.b.contextOf 1023 = none ∧
      (s.b.core (1023 / 8)).ctx0.owner = e.1 ∧ (s.b.core (1023 / 8)).ctx1.owner = e.2) ∧
    (∀ n ∈ [1, 2, 152], HoldsContext (contexts (some 1016) (some 1023)) 1023 1 n ∧
      HoldsContext (contexts (some 1023) none) 1023 0 n) ∧
    (let s := contexts (some 1016) (some 1023)
     (s.b.reg 1023 2).toNat = 0x1000 ∧
     ∀ n ∈ [40, 64, 128, 2432], s.b.place 1023 0x1000 n true false = some (.local 0x1000) ∧
       s.b.place 1023 0x1000 n false true = some (.local 0x1000)) ∧
    selectAllowed 0 ∧ selectAllowed 15 ∧ RCtx.reset.satLanes < 2 ^ 32 ∧ RCtx.reset.dzLanes < 2 ^ 32 ∧ RCtx.reset.rmode < 4 := by
  refine ⟨by decide +kernel, ?_, by decide, ?_, ?_⟩
  · intro n hn
    simp only [List.mem_cons, List.not_mem_nil, or_false] at hn
    rcases hn with rfl | rfl | rfl <;>
      exact ⟨⟨issues_of (by decide +kernel), by decide, by decide⟩, ⟨issues_of (by decide +kernel), by decide, by decide⟩⟩
  all_goals simp [selectAllowed, RCtx.reset]

/-! Single steps and words with results that the specification works out. -/

/-- The state after a command; the state after reset where it stops. -/
def afterCmd (i : Instr) (s : State) : State :=
  match exec i s with
  | .next t => t
  | _ => State.reset

/-- The reply's status of a register write of the Bivouac. -/
def writeStatus (s : State) (cls inst off : Nat) (v : Word) : Nat :=
  (afterCmd (.registerWrite .biv ⟨BitVec.ofNat 8 cls, BitVec.ofNat 24 inst, BitVec.ofNat 16 off⟩ v) s).b.reply.status

/-- Table 7.12: ADD w6, w7, w8; LDW w5, [w1, #0x44]; BCC EQ, #-3; CALL of w20 to w23, #12; COMMIT. -/
theorem test_words :
    wordA 0x00 0x01 ⟨6, 7, 8, 0⟩ = 0x00C74010 ∧ wordM 0x1C ⟨5, 1, 0, 0x44⟩ = 0x70A10044 ∧
    wordC 0x10 ⟨0, 0x1FFFFD⟩ = 0x401FFFFD ∧ wordD 0x12 ⟨0x00F0, 12⟩ = 0x4803C00C ∧
    wordE 0x3F 1 ⟨0, 0, 0, 0, 0, 0⟩ = 0xFC000080 := by decide

/-- Table 7.12's words name those instructions at their thread (R173). -/
theorem test_words_decode :
    decodeMajor 3 0x00C74010 = some (execAdd 3 ⟨6, 7, 8, 0⟩) ∧ decodeMajor 3 0x70A10044 = some (execLdw 3 ⟨5, 1, 0, 0x44⟩) ∧
    decodeMajor 3 0x401FFFFD = some (execBcc 3 ⟨0, 0x1FFFFD⟩) ∧ decodeMajor 3 0x4803C00C = some (execCall 3 ⟨0x00F0, 12⟩) ∧
    decodeMajor 3 0xFC000080 = some (execCommit 3 ⟨0, 0, 0, 0, 0, 0⟩) := ⟨rfl, rfl, rfl, rfl, rfl⟩

/-- The all-zero word, which empty instruction memory holds, traps with RESERVED_OPCODE (R175). -/
theorem test_zero_word_traps : ∃ t, issueAt 1023 (issuing Hart.reset) = .next t ∧ (t.b.hart 1023).inTrap = true ∧
    (t.b.hart 1023).trapCause = 1 := ⟨_, rfl, by decide +kernel, by decide +kernel⟩

/-- R373's example: furrow 0x4312 lies in tent 1 of 4 and in tent 5 of 8, furrow 0x6312 in tent 1 of both. -/
theorem test_furrow_layout : furrowTent 2 0x4312 = 1 ∧ furrowTent 3 0x4312 = 5 ∧ furrowTent 2 0x6312 = 1 ∧
    furrowTent 3 0x6312 = 1 ∧ furrowBase 2 1 = 16384 ∧ furrowBase 3 1 = 24576 := by decide

/-- R477: the standard CRC-32C of RFC 3720, of 32 bytes of zeros and of 32 bytes of ones. -/
theorem test_crc : crc32c 0xFFFFFFFF (List.replicate 32 0) = 0x8A9136AA ∧
    crc32c 0xFFFFFFFF (List.replicate 32 0xFF) = 0x62A8AB43 := by decide +kernel

/-- R478's examples: NEXT_SEQ of a furrow with work outstanding is BUSY; a pool's count outside its modes is
NOT_IN_MODE, whatever the value. -/
theorem test_write_order :
    writeStatus (inMode .service [(clsFurrow, 5, FFurrow.outstanding, 1)]) clsFurrow 5 FFurrow.nextSeq.word 9 = 0x0106 ∧
    writeStatus (inMode .service []) clsPool 3 FPool.onchipCount.word 0xFFFFFFFF = 0x0105 := by decide

/-- ADD that wraps sets C and Z, and w0 stays 0 (R176, R179). -/
theorem test_add_wraps :
    let t := afterCmd (.add 1023 ⟨0, 2, 2, 0⟩) (issuing (withRegs [(2, 0x80000000)]))
    t.b.reg 1023 0 = 0 ∧ (t.b.hart 1023).flags = ⟨false, true, true, true, false, false, false⟩ ∧
    (t.b.hart 1023).pc = 4 := by decide

/-- SUBS saturates; a DIV of the most negative number by -1 (R180). -/
theorem test_signed_corners :
    (afterCmd (.subs 1023 ⟨4, 2, 3, 0⟩) (issuing (withRegs [(2, 0x80000000), (3, 1)]))).b.reg 1023 4 = 0x80000000 ∧
    (afterCmd (.divI 1023 ⟨4, 2, 3, 0⟩) (issuing (withRegs [(2, 0x80000000), (3, 0xFFFFFFFF)]))).b.reg 1023 4 =
      0x80000000 := by decide

/-- LDB sign-extends, with a post-modified address register (R187, R188). -/
theorem test_load_byte :
    let s0 := issuing (withRegs [(2, 0x102)])
    let s : State := { s0 with b.mem.lmem := [(127 * 0x20000 + 0x102, 0x80)] }
    let t := afterCmd (.ldb 1023 ⟨5, 2, 1, 0x3FFF⟩) s
    t.b.reg 1023 5 = 0xFFFFFF80 ∧ t.b.reg 1023 2 = 0x101 := by decide

/-- A branch back over the start of instruction memory wraps (R173, R184). -/
theorem test_branch_wraps :
    ((afterCmd (.bcc 1023 ⟨14, 0x1FFFFF⟩) (issuing Hart.reset)).b.hart 1023).pc = 0xFFFC := by decide

/-- A nonzero reserved field traps with cause 2 and keeps the pc (R160, R175). -/
theorem test_reserved_field :
    let t := afterCmd (.nop 1023 ⟨1, 0, 0, 0, 0, 0⟩) (issuing Hart.reset)
    (t.b.hart 1023).inTrap = true ∧ (t.b.hart 1023).trapCause = 2 ∧ (t.b.hart 1023).trapPc = 0 := by decide

/-- A tick boundary counts the tick. -/
theorem test_boundary :
    (afterCmd .tickBoundary (inMode .service [])).tm.tickNumber = (inMode .service []).tm.tickNumber + 1 := by decide +kernel

end Sys2Proof.Tests
end

section
/-! Object writes that fail (R12, R14, R33, R433). A failed write of an access that is answered leaves the device as R12 and
R33 say. An access that meets no answer (R433) is withdrawn, and with it the model's mark `adm.unanswered` clears: of that
access, and of no other, the last clause of `Obligations.ObjectAccesses` is false. -/

namespace Sys2Proof.Machine

/-- What the last clause of `Obligations.ObjectAccesses` lets a failed object write make of the device `d`. -/
def Dev.KeptByFailedWrite (d e : Dev) (cls inst : Nat) : Prop :=
  (e.tm = d.tm ∨ (cls = clsTick ∧ inst = 0 ∧ e.tm = d.tm.unhold)) ∧
    ∃ n, e.b = if n = 0 then d.b else d.b.bumpSat clsDevice 0 FDevice.reservedWrites n

/-- The count of R12 is no count, or a rise of RESERVED_WRITES. -/
theorem Body.countReserved_eq_bumpSat (b : Body) (cls inst off : Nat) (ws : List Nat) :
    ∃ n, b.countReserved cls inst off ws = if n = 0 then b else b.bumpSat clsDevice 0 FDevice.reservedWrites n := by
  unfold Body.countReserved
  by_cases hnone : instExists b.nLogN cls inst = false
  · exact ⟨0, by simp [hnone]⟩
  · rw [Bool.not_eq_false] at hnone
    exact ⟨_, by simp only [hnone, Bool.true_eq_false, false_or]; rfl⟩

theorem isTick_iff {cls inst : Nat} : isTick cls inst = true ↔ cls = clsTick ∧ inst = 0 := by simp [isTick]

/-- An access without an answer ends with BUSY and is withdrawn, once its reserved 1s are counted (R12, R433). -/
theorem Dev.objWrite_unanswered {d : Dev} (h : d.b.adm.unanswered = true) (au : Auth) (cls inst off : Nat)
    (ws : List Nat) : d.objWrite au cls inst off ws =
      (stBusy, 0, Dev.withdrawn { d with b := d.b.countReserved cls inst off ws }) := by
  simp [Dev.objWrite, h]

/-- A failed write of an access that is answered leaves the count of R12, and of TICK[0] it may discard a held low word
(R33). -/
theorem Dev.objWrite_failed_of_answered {d : Dev} {au : Auth} {cls inst off : Nat} {ws : List Nat}
    (h : d.b.adm.unanswered = false) (hf : (d.objWrite au cls inst off ws).1 ≠ stOk) :
    (d.objWrite au cls inst off ws).2.2.b = d.b.countReserved cls inst off ws ∧
      ((d.objWrite au cls inst off ws).2.2.tm = d.tm ∨
        (isTick cls inst = true ∧ (d.objWrite au cls inst off ws).2.2.tm = d.tm.unhold)) := by
  revert hf
  simp only [Dev.objWrite, h, Bool.false_eq_true, if_false]
  split
  · split
    · exact fun _ => ⟨rfl, .inl rfl⟩
    · generalize Dev.writeWords au cls inst off 0 ws _ = r
      by_cases hok : r.1 = stOk
      · simp [hok]
      · by_cases ht : isTick cls inst = true <;> simp [hok, ht]
  · exact fun _ => ⟨rfl, .inl rfl⟩

/-- A failed write keeps what `Obligations.ObjectAccesses` claims exactly where its access is answered. -/
theorem Dev.keptByFailedWrite_iff {d : Dev} {au : Auth} {cls inst off : Nat} {ws : List Nat}
    (hf : (d.objWrite au cls inst off ws).1 ≠ stOk) :
    d.KeptByFailedWrite (d.objWrite au cls inst off ws).2.2 cls inst ↔ d.b.adm.unanswered = false := by
  constructor
  · rintro ⟨-, n, hb⟩
    by_contra hlate
    rw [Bool.not_eq_false] at hlate
    have hadm : (d.objWrite au cls inst off ws).2.2.b.adm = d.b.adm := by rw [hb]; split <;> rfl
    have hspent : (d.objWrite au cls inst off ws).2.2.b.adm.unanswered = false := by
      rw [Dev.objWrite_unanswered hlate]; rfl
    rw [hadm, hlate] at hspent
    exact Bool.noConfusion hspent
  · intro h
    obtain ⟨hb, ht⟩ := Dev.objWrite_failed_of_answered h hf
    obtain ⟨n, hn⟩ := d.b.countReserved_eq_bumpSat cls inst off ws
    exact ⟨ht.imp_right fun ⟨hi, he⟩ => ⟨(isTick_iff.1 hi).1, (isTick_iff.1 hi).2, he⟩, n, hb.trans hn⟩

/-- The device after reset, once MGMT_TIMEOUT has left its next management access without an answer. -/
def lateAccess : State :=
  { State.reset with b := { (Body.reset.answer stBusy).bump clsClock 0 FClock.mgmtTimeouts 1 with adm.unanswered := true } }

theorem exec_mgmtTimeout_reset : exec .mgmtTimeout State.reset = .next lateAccess := rfl

/-- The Bivouac's write of 0 to word 0 of DEVICE[0] then ends with BUSY. -/
theorem objWrite_lateAccess_busy : ((Dev.mk lateAccess.tm lateAccess.b).objWrite .biv clsDevice 0 0 [0]).1 = stBusy := by
  rw [Dev.objWrite_unanswered rfl]

end Sys2Proof.Machine

namespace Sys2Proof
open Machine

/-- Refutes O14: its last clause has a failed object write keep everything but RESERVED_WRITES and the held low word of
TICK[0], for every device. After reset and MGMT_TIMEOUT (`exec_mgmtTimeout_reset`), the Bivouac's write of 0 to word 0 of
DEVICE[0] ends with BUSY and withdraws the access, which takes `adm.unanswered` from true to false (R433). -/
theorem not_objectAccesses : ¬ Obligations.ObjectAccesses := by
  unfold Obligations.ObjectAccesses
  rintro ⟨-, -, hfail⟩
  have hbad : ((Dev.mk lateAccess.tm lateAccess.b).objWrite .biv clsDevice 0 0 [0]).1 ≠ stOk := by
    rw [objWrite_lateAccess_busy]; decide
  have hkept : Dev.KeptByFailedWrite _ _ clsDevice 0 := hfail ⟨lateAccess.tm, lateAccess.b⟩ .biv clsDevice 0 0 [0] hbad
  exact Bool.noConfusion ((Dev.keptByFailedWrite_iff hbad).1 hkept)

end Sys2Proof
end

section
/-! `Time.Inv` through object accesses, waits and Shesin commands: the operations of which commands are made. -/

namespace Sys2Proof.Machine

/-! Object reads leave the time base. -/

theorem readField_tm (d : Dev) (cls inst off : Nat) (f : Fld) : (d.readField cls inst off f).2.tm = d.tm := by
  unfold Dev.readField
  dsimp only
  split
  · rfl
  · split
    · rfl
    · split
      · split <;> rfl
      · rfl

theorem foldl_snd_tm {α : Type} {g : Nat × Dev → α → Nat × Dev} (hg : ∀ x a, (g x a).2.tm = x.2.tm) (l : List α)
    (x : Nat × Dev) : (l.foldl g x).2.tm = x.2.tm := by
  induction l generalizing x with
  | nil => rfl
  | cons a r ih => rw [List.foldl_cons, ih, hg]

theorem readWord_tm (d : Dev) (cls inst off : Nat) : (d.readWord cls inst off).2.tm = d.tm := by
  unfold Dev.readWord
  dsimp only
  split <;> split <;> refine foldl_snd_tm ?_ _ _ <;> exact fun x f => readField_tm x.2 cls inst off f

theorem readWords_tm (cls inst n : Nat) (off : Nat) (d : Dev) : (Dev.readWords cls inst n off d).2.tm = d.tm := by
  induction n generalizing off d with
  | zero => rfl
  | succ n ih => exact (ih _ _).trans (readWord_tm d cls inst off)

theorem objRead_tm (d : Dev) (au : Auth) (cls inst off n : Nat) : (d.objRead au cls inst off n).2.2.tm = d.tm := by
  unfold Dev.objRead
  split
  · rfl
  · split
    · split
      · rfl
      · split
        · rfl
        · exact readWords_tm cls inst n off d
    · rfl

theorem objRead_inv {d : Dev} (h : d.tm.Inv) (au : Auth) (cls inst off n : Nat) :
    (d.objRead au cls inst off n).2.2.tm.Inv := by rw [objRead_tm]; exact h

/-! Accesses. -/

theorem devIte_inv {p : Prop} [Decidable p] {a b : Dev} (ha : a.tm.Inv) (hb : b.tm.Inv) :
    (if p then a else b).tm.Inv := by
  split
  · exact ha
  · exact hb

/-- The invariant does not speak of the body. -/
theorem withBody_inv {t : Time} (h : t.Inv) (b : Body) : (Dev.mk t b).tm.Inv := h

theorem writeIte_inv {p : Prop} [Decidable p] {a b : Nat × Nat × Dev} (ha : a.2.2.tm.Inv) (hb : b.2.2.tm.Inv) :
    (if p then a else b).2.2.tm.Inv := by
  split
  · exact ha
  · exact hb

theorem accessIn_inv {d : Dev} {sleep f : Dev → Dev} (h : d.tm.Inv) (au : Auth) (hs : (sleep d).tm.Inv)
    (hf : (f d).tm.Inv) : (d.accessIn au sleep f).tm.Inv := by
  unfold Dev.accessIn
  exact devIte_inv h (devIte_inv hs hf)

theorem access_inv {d : Dev} {f : Dev → Dev} (h : d.tm.Inv) (au : Auth) (hf : (f d).tm.Inv) : (d.access au f).tm.Inv :=
  accessIn_inv h au h hf

theorem accessOf_inv {d : Dev} {f : Dev → Dev} (h : d.tm.Inv) (au : Auth) (cls inst : Nat) (hf : (f d).tm.Inv) :
    (d.accessOf au cls inst f).tm.Inv := by
  refine accessIn_inv h au ?_ hf
  split
  · exact hf
  · exact h

theorem fieldWrite_inv {d : Dev} (h : d.tm.Inv) (au : Auth) (cls inst : Nat) (f : Fld) (v : Nat) :
    (d.fieldWrite au cls inst f v).2.2.tm.Inv := objWrite_inv h _ _ _ _ _

theorem cfgIndexWrite_inv {d : Dev} (h : d.tm.Inv) (au : Auth) (slot v : Nat) :
    (d.cfgIndexWrite au slot v).2.2.tm.Inv := by
  unfold Dev.cfgIndexWrite
  exact writeIte_inv (withBody_inv h _) h

theorem pageRead_inv {d : Dev} (h : d.tm.Inv) (t off : Nat) : (d.pageRead t off).tm.Inv := by
  unfold Dev.pageRead
  exact devIte_inv h (devIte_inv h (devIte_inv (devIte_inv h (objRead_inv h _ _ _ _ _)) (devIte_inv h (devIte_inv h h))))

theorem pageWrite_inv {d : Dev} (h : d.tm.Inv) (t off v : Nat) : (d.pageWrite t off v).tm.Inv := by
  unfold Dev.pageWrite
  exact devIte_inv h (devIte_inv h (devIte_inv (devIte_inv h (objWrite_inv h _ _ _ _ _)) (devIte_inv h h)))

theorem owrWrite_inv {d : Dev} (h : d.tm.Inv) (k : Nat) (f : FmtE) : (d.owrWrite k f).tm.Inv := objWrite_inv h _ _ _ _ _

theorem restoreRecord_inv {d : Dev} (h : d.tm.Inv) (r : ObjAddr × Nat) : (d.restoreRecord r).tm.Inv :=
  devIte_inv (objWrite_inv h _ _ _ _ _) (objWrite_inv h _ _ _ _ _)

theorem restoreRecords_inv {d : Dev} (h : d.tm.Inv) (l : List (ObjAddr × Nat)) :
    (l.foldl Dev.restoreRecord d).tm.Inv := by
  induction l generalizing d with
  | nil => exact h
  | cons r l ih => exact ih (restoreRecord_inv h r)

theorem restoreSet_inv {d : Dev} (h : d.tm.Inv) (n : Nat) (states : List Nat) (l : List (ObjAddr × Nat)) :
    (d.restoreSet n states l).tm.Inv :=
  devIte_inv (restoreRecords_inv (d := { d with b := d.b.restoreTents states }) h l) (devIte_inv h (fieldWrite_inv h _ _ _ _ _))

/-! Waits. -/

theorem pastRings_inv {d : Dev} (h : d.tm.Inv) : d.pastRings.tm.Inv := devIte_inv h (waitCycle_inv h _)

theorem lookupSlot_inv {d : Dev} (h : d.tm.Inv) : d.lookupSlot.tm.Inv := devIte_inv (waitCycle_inv h _) (waitCycle_inv h _)

theorem release_inv {d : Dev} (h : d.tm.Inv) (divert : Bool) (f : Body → Time → OItem → Body) :
    (d.release divert f).tm.Inv := by
  unfold Dev.release
  split
  · split
    · exact waitCycle_inv h _
    · exact h
  · exact h

theorem runReq_inv {d : Dev} (h : d.tm.Inv) (i : Nat) (ops : List Nat) (f : Time → Body → TabReq → Body) :
    (d.runReq i ops f).tm.Inv := by
  unfold Dev.runReq
  split
  · exact devIte_inv (waitCycle_inv h _) h
  · exact h

/-- The time base at the entry to Boot (R40, R43, Table 2.3). -/
theorem Time.Inv.reset : Time.reset.Inv where
  tb := by decide
  era := by decide
  rate := by decide
  slew := by decide
  ppm := by decide
  period := by decide
  periodNext := by decide
  change := by decide
  tick := by decide
  bound := by decide
  grids := by decide
  grid := ⟨_, _, rfl, rfl, 1, by decide, by decide⟩

theorem leaveCold_inv {d : Dev} (h : d.tm.Inv) : d.leaveCold.tm.Inv := devIte_inv Time.Inv.reset h

/-! Shesin commands. -/

theorem handle_inv {d : Dev} {f : Perform} (hf : ∀ c au p (e : Dev), e.tm.Inv → (f c au p e).2.2.tm.Inv) (h : d.tm.Inv)
    (path : ReplyPath) (m : List Byte) : (d.handle path m f).tm.Inv := by
  unfold Dev.handle
  dsimp only
  split
  · exact h
  · split <;> exact hf _ _ _ _ h

theorem serve_inv {d : Dev} {f : Perform} (hf : ∀ c au p (e : Dev), e.tm.Inv → (f c au p e).2.2.tm.Inv) (h : d.tm.Inv)
    (op : Nat) (m : Msg) : (d.serve op m f).tm.Inv := by
  unfold Dev.serve
  split
  · exact h
  · split
    · exact h
    · exact h
    · exact devIte_inv h (devIte_inv (handle_inv (d := { d with b := d.b.takeUp m }) hf h _ _) h)

end Sys2Proof.Machine
end

section
/-! `Time.Inv` through every command (R31, R34, R35, R40 to R42). A command whose effect is `onBody` (also `onBuf`, `insn`,
`insnBuf` and `runnelInsn`) leaves the time base as it is; the others write TICK[0], wait for a time or reset the device. -/

namespace Sys2Proof.Machine

/-- A command of which every next state satisfies `Time.Inv` if the state before it does. -/
def KeepsTimeInv (f : State → Host.Outcome State Fault Refusal) : Prop :=
  ∀ s t : State, s.tm.Inv → f s = .next t → t.tm.Inv

theorem onDev_keepsTimeInv {f : Dev → Dev} (hf : ∀ d : Dev, d.tm.Inv → (f d).tm.Inv) : KeepsTimeInv (onDev f) :=
  fun _ _ hi h => onDev_inv hf h hi

/-- A command whose next state differs in the body only. -/
theorem keepsTimeInv_of_body {f : State → Host.Outcome State Fault Refusal}
    (hf : ∀ s, ∃ b, f s = .next { s with b := b }) : KeepsTimeInv f := by
  intro s t hi h
  obtain ⟨b, hb⟩ := hf s
  rw [hb] at h
  injection h with h; subst h
  exact hi

theorem shesin_keepsTimeInv {op : Nat} {m : Msg} {f : Perform}
    (hf : ∀ c au p (e : Dev), e.tm.Inv → (f c au p e).2.2.tm.Inv) : KeepsTimeInv (shesin op m f) :=
  onDev_keepsTimeInv fun _ hd => serve_inv hf hd op m

theorem fieldCommand_keepsTimeInv (au : Auth) (cls inst : Nat) (f : Fld) (v : Nat) :
    KeepsTimeInv (fieldCommand au cls inst f v) :=
  onDev_keepsTimeInv fun _ hd => accessOf_inv hd au cls inst (fieldWrite_inv hd au cls inst f v)

theorem readCommand_keepsTimeInv (au : Auth) (a : ObjAddr) (p : Fld → Bool) : KeepsTimeInv (readCommand au a p) :=
  onDev_keepsTimeInv fun _ hd => devIte_inv (accessOf_inv hd au _ _ (objRead_inv hd _ _ _ _ _)) hd

theorem wordCommand_keepsTimeInv (au : Auth) (cls inst off : Nat) : KeepsTimeInv (wordCommand au cls inst off) :=
  onDev_keepsTimeInv fun _ hd => access_inv hd au (objRead_inv hd _ _ _ _ _)

theorem windowCommand_keepsTimeInv (w : Win) (op : Nat) : KeepsTimeInv (windowCommand w op) := by
  intro s t hi h
  unfold windowCommand at h
  split at h
  · exact fieldCommand_keepsTimeInv _ _ _ _ _ s t hi h
  · injection h with h; subst h
    exact hi

theorem execReqCancel_keepsTimeInv (w : Win) : KeepsTimeInv (execReqCancel w) := by
  intro s t hi h
  unfold execReqCancel at h
  split at h
  · exact fieldCommand_keepsTimeInv _ _ _ _ _ s t hi h
  · injection h with h; subst h
    exact hi

theorem execRegisterWrite_keepsTimeInv (au : Auth) (a : ObjAddr) (w : Word) : KeepsTimeInv (execRegisterWrite au a w) := by
  unfold execRegisterWrite
  refine onDev_keepsTimeInv fun d hd => accessIn_inv hd au ?_ (objWrite_inv hd _ _ _ _ _)
  split
  · exact objWrite_inv hd _ _ _ _ _
  · exact hd

theorem execRegDataAccess_keepsTimeInv (au : Auth) (k : Nat) (w : Option Word) :
    KeepsTimeInv (execRegDataAccess au k w) := by
  refine onDev_keepsTimeInv fun d hd => access_inv hd au ?_
  cases w
  · exact objRead_inv hd _ _ _ _ _
  · exact objWrite_inv hd _ _ _ _ _

theorem execCfgIndexWrite_keepsTimeInv (au : Auth) (slot : Nat) (v : BitVec 16) :
    KeepsTimeInv (execCfgIndexWrite au slot v) :=
  onDev_keepsTimeInv fun _ hd => access_inv hd au (cfgIndexWrite_inv hd au slot _)

theorem execChannelThaw_keepsTimeInv (au : Auth) (ch : Nat) (r : Option FreezeInfo) :
    KeepsTimeInv (execChannelThaw au ch r) :=
  onDev_keepsTimeInv fun _ hd => access_inv hd au (devIte_inv hd hd)

theorem execWindowAccess_keepsTimeInv (t off : Nat) (w : Option Word) : KeepsTimeInv (execWindowAccess t off w) :=
  onDev_keepsTimeInv fun d hd => by
    have hbar : (d.bar4 off w).tm.Inv := by cases w <;> exact hd
    refine devIte_inv hd (devIte_inv hbar (devIte_inv (devIte_inv hd hd) ?_))
    cases w
    · exact pageRead_inv hd t off
    · exact pageWrite_inv hd t off _

theorem execApertureAccess_keepsTimeInv (t off len : Nat) (w : Option (List Byte)) :
    KeepsTimeInv (execApertureAccess t off len w) :=
  onDev_keepsTimeInv fun d hd => by
    refine devIte_inv hd (devIte_inv (devIte_inv hd hd) (devIte_inv hd (devIte_inv hd (devIte_inv hd ?_))))
    cases w <;> exact hd

theorem execOwr_keepsTimeInv (k : Nat) (f : FmtE) : KeepsTimeInv (execOwr k f) :=
  onDev_keepsTimeInv fun d hd => by
    dsimp only
    split
    · exact owrWrite_inv hd k f
    · exact hd

theorem execClaim_keepsTimeInv (k : Nat) (f : FmtE) : KeepsTimeInv (execClaim k f) :=
  onDev_keepsTimeInv fun _ hd => devIte_inv (pastRings_inv hd) hd

/-! The pins and counters of the time base. -/

theorem Time.Inv.ppsIn {t : Time} (h : t.Inv) (v n : Nat) : ({ t with ppsInTime := v, ppsInCount := n } : Time).Inv :=
  h.same rfl rfl rfl rfl rfl rfl rfl rfl rfl rfl rfl rfl rfl

theorem Time.Inv.ppsOut {t : Time} (h : t.Inv) (x : Option Nat) (n : Nat) :
    ({ t with ppsFall := x, ppsOutNext := n } : Time).Inv :=
  h.same rfl rfl rfl rfl rfl rfl rfl rfl rfl rfl rfl rfl rfl

theorem execPpsInEdge_keepsTimeInv (x : BitVec 64) : KeepsTimeInv (execPpsInEdge x) :=
  onDev_keepsTimeInv fun _ hd => devIte_inv (withBody_inv (hd.ppsIn _ _) _) hd

theorem execPpsOutEdge_keepsTimeInv : KeepsTimeInv execPpsOutEdge :=
  onDev_keepsTimeInv fun _ hd => devIte_inv (withBody_inv ((waitUntil_inv hd _).ppsOut _ _) _) hd

theorem execPpsOutFall_keepsTimeInv : KeepsTimeInv execPpsOutFall :=
  onDev_keepsTimeInv fun _ hd => by
    dsimp only
    split
    · exact withBody_inv ((waitUntil_inv hd _).ppsOut none _) _
    · exact hd

theorem execTimeBaseWrap_keepsTimeInv : KeepsTimeInv execTimeBaseWrap := onDev_keepsTimeInv fun _ hd => wait_inv hd _

/-! Events of units that come at their time. -/

theorem execLockGrant_keepsTimeInv (sem : Bool) (n : Nat) : KeepsTimeInv (execLockGrant sem n) :=
  onDev_keepsTimeInv fun _ hd => by
    dsimp only
    split
    · exact withBody_inv (waitCycle_inv hd _) _
    · exact hd

theorem execItemStart_keepsTimeInv (k : Nat) : KeepsTimeInv (execItemStart k) :=
  onDev_keepsTimeInv fun _ hd => by
    dsimp only
    split
    · exact devIte_inv hd (withBody_inv (waitCycle_inv hd _) _)
    · exact hd

theorem execCoreWatchdog_keepsTimeInv (c : Nat) : KeepsTimeInv (execCoreWatchdog c) :=
  onDev_keepsTimeInv fun _ hd => devIte_inv (withBody_inv (waitCycle_inv hd _) _) hd

theorem execThreadTimerExpiry_keepsTimeInv (k : Nat) : KeepsTimeInv (execThreadTimerExpiry k) :=
  onDev_keepsTimeInv fun _ hd => by
    dsimp only
    split
    · exact withBody_inv (waitUntil_inv hd _) _
    · exact hd

theorem execTaskTimerExpiry_keepsTimeInv (k : Nat) : KeepsTimeInv (execTaskTimerExpiry k) :=
  onDev_keepsTimeInv fun _ hd => by
    dsimp only
    split
    · exact withBody_inv (waitUntil_inv hd _) _
    · exact hd

theorem execRouterDeliver_keepsTimeInv : KeepsTimeInv execRouterDeliver :=
  onDev_keepsTimeInv fun d hd =>
    wait_inv (d := { d.pastRings with b := d.pastRings.b.routerCycle }) (pastRings_inv hd) 1

theorem execBivouacWatchdog_keepsTimeInv (j : Nat) : KeepsTimeInv (execBivouacWatchdog j) :=
  onDev_keepsTimeInv fun _ hd => devIte_inv (withBody_inv (waitUntil_inv hd _) _) hd

theorem execHeadgateCheck_keepsTimeInv : KeepsTimeInv execHeadgateCheck :=
  onDev_keepsTimeInv fun _ hd => devIte_inv hd (withBody_inv (waitCycle_inv hd _) _)

theorem execIntakeDramStageReturn_keepsTimeInv (p : Nat) : KeepsTimeInv (execIntakeDramStageReturn p) :=
  onDev_keepsTimeInv fun _ hd => by
    dsimp only
    split
    · exact withBody_inv (lookupSlot_inv hd) _
    · exact withBody_inv hd _

theorem execAgerScan_keepsTimeInv (n : Nat) : KeepsTimeInv (execAgerScan n) :=
  onDev_keepsTimeInv fun _ hd => devIte_inv (withBody_inv (wait_inv hd 1) _) hd

theorem execBgTestEnd_keepsTimeInv (m : Nat) (failing spare : Bool) : KeepsTimeInv (execBgTestEnd m failing spare) :=
  onDev_keepsTimeInv fun _ hd => by
    dsimp only
    split
    · exact devIte_inv (withBody_inv (waitCycle_inv hd _) _) hd
    · exact hd

/-! Ports. -/

theorem execGateEntryStart_keepsTimeInv (p : Nat) : KeepsTimeInv (execGateEntryStart p) :=
  onDev_keepsTimeInv fun _ hd => by
    dsimp only
    split
    · exact devIte_inv (withBody_inv (waitUntil_inv hd _) _) hd
    · exact hd

theorem execPauseExpiry_keepsTimeInv (p c : Nat) : KeepsTimeInv (execPauseExpiry p c) :=
  onDev_keepsTimeInv fun _ hd => by
    dsimp only
    split
    · exact withBody_inv (waitUntil_inv hd _) _
    · exact hd

theorem execTransmitComplete_keepsTimeInv (p : Nat) : KeepsTimeInv (execTransmitComplete p) :=
  onDev_keepsTimeInv fun _ hd => by
    dsimp only
    split
    · exact withBody_inv (waitUntil_inv hd _) _
    · exact hd

theorem execXoffRepeat_keepsTimeInv (p : Nat) : KeepsTimeInv (execXoffRepeat p) :=
  onDev_keepsTimeInv fun _ hd => by
    dsimp only
    split
    · exact devIte_inv (devIte_inv (withBody_inv (waitUntil_inv hd _) _) (waitUntil_inv hd _)) hd
    · exact hd

/-! DRAM channels. -/

theorem execSubchannelCommand_keepsTimeInv (ch sub : Nat) (c : DdrCommand) :
    KeepsTimeInv (execSubchannelCommand ch sub c) :=
  onDev_keepsTimeInv fun _ hd => by
    cases c with
    | refresh rank => exact devIte_inv (withBody_inv (waitCycle_inv hd _) _) hd
    | access i =>
      dsimp only
      split
      · exact devIte_inv (withBody_inv (waitCycle_inv hd _) _) hd
      · exact hd

theorem execDramRefresh_keepsTimeInv (ch rank : Nat) : KeepsTimeInv (execDramRefresh ch rank) :=
  onDev_keepsTimeInv fun d hd => devIte_inv (withBody_inv (waitCycle_inv (d := ⟨d.tm, d.b.fresh.2⟩) (withBody_inv hd _) _) _) hd

theorem execDqsRetrain_keepsTimeInv (ch rank : Nat) : KeepsTimeInv (execDqsRetrain ch rank) :=
  onDev_keepsTimeInv fun d hd => devIte_inv (withBody_inv (waitCycle_inv (d := ⟨d.tm, d.b.fresh.2⟩) (withBody_inv hd _) _) _) hd

theorem execScrubRead_keepsTimeInv (ch : Nat) (corrected : Bool) : KeepsTimeInv (execScrubRead ch corrected) :=
  onDev_keepsTimeInv fun _ hd => devIte_inv (devIte_inv (withBody_inv (waitCycle_inv hd _) _) hd) hd

/-! Basin, tables and Outfall. -/

theorem execBasinApply_keepsTimeInv : KeepsTimeInv execBasinApply :=
  onDev_keepsTimeInv fun _ hd => by
    refine devIte_inv (withBody_inv hd _) (devIte_inv ?_ hd)
    split
    · exact withBody_inv (waitCycle_inv hd _) _
    · exact hd

theorem execSnapshotFrame_keepsTimeInv : KeepsTimeInv execSnapshotFrame :=
  onDev_keepsTimeInv fun _ hd => by
    dsimp only
    split
    · split
      · split
        · exact withBody_inv (waitCycle_inv hd _) _
        · exact waitCycle_inv hd _
      · exact hd
    · exact hd

theorem execTableSearch_keepsTimeInv (i : Nat) : KeepsTimeInv (execTableSearch i) :=
  onDev_keepsTimeInv fun _ hd => runReq_inv hd _ _ _

theorem execTableNext_keepsTimeInv (i : Nat) : KeepsTimeInv (execTableNext i) :=
  onDev_keepsTimeInv fun _ hd => runReq_inv hd _ _ _

theorem execTableInsert_keepsTimeInv (i : Nat) : KeepsTimeInv (execTableInsert i) :=
  onDev_keepsTimeInv fun _ hd => runReq_inv hd _ _ _

theorem execTableDelete_keepsTimeInv (i : Nat) : KeepsTimeInv (execTableDelete i) :=
  onDev_keepsTimeInv fun _ hd => runReq_inv hd _ _ _

theorem execLearn_keepsTimeInv (i : Nat) : KeepsTimeInv (execLearn i) :=
  onDev_keepsTimeInv fun _ hd => runReq_inv hd _ _ _

theorem execFlushByPort_keepsTimeInv (i : Nat) : KeepsTimeInv (execFlushByPort i) :=
  onDev_keepsTimeInv fun _ hd => runReq_inv hd _ _ _

theorem execReleaseStart_keepsTimeInv : KeepsTimeInv execReleaseStart :=
  onDev_keepsTimeInv fun _ hd => release_inv hd _ _

theorem execDiversionRelease_keepsTimeInv : KeepsTimeInv execDiversionRelease :=
  onDev_keepsTimeInv fun _ hd => release_inv hd _ _

/-! Modes and resets. -/

theorem execCounterCheckpoint_keepsTimeInv : KeepsTimeInv execCounterCheckpoint :=
  onDev_keepsTimeInv fun _ hd => devIte_inv hd (devIte_inv (withBody_inv hd _) (withBody_inv (waitUntil_inv hd _) _))

theorem execResetNRelease_keepsTimeInv : KeepsTimeInv execResetNRelease :=
  onDev_keepsTimeInv fun d hd => leaveCold_inv (d := { d with b.sys.resetLow := false }) hd

theorem execSuppliesReturn_keepsTimeInv : KeepsTimeInv execSuppliesReturn :=
  onDev_keepsTimeInv fun d hd => leaveCold_inv (d := { d with b.sys.supplyLost := false }) hd

theorem execDeviceResetStart_keepsTimeInv : KeepsTimeInv execDeviceResetStart :=
  onDev_keepsTimeInv fun _ hd => by
    dsimp only
    split
    · exact devIte_inv (withBody_inv Time.Inv.reset _) hd
    · exact hd

theorem execFwReadyTimeout_keepsTimeInv : KeepsTimeInv execFwReadyTimeout :=
  onDev_keepsTimeInv fun _ hd => by
    dsimp only
    split
    · exact devIte_inv (withBody_inv (waitUntil_inv hd _) _) hd
    · exact hd

theorem execHoldLift_keepsTimeInv : KeepsTimeInv execHoldLift :=
  onDev_keepsTimeInv fun d hd => devIte_inv
    (withBody_inv (waitUntil_inv (d := { d with b := d.b.pfailHigh d.tm }) (withBody_inv hd _) _) _) (withBody_inv hd _)

theorem execConfigRestore_keepsTimeInv : KeepsTimeInv execConfigRestore :=
  onDev_keepsTimeInv fun d hd => by
    dsimp only
    split
    · exact devIte_inv
        (withBody_inv (restoreSet_inv (d := { d with b := d.b.asStandby }) (withBody_inv hd _) _ _ _) _) hd
    · exact hd

/-! Boundaries. -/

theorem execTickBoundary_keepsTimeInv : KeepsTimeInv execTickBoundary := onDev_keepsTimeInv fun _ hd => boundary_inv hd

theorem execPeriodChange_keepsTimeInv : KeepsTimeInv execPeriodChange :=
  onDev_keepsTimeInv fun _ hd => devIte_inv (boundary_inv hd) hd

theorem execStalenessExpiry_keepsTimeInv (slot : Nat) : KeepsTimeInv (execStalenessExpiry slot) :=
  onDev_keepsTimeInv fun _ hd => devIte_inv (boundary_inv hd) hd

theorem execRepitchApply_keepsTimeInv : KeepsTimeInv execRepitchApply :=
  onDev_keepsTimeInv fun _ hd => devIte_inv (boundary_inv hd) hd

/-! Shesin commands. -/

theorem execObjRead_keepsTimeInv (m : Msg) : KeepsTimeInv (execObjRead m) :=
  shesin_keepsTimeInv fun _ _ _ _ he => by
    dsimp only
    split
    · exact objRead_inv he _ _ _ _ _
    · exact he

theorem execObjWrite_keepsTimeInv (m : Msg) : KeepsTimeInv (execObjWrite m) :=
  shesin_keepsTimeInv fun _ _ _ _ he => by
    dsimp only
    split
    · exact objWrite_inv he _ _ _ _ _
    · exact he

theorem execObjModify_keepsTimeInv (m : Msg) : KeepsTimeInv (execObjModify m) :=
  shesin_keepsTimeInv fun _ _ _ _ he => by
    dsimp only
    split
    · exact objWrite_inv he _ _ _ _ _
    · exact he

theorem execModeSet_keepsTimeInv (m : Msg) : KeepsTimeInv (execModeSet m) :=
  shesin_keepsTimeInv fun _ _ _ _ he => by
    dsimp only
    split <;> exact he

/-- A performer that only says, or only changes the body. -/
theorem sayOnly_keepsTimeInv (op : Nat) (m : Msg) (f : Caller → Auth → List Byte → Dev → Nat × List Byte) :
    KeepsTimeInv (shesin op m (sayOnly f)) := shesin_keepsTimeInv fun _ _ _ _ he => he

theorem doOnly_keepsTimeInv (op : Nat) (m : Msg) (f : List Byte → Time → Body → Nat × Body) :
    KeepsTimeInv (shesin op m (doOnly f)) := shesin_keepsTimeInv fun _ _ _ _ he => he

/-- Every command keeps the invariant of the time base. -/
theorem exec_keepsTimeInv (c : Instr) : KeepsTimeInv (exec c) := by
  cases c with
  | ppsInEdge x => exact execPpsInEdge_keepsTimeInv x
  | ppsOutEdge => exact execPpsOutEdge_keepsTimeInv
  | ppsOutFall => exact execPpsOutFall_keepsTimeInv
  | timeBaseWrap => exact execTimeBaseWrap_keepsTimeInv
  | tickBoundary => exact execTickBoundary_keepsTimeInv
  | periodChange => exact execPeriodChange_keepsTimeInv
  | stalenessExpiry slot => exact execStalenessExpiry_keepsTimeInv slot
  | repitchApply => exact execRepitchApply_keepsTimeInv
  | lockGrant sem n => exact execLockGrant_keepsTimeInv sem n
  | itemStart k => exact execItemStart_keepsTimeInv k
  | coreWatchdog c => exact execCoreWatchdog_keepsTimeInv c
  | threadTimerExpiry k => exact execThreadTimerExpiry_keepsTimeInv k
  | taskTimerExpiry k => exact execTaskTimerExpiry_keepsTimeInv k
  | routerDeliver => exact execRouterDeliver_keepsTimeInv
  | bivouacWatchdog j => exact execBivouacWatchdog_keepsTimeInv j
  | headgateCheck => exact execHeadgateCheck_keepsTimeInv
  | intakeDramStageReturn p => exact execIntakeDramStageReturn_keepsTimeInv p
  | agerScan n => exact execAgerScan_keepsTimeInv n
  | bgTestEnd m failing spare => exact execBgTestEnd_keepsTimeInv m failing spare
  | gateEntryStart p => exact execGateEntryStart_keepsTimeInv p
  | pauseExpiry p c => exact execPauseExpiry_keepsTimeInv p c
  | transmitComplete p => exact execTransmitComplete_keepsTimeInv p
  | xoffRepeat p => exact execXoffRepeat_keepsTimeInv p
  | subchannelCommand ch sub c => exact execSubchannelCommand_keepsTimeInv ch sub c
  | dramRefresh ch rank => exact execDramRefresh_keepsTimeInv ch rank
  | dqsRetrain ch rank => exact execDqsRetrain_keepsTimeInv ch rank
  | scrubRead ch corrected => exact execScrubRead_keepsTimeInv ch corrected
  | channelThaw au ch r => exact execChannelThaw_keepsTimeInv au ch r
  | basinApply => exact execBasinApply_keepsTimeInv
  | snapshotFrame => exact execSnapshotFrame_keepsTimeInv
  | tableSearch i => exact execTableSearch_keepsTimeInv i
  | tableNext i => exact execTableNext_keepsTimeInv i
  | tableInsert i => exact execTableInsert_keepsTimeInv i
  | tableDelete i => exact execTableDelete_keepsTimeInv i
  | learn i => exact execLearn_keepsTimeInv i
  | flushByPort i => exact execFlushByPort_keepsTimeInv i
  | releaseStart => exact execReleaseStart_keepsTimeInv
  | diversionRelease => exact execDiversionRelease_keepsTimeInv
  | counterCheckpoint => exact execCounterCheckpoint_keepsTimeInv
  | resetNRelease => exact execResetNRelease_keepsTimeInv
  | suppliesReturn => exact execSuppliesReturn_keepsTimeInv
  | deviceResetStart => exact execDeviceResetStart_keepsTimeInv
  | fwReadyTimeout => exact execFwReadyTimeout_keepsTimeInv
  | holdLift => exact execHoldLift_keepsTimeInv
  | configRestore => exact execConfigRestore_keepsTimeInv
  | registerWrite au a w => exact execRegisterWrite_keepsTimeInv au a w
  | regDataAccess au k w => exact execRegDataAccess_keepsTimeInv au k w
  | cfgIndexWrite au slot v => exact execCfgIndexWrite_keepsTimeInv au slot v
  | windowAccess t off w => exact execWindowAccess_keepsTimeInv t off w
  | apertureAccess t off len w => exact execApertureAccess_keepsTimeInv t off len w
  | owr k f => exact execOwr_keepsTimeInv k f
  | claim k f => exact execClaim_keepsTimeInv k f
  | reqCancel w => exact execReqCancel_keepsTimeInv w
  | windowAcquire | windowRelease | windowP | windowV => exact windowCommand_keepsTimeInv _ _
  | lowWordLatch | counterReadClear => exact readCommand_keepsTimeInv _ _ _
  | txTsLatch | txTsTagRead => exact wordCommand_keepsTimeInv _ _ _ _
  | arm | timeStep | slew | applyTick | ppsOutNextWrite | hwReset | flagSet | lwReset | force | unforce | doorbellRing
  | hostComplete | epochSwap | gateListSwap | kick | fwReady | tableEnable | repitch | keyClear | pitch | strike
  | freeze | unfreeze | save | restore | hostReset | debugHalt | debugResume | debugStep | debugReset =>
    exact fieldCommand_keepsTimeInv _ _ _ _ _
  | objRead m => exact execObjRead_keepsTimeInv m
  | objWrite m => exact execObjWrite_keepsTimeInv m
  | objModify m => exact execObjModify_keepsTimeInv m
  | modeSet m => exact execModeSet_keepsTimeInv m
  | echo | identify | readImem | storeRead | modRead => exact sayOnly_keepsTimeInv _ _ _
  | thaw | resetCmd | loadImem | restoreFactory | setKey | modWrite | fwWrite | fwActivate => exact doOnly_keepsTimeInv _ _ _
  | storeSave => exact shesin_keepsTimeInv fun _ _ _ _ he => he
  | _ => exact keepsTimeInv_of_body fun s => ⟨_, rfl⟩

theorem idle_keepsTimeInv : KeepsTimeInv idle := onDev_keepsTimeInv fun _ hd => devIte_inv hd (wait_inv hd 1)

end Sys2Proof.Machine

namespace Sys2Proof
open Machine

/-- Settles O2: with an empty queue a step is a cycle, and otherwise the command at the front. -/
theorem timeInvariantKept : Obligations.TimeInvariantKept := by
  unfold Obligations.TimeInvariantKept
  intro s t hi h
  unfold step at h
  split at h
  · exact idle_keepsTimeInv s t hi h
  · next c rest _ => exact exec_keepsTimeInv c { s with pending := rest } t hi h

/-- Settles O1. -/
theorem timeInvariantAtReset : Obligations.TimeInvariantAtReset := Time.Inv.reset

end Sys2Proof
end

section
/-! Cycles of the time base (R34, R35) and the boundary of the tick generator (R40 to R42). -/

namespace Sys2Proof.Machine

/-! Differences of times. -/

/-- The difference of two times is the number of 64 bits that is congruent to it. -/
theorem timeDiff_eq {a c : Nat} {e : Int} (h : (a : Int) % 2 ^ 64 = (c + e) % 2 ^ 64) (h1 : -2 ^ 63 ≤ e) (h2 : e < 2 ^ 63) :
    timeDiff a c = e := by
  unfold timeDiff signedOf
  split <;> omega

theorem timeDiff_emod (a c : Nat) : ((a : Int) - c) % 2 ^ 64 = timeDiff a c % 2 ^ 64 := by
  unfold timeDiff signedOf
  split <;> omega

/-! Cycles. -/

theorem addFree_of_lt {w v k : Nat} (h : v + k < 2 ^ w) : addFree w v k = v + k := if_pos h

/-- In `n` cycles the nanosecond part wraps at most `n` times. -/
theorem wraps_le {t : Time} {r : Nat} (hi : t.Inv) (h1 : 2861879875 ≤ r) (h2 : r ≤ 15 * 2864743187) (n : Nat) :
    (t.tb + (slewSpan r t.slewPpm t.slewRem n).1) / 2 ^ 80 ≤ n := by
  obtain ⟨hd, hr, hs⟩ := slew_bounds h1 h2 hi.ppm.1 hi.ppm.2
  have hspan := slewSpan_le (rem := t.slewRem) hd hr n
  have hcyc : n * (r + slewPerCycle r t.slewPpm) ≤ n * 2 ^ 36 := Nat.mul_le_mul_left _ hs.le
  have htb := hi.tb
  omega

/-- `m` cycles and then `n` cycles are `m + n` cycles, while ERA does not wrap. -/
theorem Time.advance_add {t : Time} {r : Nat} (hi : t.Inv) (h1 : 2861879875 ≤ r) (h2 : r ≤ 15 * 2864743187) (m n : Nat)
    (hera : t.era + (m + n) < 2 ^ 32) : (t.advance r m).advance r n = t.advance r (m + n) := by
  obtain ⟨hd, hr, -⟩ := slew_bounds h1 h2 hi.ppm.1 hi.ppm.2
  have hm := wraps_le hi h1 h2 m
  have hn := wraps_le (hi.advance (n := m) h1 h2) h1 h2 n
  have hmn := wraps_le hi h1 h2 (m + n)
  have hadd := slewSpan_add (rem := t.slewRem) m n hd hr
  unfold Time.advance at *
  simp only [hadd] at hmn ⊢
  rw [addFree_of_lt (by omega : t.era + (t.tb + (slewSpan r t.slewPpm t.slewRem m).1) / 2 ^ 80 < 2 ^ 32),
    addFree_of_lt (by simp only at hn; omega), addFree_of_lt (by omega)]
  generalize (slewSpan r t.slewPpm t.slewRem m).1 = x at *
  generalize slewSpan r t.slewPpm (slewSpan r t.slewPpm t.slewRem m).2 n = y at *
  have htb : ((t.tb + x) % 2 ^ 80 + y.1) % 2 ^ 80 = (t.tb + (x + y.1)) % 2 ^ 80 := by omega
  have hturns : (t.tb + x) / 2 ^ 80 + ((t.tb + x) % 2 ^ 80 + y.1) / 2 ^ 80 = (t.tb + (x + y.1)) / 2 ^ 80 := by omega
  simp only [htb, Nat.add_assoc, hturns]

/-- The first count of cycles whose span reaches `dn` passes it by less than a cycle's span. -/
theorem spanCount_reaches {r ppm : Nat} {rem : Int} (h1 : 2861879875 ≤ r) (h2 : r ≤ 15 * 2864743187) (h3 : 1 ≤ ppm)
    (h4 : ppm ≤ 500) (dn : Nat) :
    dn ≤ (slewSpan r ppm rem (spanCount r ppm rem dn)).1 ∧ (slewSpan r ppm rem (spanCount r ppm rem dn)).1 < dn + 2 ^ 36 := by
  obtain ⟨hd, hr, hs⟩ := slew_bounds h1 h2 h3 h4
  have hspec := spanCount_spec (rem := rem) (dn := dn) hd hr
  refine ⟨Nat.not_lt.1 fun h => lt_irrefl _ ((hspec _).2 h), ?_⟩
  cases hn : spanCount r ppm rem dn with
  | zero => rw [slewSpan_zero hd]; simp only []; omega
  | succ k =>
    have hk : (slewSpan r ppm rem k).1 < dn := (hspec k).1 (by omega)
    have hone := (slewSpan_one (rem := (slewSpan r ppm rem k).2) hd hr).2
    rw [slewSpan_add k 1 hd hr]
    simp only []
    omega

/-- Whether a time is reached after `n` cycles, by the distance to it and the span of the cycles. -/
theorem reached_advance_iff {t : Time} {r n target : Nat} (hi : t.Inv) (ht : target < 2 ^ 64) :
    timeReached (t.advance r n).now target = true ↔
      (t.tb + (slewSpan r t.slewPpm t.slewRem n).1 + (2 ^ 80 - target * 2 ^ 16)) % 2 ^ 80 < 2 ^ 79 := by
  have htb := hi.tb
  refine (timeReached_iff _ _ ht).trans ?_
  generalize (slewSpan r t.slewPpm t.slewRem n).1 = x
  omega

/-- A wait ends in the first cycle at or after its time (R40). -/
theorem cyclesTo_first {t : Time} {r target : Nat} (hi : t.Inv) (h1 : 2861879875 ≤ r) (h2 : r ≤ 15 * 2864743187)
    (ht : target < 2 ^ 64) : timeReached (t.advance r (t.cyclesTo r target)).now target = true ∧
      ∀ m, m < t.cyclesTo r target → timeReached (t.advance r m).now target = false := by
  have hp := hi.ppm
  obtain ⟨hd, hr, -⟩ := slew_bounds h1 h2 hp.1 hp.2
  have htb := hi.tb
  obtain ⟨dn, hdn⟩ : ∃ dn, (target * 2 ^ 16 + 2 ^ 80 - t.tb) % 2 ^ 80 = dn := ⟨_, rfl⟩
  simp only [← Bool.not_eq_true, reached_advance_iff hi ht, Time.cyclesTo, hdn]
  split
  · rw [slewSpan_zero hd]
    exact ⟨by simp only []; omega, fun m hm => absurd hm (Nat.not_lt_zero m)⟩
  · constructor
    · have hspan := spanCount_reaches (rem := t.slewRem) h1 h2 hp.1 hp.2 dn
      generalize (slewSpan r t.slewPpm t.slewRem _).1 = x at *
      omega
    · intro m hm
      have hspan := (spanCount_spec hd hr m).1 hm
      generalize (slewSpan r t.slewPpm t.slewRem m).1 = x at *
      omega

/-! One cycle, by the slew that remains (R35). -/

section
variable {t : Time} {r : Nat} (hd : 0 < slewPerCycle r t.slewPpm)
include hd

theorem Time.cycle_slewUp (h : (slewPerCycle r t.slewPpm : Int) < t.slewRem) :
    (t.advance r 1).tb = (t.tb + r + slewPerCycle r t.slewPpm) % 2 ^ 80 ∧
      (t.advance r 1).slewRem = t.slewRem - slewPerCycle r t.slewPpm := by
  have hspan : slewSpan r t.slewPpm t.slewRem 1 =
      (r + slewPerCycle r t.slewPpm, t.slewRem - slewPerCycle r t.slewPpm) := by
    unfold slewSpan
    simp only [lt_ceilDiv hd, Nat.cast_one, one_mul]
    rw [if_neg (by omega), if_pos (by omega), if_pos (by omega)]
  simp only [Time.advance, hspan, Nat.add_assoc, and_self]

theorem Time.cycle_slewDown (hr : slewPerCycle r t.slewPpm < r) (h : t.slewRem < -(slewPerCycle r t.slewPpm : Int)) :
    (t.advance r 1).tb = (t.tb + r - slewPerCycle r t.slewPpm) % 2 ^ 80 ∧
      (t.advance r 1).slewRem = t.slewRem + slewPerCycle r t.slewPpm := by
  have hspan : slewSpan r t.slewPpm t.slewRem 1 =
      (r - slewPerCycle r t.slewPpm, t.slewRem + slewPerCycle r t.slewPpm) := by
    unfold slewSpan
    simp only [lt_ceilDiv hd, Nat.cast_one, one_mul]
    rw [if_neg (by omega), if_pos (by omega), if_neg (by omega)]
  simp only [Time.advance, hspan, Nat.add_sub_assoc hr.le, and_self]

/-- A slew of at most one cycle ends exactly. -/
theorem Time.cycle_slewEnds (hr : slewPerCycle r t.slewPpm < r) (h1 : -(slewPerCycle r t.slewPpm : Int) ≤ t.slewRem)
    (h2 : t.slewRem ≤ slewPerCycle r t.slewPpm) :
    ((t.advance r 1).tb : Int) = (t.tb + r + t.slewRem) % 2 ^ 80 ∧ (t.advance r 1).slewRem = 0 := by
  have hspan : slewSpan r t.slewPpm t.slewRem 1 = ((r + t.slewRem).toNat, 0) := by
    unfold slewSpan
    simp only [lt_ceilDiv hd, one_mul]
    by_cases h0 : t.slewRem = 0
    · rw [if_pos h0, h0]; simp
    · rw [if_neg h0, if_neg (by omega)]
  simp only [Time.advance, hspan, and_true]
  omega

end

theorem Time.cycle_noSlew {t : Time} (r : Nat) (h : t.slewRem = 0) :
    (t.advance r 1).tb = (t.tb + r) % 2 ^ 80 ∧ (t.advance r 1).slewRem = 0 := by
  simp [Time.advance, slewSpan, h]

/-- ERA and the turns count a cycle that wraps, and no other (R31). -/
theorem Time.cycle_wraps {t : Time} {r : Nat} (hi : t.Inv) (h1 : 2861879875 ≤ r) (h2 : r ≤ 15 * 2864743187) :
    ((t.advance r 1).tb < t.tb → (t.advance r 1).era = addFree 32 t.era 1 ∧ (t.advance r 1).turns = t.turns + 1) ∧
      (t.tb ≤ (t.advance r 1).tb → (t.advance r 1).era = t.era ∧ (t.advance r 1).turns = t.turns) := by
  obtain ⟨hd, hr, hs⟩ := slew_bounds h1 h2 hi.ppm.1 hi.ppm.2
  have hone := slewSpan_one (rem := t.slewRem) hd hr
  have htb := hi.tb
  simp only [Time.advance]
  generalize (slewSpan r t.slewPpm t.slewRem 1).1 = x at *
  constructor <;> intro h
  · rw [show (t.tb + x) / 2 ^ 80 = 1 by omega]
    exact ⟨rfl, rfl⟩
  · rw [show (t.tb + x) / 2 ^ 80 = 0 by omega]
    exact ⟨addFree_of_lt hi.era, rfl⟩

/-! The tick generator. -/

theorem period16_bounds {t : Time} (hi : t.Inv) : 4000 * 2 ^ 16 ≤ t.period16 ∧ t.period16 < 2 ^ 36 := by
  have hp := hi.period
  unfold Time.period16
  omega

/-- A boundary at which a period change is due: ANCHOR moves to it (R42). -/
theorem Time.cut_of_due {t : Time} (h : t.pendingChange = 1 ∧ t.nextTick = t.applyTick) :
    t.cut = { t with
      tickNumber := t.nextTick, boundary := t.nextBoundary, anchor := t.nextBoundary, anchorTick := t.nextTick
      period := t.periodNext, pendingChange := 0
      grids := (⟨t.fullOf t.nextBoundary, t.nextTick, t.periodNext⟩ :: t.grids).take 4
      nextBoundary := (t.nextBoundary + t.periodNext * 2 ^ 16) % 2 ^ 64, nextTick := (t.nextTick + 1) % 2 ^ 32 } := by
  unfold Time.cut
  simp only []
  rw [if_pos h]
  rfl

/-- Any other boundary stays on the grid (R40). -/
theorem Time.cut_of_not_due {t : Time} (h : ¬ (t.pendingChange = 1 ∧ t.nextTick = t.applyTick)) :
    t.cut = { t with
      tickNumber := t.nextTick, boundary := t.nextBoundary
      nextBoundary := (t.nextBoundary + t.period * 2 ^ 16) % 2 ^ 64, nextTick := (t.nextTick + 1) % 2 ^ 32 } := by
  unfold Time.cut
  simp only []
  rw [if_neg h]
  rfl

/-- The grid points before the one at which a re-arm puts the next boundary. -/
def Time.rearmPoints (t : Time) : Nat :=
  if timeDiff t.now t.anchor < 0 then 0 else ceilDiv (timeDiff t.now t.anchor).toNat t.period16

/-- A grid point within reach lies as far from the present time as its distance from ANCHOR says. -/
theorem timeDiff_gridPoint {t : Time} {k : Nat} (h1 : -2 ^ 63 ≤ (k * t.period16 : Nat) - timeDiff t.now t.anchor)
    (h2 : (k * t.period16 : Nat) - timeDiff t.now t.anchor < 2 ^ 63) :
    timeDiff ((t.anchor + k * t.period16) % 2 ^ 64) t.now = (k * t.period16 : Nat) - timeDiff t.now t.anchor := by
  have hc := timeDiff_emod t.now t.anchor
  refine timeDiff_eq ?_ h1 h2
  generalize k * t.period16 = x at *
  omega

/-- The point of a re-arm is at or after the present time, and every earlier one is before it (R41). -/
theorem rearmPoints_first {t : Time} (hi : t.Inv) (h1 : -2 ^ 62 ≤ timeDiff t.now t.anchor)
    (h2 : timeDiff t.now t.anchor ≤ 2 ^ 62) :
    0 ≤ timeDiff ((t.anchor + t.rearmPoints * t.period16) % 2 ^ 64) t.now ∧
      ∀ j, j < t.rearmPoints → timeDiff ((t.anchor + j * t.period16) % 2 ^ 64) t.now < 0 := by
  obtain ⟨hp1, hp2⟩ := period16_bounds hi
  have hpos : 0 < t.period16 := by omega
  unfold Time.rearmPoints
  split
  · refine ⟨?_, fun j hj => absurd hj (Nat.not_lt_zero j)⟩
    rw [timeDiff_gridPoint (by omega) (by omega)]
    omega
  · obtain ⟨d, hd⟩ : ∃ d : Nat, timeDiff t.now t.anchor = d := ⟨(timeDiff t.now t.anchor).toNat, by omega⟩
    have hle := (ceilDiv_le (n := ceilDiv d t.period16) hpos).1 (le_refl _)
    have hbefore : ∀ j, j < ceilDiv d t.period16 → j * t.period16 < d := fun j => (lt_ceilDiv hpos).1
    rw [hd, Int.toNat_natCast]
    refine ⟨?_, fun j hj => ?_⟩
    · have hpast : ceilDiv d t.period16 * t.period16 < d + 2 ^ 36 := by
        cases hk : ceilDiv d t.period16 with
        | zero => omega
        | succ k =>
          have := hbefore k (by omega)
          rw [Nat.add_mul]; omega
      rw [timeDiff_gridPoint (by omega) (by omega)]
      omega
    · have := hbefore j hj
      rw [timeDiff_gridPoint (by omega) (by omega)]
      omega

end Sys2Proof.Machine

namespace Sys2Proof
open Machine

/-- Settles O6. -/
theorem cyclesAddUp : Obligations.CyclesAddUp := by
  unfold Obligations.CyclesAddUp
  exact ⟨fun _ _ m n hi h1 h2 hera => Time.advance_add hi h1 h2 m n hera, fun _ _ _ hi h1 h2 ht => cyclesTo_first hi h1 h2 ht⟩

/-- Settles O9. -/
theorem rearmFindsBoundary : Obligations.RearmFindsBoundary := by
  unfold Obligations.RearmFindsBoundary
  intro t hi _ h1 h2
  obtain ⟨hat, hbefore⟩ := rearmPoints_first hi h1 h2
  have hnow := now_lt t
  refine ⟨t.rearmPoints, rfl, rfl, hat, hbefore, rfl, rfl,
    ⟨(t.rearm.nextBoundary + 2 ^ 64 - t.now) % 2 ^ 64, rfl, Nat.mod_lt _ (by decide), ?_⟩, rfl⟩
  have hnb : t.rearm.nextBoundary < 2 ^ 64 := Nat.mod_lt _ (by decide)
  generalize t.rearm.nextBoundary = nb at *
  omega

/-- Settles O8: with a change due and without. -/
theorem boundaryTakesEffect : Obligations.BoundaryTakesEffect := by
  unfold Obligations.BoundaryTakesEffect
  intro t _
  dsimp only
  split
  · next hdue =>
    rw [Time.cut_of_due hdue]
    exact ⟨rfl, rfl, rfl, rfl, ⟨rfl, rfl, rfl, rfl, rfl⟩, rfl, rfl, rfl, rfl⟩
  · next hdue =>
    rw [Time.cut_of_not_due hdue]
    exact ⟨rfl, rfl, rfl, rfl, ⟨rfl, rfl, rfl, rfl, rfl⟩, rfl, rfl, rfl, rfl⟩

end Sys2Proof
end

section
/-! An idle cycle (R34, R164, R274, R321): the time base, and the single-bit errors that a cycle corrects and counts. -/

namespace Sys2Proof.Machine

/-- A count, cut to the width of its field. -/
theorem Body.fget_bump_count (b : Body) (c i : Nat) (f : Fld) (k : Nat) :
    (b.bump c i f k).fget c i f = addFree f.width (b.fget c i f) k % 2 ^ f.width := Body.fget_fset_self ..

theorem lt_of_memBytes {m a : Nat} (h : a < memBytes m) : m < 0x210 := by
  unfold memBytes at h
  split at h <;> omega

/-- The table of a line is known from the fields of TABLE. -/
theorem Body.tableAt_congr {b c : Body} (h : ∀ k (f : Fld), k < 4096 → f.lo < 2 ^ 16 → c.fget clsTable k f = b.fget clsTable k f)
    (n : Nat) : c.tableAt n = b.tableAt n := by
  have hon : c.enabledTables = b.enabledTables := List.filter_congr fun k hk => by
    unfold Body.tableOn
    rw [h k _ (List.mem_range.1 hk) (by decide)]
  unfold Body.tableAt
  rw [hon]
  refine List.find?_congr fun k hk => ?_
  have hlt : k < 4096 := List.mem_range.1 (List.mem_filter.1 hk).1
  have hranges : c.lineRanges false k = b.lineRanges false k := by
    unfold Body.lineRanges
    rw [h k FTable.kind hlt (by decide), h k FTable.base hlt (by decide), h k FTable.sizeLog2 hlt (by decide)]
    rfl
  rw [hranges]

theorem Body.lt_of_tableAt {b : Body} {n k : Nat} (h : b.tableAt n = some k) : k < 4096 :=
  List.mem_range.1 (List.mem_filter.1 (List.mem_of_find?_eq_some h)).1

/-- The count of a memory leaves the fields of TABLE. -/
theorem fget_table_bump_memregion (b : Body) {m k : Nat} {f g : Fld} (hm : m < 2 ^ 24) (hk : k < 2 ^ 24) (hf : f.lo < 2 ^ 16)
    (hg : g.lo < 2 ^ 16) : (b.bump clsMemregion m g 1).fget clsTable k f = b.fget clsTable k f :=
  Body.fget_bump_ne b (fieldKey_ne hk hm hf hg (.inl (by decide))) 1

theorem Body.tableAt_bump_memregion (b : Body) (n : Nat) :
    (b.bump clsMemregion 2 FMem.corrected 1).tableAt n = b.tableAt n :=
  Body.tableAt_congr (fun k f hk hf => fget_table_bump_memregion b (by decide) (by omega) hf (by decide)) n

/-- What a corrected error counts: for a word of table memory its memory's and its table's. -/
theorem Body.correct_table {b : Body} {a k : Nat} (imem : Bool) (hk : b.tableAt (a / 16) = some k) :
    b.correct 2 a imem = (b.bump clsMemregion 2 FMem.corrected 1).bump clsTable k FTable.corrected 1 := by
  simp [Body.correct, Body.tableAt_bump_memregion, hk]

theorem Body.correct_noTable {b : Body} {a : Nat} (imem : Bool) (hk : b.tableAt (a / 16) = none) :
    b.correct 2 a imem = b.bump clsMemregion 2 FMem.corrected 1 := by
  simp [Body.correct, Body.tableAt_bump_memregion, hk]

/-- For a word of a core's memory its memory's and its core's. -/
theorem Body.correct_core (b : Body) {m : Nat} (a : Nat) (imem : Bool) (h1 : 0x100 ≤ m) (h2 : m < 0x180) :
    b.correct m a imem = (b.bump clsMemregion m FMem.corrected 1).bump clsCore (m - 0x100)
      (if imem then FCore.imemCorrected else FCore.dmemCorrected) 1 := by
  unfold Body.correct
  rw [if_neg (by omega), if_pos ⟨h1, h2⟩]

/-- For a word of another memory its memory's. -/
theorem Body.correct_other (b : Body) {m : Nat} (a : Nat) (imem : Bool) (h1 : m ≠ 2) (h2 : ¬ (0x100 ≤ m ∧ m < 0x180)) :
    b.correct m a imem = b.bump clsMemregion m FMem.corrected 1 := by
  unfold Body.correct
  rw [if_neg h1, if_neg h2]

/-- Every corrected error counts in its memory (R321). -/
theorem fget_correct_memregion (b : Body) {m : Nat} (a : Nat) (imem : Bool) (hm : m < 2 ^ 24) :
    (b.correct m a imem).fget clsMemregion m FMem.corrected =
      addFree 32 (b.fget clsMemregion m FMem.corrected) 1 % 2 ^ 32 := by
  have hcount := Body.fget_bump_count b clsMemregion m FMem.corrected 1
  by_cases h2 : m = 2
  · subst h2
    cases hk : b.tableAt (a / 16) with
    | none => rw [Body.correct_noTable imem hk, hcount]; rfl
    | some k =>
      have hlt := Body.lt_of_tableAt hk
      rw [Body.correct_table imem hk]
      exact (Body.fget_bump_ne _ (fieldKey_ne hm (by omega) (by decide) (by decide) (.inl (by decide))) 1).trans hcount
  · by_cases hcore : 0x100 ≤ m ∧ m < 0x180
    · rw [Body.correct_core b a imem hcore.1 hcore.2]
      exact (Body.fget_bump_ne _ (fieldKey_ne hm (by omega) (by decide) (by cases imem <;> decide) (.inl (by decide))) 1).trans
        hcount
    · rw [Body.correct_other b a imem h2 hcore]
      exact hcount

/-- In table memory it counts in the table that holds the line (R274). -/
theorem fget_correct_table (b : Body) {a k : Nat} (imem : Bool) (hk : b.tableAt (a / 16) = some k) :
    (b.correct 2 a imem).fget clsTable k FTable.corrected = addFree 32 (b.fget clsTable k FTable.corrected) 1 % 2 ^ 32 := by
  have hlt := Body.lt_of_tableAt hk
  rw [Body.correct_table imem hk, Body.fget_bump_count, fget_table_bump_memregion b (by decide) (by omega) (by decide) (by decide)]
  rfl

/-- In a core's memory it counts in the core (R164). -/
theorem fget_correct_core (b : Body) {m : Nat} (a : Nat) (imem : Bool) (h1 : 0x100 ≤ m) (h2 : m < 0x180) :
    (b.correct m a imem).fget clsCore (m - 0x100) (if imem then FCore.imemCorrected else FCore.dmemCorrected) =
      addFree 32 (b.fget clsCore (m - 0x100) (if imem then FCore.imemCorrected else FCore.dmemCorrected)) 1 % 2 ^ 32 := by
  rw [Body.correct_core b a imem h1 h2, Body.fget_bump_count, Body.fget_bump_ne b (fieldKey_ne (by omega) (by omega)
    (by cases imem <;> decide) (by decide) (.inl (by decide)))]
  cases imem <;> rfl

theorem step_idle {s : State} (h : s.pending = []) : step s = idle s := by
  unfold step
  rw [h]

/-- In Cold no clock runs (R43). -/
theorem idle_cold {s : State} (h : s.b.sys.base = .cold) : idle s = .next s := by simp [idle, onDev, h]

theorem idle_cycle {s : State} (h : s.b.sys.base ≠ .cold) :
    idle s = .next { s with
      tm := s.tm.advance (clockRate s.tm s.b.asleep) 1
      b := ((s.b.endSwap.stallPcie 1).watchCores (s.tm.advance (clockRate s.tm s.b.asleep) 1).cycle).correctErrors } := by
  simp [idle, onDev, h, Dev.wait]

end Sys2Proof.Machine

namespace Sys2Proof
open Machine

/-- Settles O4: the idle step, the errors that a cycle corrects, and one cycle by the slew that remains. -/
theorem idleAndClock : Obligations.IdleAndClock := by
  unfold Obligations.IdleAndClock
  refine ⟨fun s h => ⟨fun hc => (step_idle h).trans (idle_cold hc), fun hc => (step_idle h).trans (idle_cycle hc),
    fun b => rfl, fun b m a imem ha => ?_⟩, fun t r hi h1 h2 => ?_⟩
  · have hm := lt_of_memBytes ha
    refine ⟨fget_correct_memregion b a imem (by omega), fun k hm2 hk _ => ?_, fget_correct_core b a imem⟩
    subst hm2
    exact fget_correct_table b imem hk
  · obtain ⟨hd, hr, -⟩ := slew_bounds h1 h2 hi.ppm.1 hi.ppm.2
    obtain ⟨hwrap, hplain⟩ := Time.cycle_wraps hi h1 h2
    exact ⟨Time.cycle_noSlew r, Time.cycle_slewUp hd, Time.cycle_slewDown hd hr, Time.cycle_slewEnds hd hr, hwrap, hplain, rfl⟩

end Sys2Proof
end

section
/-! What the core commit of an instruction with a register result leaves (R50, R141, R176, R178, R208): the rules of charging
cycles and of `Body.coreCommit`, by hart, core and object field. -/

namespace Sys2Proof.Machine

/-! Cycles charged. -/

/-- A hart whose item is charged `n` cycles (R50), or whose handler's grace is (R51). -/
def Hart.charged (x : Hart) (n : Nat) : Hart :=
  { x with
    item := x.item.map (fun it => if it.overrun then it else { it with cycles := it.cycles + n })
    graceUsed := if (x.item.map Item.overrun).getD false then x.graceUsed + n else x.graceUsed }

theorem Body.chargeCycles_biv (b : Body) {h : Nat} (hh : 1024 ≤ h) (n : Nat) : b.chargeCycles h n = b := if_pos hh

theorem Body.chargeCycles_thread (b : Body) {h : Nat} (hh : h < 1024) (n : Nat) :
    b.chargeCycles h n = (((b.modHart h (fun x => x.charged n)).setCore (coreOf h)
      { b.core (coreOf h) with spent := (b.core (coreOf h)).spent + n }).bumpSat clsHeadgate (0x10000 + h) FLoad.issueNow
        n).bumpSat clsHeadgate (0x20000 + coreOf h) FLoad.issueNow n := by
  have hcharge : (fun x : Hart => match x.item with
      | some it => if it.overrun then { x with graceUsed := x.graceUsed + n }
        else { x with item := some { it with cycles := it.cycles + n } }
      | none => x) = fun x => x.charged n := by
    funext x
    obtain ⟨_, _, _, _, _, _, item, _⟩ := x
    cases item with
    | none => rfl
    | some it => cases h : it.overrun <;> simp [Hart.charged, h]
  unfold Body.chargeCycles
  rw [if_neg (by omega)]
  dsimp only
  rw [← hcharge]
  rfl

/-- Charging changes the hart, its core and the load of both (R137). -/
theorem Body.hart_chargeCycles_self (b : Body) {h : Nat} (hh : h < 1024) (n : Nat) :
    (b.chargeCycles h n).hart h = (b.hart h).charged n := by
  simp [Body.chargeCycles_thread b hh]

theorem Body.hart_chargeCycles_ne (b : Body) {h k : Nat} (hk : k ≠ h) (n : Nat) :
    (b.chargeCycles h n).hart k = b.hart k := by
  by_cases hh : h < 1024
  · simp [Body.chargeCycles_thread b hh, Body.hart_modHart_ne b hk]
  · rw [Body.chargeCycles_biv b (by omega)]

theorem Body.core_chargeCycles_self (b : Body) {h : Nat} (hh : h < 1024) (n : Nat) :
    (b.chargeCycles h n).core (coreOf h) = { b.core (coreOf h) with spent := (b.core (coreOf h)).spent + n } := by
  simp [Body.chargeCycles_thread b hh]

theorem Body.core_chargeCycles_ne (b : Body) {h c : Nat} (hc : c ≠ coreOf h) (n : Nat) :
    (b.chargeCycles h n).core c = b.core c := by
  by_cases hh : h < 1024
  · simp [Body.chargeCycles_thread b hh, Body.core_setCore_ne _ hc]
  · rw [Body.chargeCycles_biv b (by omega)]

theorem Body.fget_chargeCycles (b : Body) {h c i : Nat} {f : Fld} (n : Nat) (hi : i < 2 ^ 24) (hf : f.lo < 2 ^ 16)
    (hne : c ≠ clsHeadgate ∨ (i ≠ 0x10000 + h ∧ i ≠ 0x20000 + coreOf h) ∨ f.lo ≠ FLoad.issueNow.lo) :
    (b.chargeCycles h n).fget c i f = b.fget c i f := by
  by_cases hh : h < 1024
  · have hcore : coreOf h ≤ h := Nat.div_le_self h 8
    rw [Body.chargeCycles_thread b hh,
      Body.fget_bumpSat_ne _ (fieldKey_ne hi (by omega) hf (by decide) (by omega)),
      Body.fget_bumpSat_ne _ (fieldKey_ne hi (by omega) hf (by decide) (by omega))]
    rfl
  · rw [Body.chargeCycles_biv b (by omega)]

/-- `c` is `b` but for its object fields, harts and cores. -/
structure SameParts (b c : Body) : Prop where
  mem : c.mem = b.mem
  sys : c.sys = b.sys
  work : c.work = b.work
  sync : c.sync = b.sync
  net : c.net = b.net
  drm : c.drm = b.drm
  tab : c.tab = b.tab
  bas : c.bas = b.bas
  host : c.host = b.host
  adm : c.adm = b.adm
  outputs : c.outputs = b.outputs
  latches : c.latches = b.latches
  reply : c.reply = b.reply

theorem Body.chargeCycles_sameParts (b : Body) (h n : Nat) : SameParts b (b.chargeCycles h n) := by
  unfold Body.chargeCycles
  split <;> constructor <;> rfl

/-! Core commit. -/

/-- A hart at its core commit (R141, R167): its results are on their way, the next address is taken and a stepped thread
halts again. -/
def Hart.committed (x : Hart) (u : Uses) (c pc : Nat) (regs : SMap Word) : Hart :=
  { x.noteResults u c regs with pc := pc % 2 ^ 16, halted := x.halted || x.stepping, stepping := false }

section
variable (b : Body) (tm : Time) {h : Nat} (cycles pc : Nat) (regs : SMap Word)

theorem Body.hart_coreCommit_thread (hh : h < 1024) :
    (b.coreCommit tm h cycles pc regs).hart h = ((b.hart h).charged (b.waitOf tm h cycles + cycles)).committed
      (usesOf (b.insnAt h) cycles) (b.coreNow tm (coreOf h) + b.waitOf tm h cycles) pc regs := by
  simp [Body.coreCommit, hh, Body.hart_chargeCycles_self, Hart.committed]

theorem Body.hart_coreCommit_biv (hh : 1024 ≤ h) :
    (b.coreCommit tm h cycles pc regs).hart h = (b.hart h).committed
      (usesOf (b.insnAt h) cycles) (b.coreNow tm (coreOf h) + b.waitOf tm h cycles) pc regs := by
  simp [Body.coreCommit, hh.not_gt, Body.chargeCycles_biv b hh, Hart.committed]

theorem Body.hart_coreCommit_ne {k : Nat} (hk : k ≠ h) : (b.coreCommit tm h cycles pc regs).hart k = b.hart k := by
  unfold Body.coreCommit
  dsimp only
  split
  · rw [Body.hart_setCore, Body.hart_modHart_ne _ hk, Body.hart_chargeCycles_ne b hk]
  · rw [Body.hart_modHart_ne _ hk, Body.hart_chargeCycles_ne b hk]

theorem Body.core_coreCommit_self (hh : h < 1024) :
    (b.coreCommit tm h cycles pc regs).core (coreOf h) = { b.core (coreOf h) with
      lastCommit := tm.cycle, spent := (b.core (coreOf h)).spent + (b.waitOf tm h cycles + cycles) } := by
  simp [Body.coreCommit, hh, Body.core_chargeCycles_self b hh]

theorem Body.core_coreCommit_ne {c : Nat} (hc : c ≠ coreOf h) :
    (b.coreCommit tm h cycles pc regs).core c = b.core c := by
  unfold Body.coreCommit
  dsimp only
  split
  · rw [Body.core_setCore_ne _ hc, Body.core_modHart, Body.core_chargeCycles_ne b hc]
  · rw [Body.core_modHart, Body.core_chargeCycles_ne b hc]

theorem Body.core_coreCommit_biv (hh : 1024 ≤ h) (c : Nat) :
    (b.coreCommit tm h cycles pc regs).core c = b.core c := by
  simp [Body.coreCommit, hh.not_gt, Body.chargeCycles_biv b hh]

theorem Body.fget_coreCommit {c i : Nat} {f : Fld} (hi : i < 2 ^ 24) (hf : f.lo < 2 ^ 16)
    (hne : c ≠ clsHeadgate ∨ (i ≠ 0x10000 + h ∧ i ≠ 0x20000 + coreOf h) ∨ f.lo ≠ FLoad.issueNow.lo) :
    (b.coreCommit tm h cycles pc regs).fget c i f = b.fget c i f := by
  unfold Body.coreCommit
  dsimp only
  split <;> exact Body.fget_chargeCycles b _ hi hf hne

theorem Body.fget_coreCommit_biv (hh : 1024 ≤ h) (c i : Nat) (f : Fld) :
    (b.coreCommit tm h cycles pc regs).fget c i f = b.fget c i f := by
  simp [Body.coreCommit, hh.not_gt, Body.chargeCycles_biv b hh]

theorem Body.coreCommit_sameParts : SameParts b (b.coreCommit tm h cycles pc regs) := by
  obtain ⟨hmem, hsys, hwork, hsync, hnet, hdrm, htab, hbas, hhost, hadm, hout, hlat, hrep⟩ :=
    b.chargeCycles_sameParts h (b.waitOf tm h cycles + cycles)
  unfold Body.coreCommit
  dsimp only
  split <;> exact ⟨hmem, hsys, hwork, hsync, hnet, hdrm, htab, hbas, hhost, hadm, hout, hlat, hrep⟩

/-- A Bivouac core waits for no result. -/
theorem Body.waitOf_biv (hh : 1024 ≤ h) : b.waitOf tm h cycles = 0 := by
  simp [Body.waitOf, hh]

end

/-! A register result. -/

/-- The hart that issues, with the result in its register and its new flags. -/
def Hart.withResult (x : Hart) (rd : BitVec 5) (r : Word) (fl : Flags) : Hart :=
  { ({ x with block := .none } : Hart).setReg rd r with flags := fl }

/-- A result changes registers, flags and the block of a hart. -/
theorem Hart.withResult_frame (x : Hart) (rd : BitVec 5) (r : Word) (fl : Flags) :
    x.withResult rd r fl = { x with regs := (x.withResult rd r fl).regs, flags := fl, block := .none } := by
  unfold Hart.withResult Hart.setReg
  split <;> rfl

theorem Hart.reg_withResult (x : Hart) (rd q : BitVec 5) (r : Word) (fl : Flags) :
    (x.withResult rd r fl).reg q = if q = rd ∧ q ≠ 0 then r else x.reg q := by
  refine (Hart.reg_setReg _ rd q r).trans ?_
  by_cases hq : q = rd
  · subst hq; rfl
  · simp only [hq, false_and, if_false]; rfl

/-- The body at the core commit of an instruction with a register result. -/
def State.resultBody (s : State) (h : Nat) (rd : BitVec 5) (r : Word) (fl : Flags) : Body :=
  (s.issued h).modHart h (fun x => { x.setReg rd r with flags := fl })

section
variable (s : State) (h : Nat) (rd : BitVec 5) (r : Word) (fl : Flags) (cycles : Nat)

theorem State.result_body : (s.result h rd r fl cycles).b =
    (s.resultBody h rd r fl).coreCommit s.tm h cycles (s.after h) (s.b.hart h).regs := rfl

theorem State.resultBody_hart_self : (s.resultBody h rd r fl).hart h = (s.b.hart h).withResult rd r fl := by
  simp [State.resultBody, Hart.withResult]

theorem State.resultBody_hart_ne {k : Nat} (hk : k ≠ h) : (s.resultBody h rd r fl).hart k = s.b.hart k :=
  (Body.hart_modHart_ne _ hk _).trans (Body.hart_modHart_ne _ hk _)

theorem State.resultBody_core (c : Nat) : (s.resultBody h rd r fl).core c = s.b.core c := rfl

theorem State.resultBody_insnAt : (s.resultBody h rd r fl).insnAt h = s.b.insnAt h := by
  have hmem : (s.resultBody h rd r fl).mem = s.b.mem := rfl
  unfold Body.insnAt
  rw [hmem, State.resultBody_hart_self, Hart.withResult_frame]

theorem State.resultBody_coreNow (c : Nat) : (s.resultBody h rd r fl).coreNow s.tm c = s.b.coreNow s.tm c := rfl

theorem State.resultBody_pendingFor (u : Uses) :
    (s.resultBody h rd r fl).pendingFor s.tm h u = s.b.pendingFor s.tm h u := by
  unfold Body.pendingFor
  rw [State.resultBody_hart_self, Hart.withResult_frame]
  rfl

theorem State.resultBody_waitOf : (s.resultBody h rd r fl).waitOf s.tm h cycles = s.b.waitOf s.tm h cycles := by
  unfold Body.waitOf
  dsimp only
  rw [State.resultBody_insnAt, State.resultBody_pendingFor]
  rfl

/-- The hart after a register result: it has the result, its cycles are charged, and it has reached core commit. -/
theorem State.result_hart_thread (hh : h < 1024) :
    (s.result h rd r fl cycles).b.hart h =
      (((s.b.hart h).withResult rd r fl).charged (s.b.waitOf s.tm h cycles + cycles)).committed
        (usesOf (s.b.insnAt h) cycles) (s.b.coreNow s.tm (coreOf h) + s.b.waitOf s.tm h cycles) (s.after h)
        (s.b.hart h).regs := by
  rw [State.result_body, Body.hart_coreCommit_thread _ _ _ _ _ hh, State.resultBody_hart_self, State.resultBody_waitOf,
    State.resultBody_insnAt, State.resultBody_coreNow]

theorem State.result_hart_biv (hh : 1024 ≤ h) :
    (s.result h rd r fl cycles).b.hart h = ((s.b.hart h).withResult rd r fl).committed
      (usesOf (s.b.insnAt h) cycles) (s.b.coreNow s.tm (coreOf h) + s.b.waitOf s.tm h cycles) (s.after h)
      (s.b.hart h).regs := by
  rw [State.result_body, Body.hart_coreCommit_biv _ _ _ _ _ hh, State.resultBody_hart_self, State.resultBody_waitOf,
    State.resultBody_insnAt, State.resultBody_coreNow]

/-- The hart after a register result, but for its item and its grace. -/
theorem State.result_hart : ∃ it g, (s.result h rd r fl cycles).b.hart h =
    ({ ((s.b.hart h).withResult rd r fl) with item := it, graceUsed := g } : Hart).committed
      (usesOf (s.b.insnAt h) cycles) (s.b.coreNow s.tm (coreOf h) + s.b.waitOf s.tm h cycles) (s.after h)
      (s.b.hart h).regs := by
  by_cases hh : h < 1024
  · exact ⟨_, _, s.result_hart_thread h rd r fl cycles hh⟩
  · exact ⟨_, _, s.result_hart_biv h rd r fl cycles (by omega)⟩

theorem State.result_hart_ne {k : Nat} (hk : k ≠ h) : (s.result h rd r fl cycles).b.hart k = s.b.hart k := by
  rw [State.result_body, Body.hart_coreCommit_ne _ _ _ _ _ hk, State.resultBody_hart_ne _ _ _ _ _ hk]

theorem State.result_core_ne {k : Nat} (hk : k ≠ coreOf h) : (s.result h rd r fl cycles).b.core k = s.b.core k := by
  rw [State.result_body, Body.core_coreCommit_ne _ _ _ _ _ hk, State.resultBody_core]

theorem State.result_core_thread (hh : h < 1024) :
    (s.result h rd r fl cycles).b.core (coreOf h) = { s.b.core (coreOf h) with
      lastCommit := s.tm.cycle, spent := (s.b.core (coreOf h)).spent + (s.b.waitOf s.tm h cycles + cycles) } := by
  rw [State.result_body, Body.core_coreCommit_self _ _ _ _ _ hh, State.resultBody_core, State.resultBody_waitOf]

theorem State.result_core_biv (hh : 1024 ≤ h) (k : Nat) : (s.result h rd r fl cycles).b.core k = s.b.core k := by
  rw [State.result_body, Body.core_coreCommit_biv _ _ _ _ _ hh, State.resultBody_core]

/-- Of the core of a hart a register result changes the commit and the cycles spent. -/
theorem State.result_core :
    ({ (s.result h rd r fl cycles).b.core (coreOf h) with
      lastCommit := (s.b.core (coreOf h)).lastCommit, spent := (s.b.core (coreOf h)).spent } : CoreSt) = s.b.core (coreOf h) := by
  by_cases hh : h < 1024
  · rw [s.result_core_thread h rd r fl cycles hh]
  · rw [s.result_core_biv h rd r fl cycles (by omega)]

theorem State.result_fget {c i : Nat} {f : Fld} (hi : i < 2 ^ 24) (hf : f.lo < 2 ^ 16)
    (hne : c ≠ clsHeadgate ∨ (i ≠ 0x10000 + h ∧ i ≠ 0x20000 + coreOf h) ∨ f.lo ≠ FLoad.issueNow.lo) :
    (s.result h rd r fl cycles).b.fget c i f = s.b.fget c i f :=
  Body.fget_coreCommit _ _ _ _ _ hi hf hne

theorem State.result_sameParts : SameParts s.b (s.result h rd r fl cycles).b := by
  obtain ⟨hmem, hsys, hwork, hsync, hnet, hdrm, htab, hbas, hhost, hadm, hout, hlat, hrep⟩ :=
    (s.resultBody h rd r fl).coreCommit_sameParts s.tm (h := h) cycles (s.after h) (s.b.hart h).regs
  exact ⟨hmem, hsys, hwork, hsync, hnet, hdrm, htab, hbas, hhost, hadm, hout, hlat, hrep⟩

end

end Sys2Proof.Machine

namespace Sys2Proof
open Machine

/-- Settles O45. -/
theorem registerResultFrame : Obligations.RegisterResultFrame := by
  unfold Obligations.RegisterResultFrame
  intro s h rd r fl cycles
  obtain ⟨hmem, hsys, hwork, hsync, hnet, hdrm, htab, hbas, hhost, hadm, hout, hlat, hrep⟩ :=
    s.result_sameParts h rd r fl cycles
  obtain ⟨it, g, hhart⟩ := s.result_hart h rd r fl cycles
  refine ⟨rfl, rfl, fun q => ?_, ?_, ?_, ?_, fun hh => ?_, fun hh => ?_, ?_, fun k hk => s.result_hart_ne h rd r fl cycles hk,
    fun k hk => s.result_core_ne h rd r fl cycles hk, s.result_core h rd r fl cycles, hmem, hsys, hwork, hsync, hnet, hdrm,
    htab, hbas, hhost, hadm, hout, hlat, hrep, fun c i f hi hf hne => s.result_fget h rd r fl cycles hi hf hne⟩
  · unfold Body.reg
    rw [hhart]
    exact Hart.reg_withResult (s.b.hart h) rd q r fl
  · rw [hhart]
    rfl
  · rw [hhart]
    exact Nat.mod_mod _ _
  · rw [hhart, Hart.withResult_frame]
    rfl
  · refine ⟨?_, congrArg CoreSt.spent (s.result_core_thread h rd r fl cycles hh)⟩
    rw [s.result_hart_thread h rd r fl cycles hh, Hart.withResult_frame]
    rfl
  · refine ⟨Body.waitOf_biv s.b s.tm cycles hh, ?_, ?_, s.result_core_biv h rd r fl cycles hh,
      fun c i f _ _ => Body.fget_coreCommit_biv _ _ _ _ _ hh c i f⟩ <;>
      rw [s.result_hart_biv h rd r fl cycles hh, Hart.withResult_frame] <;> rfl
  · rw [hhart, Hart.withResult_frame]
    rfl

end Sys2Proof
end

section
/-! Commands of the time base that meet no answer (R433). MGMT_TIMEOUT leaves the next management access without an answer;
where that access is a write of TICK[0], it ends with BUSY and is withdrawn. -/

namespace Sys2Proof.Machine

/-- The status of the reply after a command. -/
def replyStatus : Host.Outcome State Fault Refusal → Option Nat
  | .next t => some t.b.reply.status
  | _ => none

/-- A write of the Bivouac that meets no answer ends with BUSY, whatever it writes. -/
theorem replyStatus_fieldCommand_unanswered {s : State} (hon : s.b.sys.base ≠ .cold) (hlate : s.b.adm.unanswered = true)
    (hawake : s.b.asleep = false)
    (cls inst : Nat) (f : Fld) (v : Nat) :
    replyStatus (fieldCommand .biv cls inst f v s) = some stBusy := by
  simp [fieldCommand, onDev, Dev.accessOf, Dev.accessIn, hon, hawake, Dev.fieldWrite, Dev.objWrite_unanswered, hlate,
    Dev.answerWrite, replyStatus]

end Sys2Proof.Machine

namespace Sys2Proof
open Machine

/-- Refutes O7: it has a SLEW that stays in range answer OK in every state of a device that is not in Cold. After reset and
MGMT_TIMEOUT (`exec_mgmtTimeout_reset`), the Bivouac's SLEW of 0 ends with BUSY (R433). -/
theorem not_timeCommandsComplete : ¬ Obligations.TimeCommandsComplete := by
  unfold Obligations.TimeCommandsComplete
  rintro ⟨-, hwrites⟩
  obtain ⟨-, hslew, -⟩ := hwrites lateAccess (by decide)
  have hok := congrArg replyStatus ((hslew 0).1 (by decide) (by decide))
  have hbusy : replyStatus (exec (.slew .biv 0) lateAccess) = some stBusy :=
    replyStatus_fieldCommand_unanswered (by decide) rfl (by decide) clsTick 0 FTick.slew 0
  have hawake : lateAccess.b.asleep = false := by decide
  rw [hbusy] at hok
  simp only [replyStatus, hawake, Bool.false_eq_true, if_false, Body.settle_reply, Option.some.injEq] at hok
  exact absurd hok (by decide)

end Sys2Proof
end

section
/-! Reads of 64-bit fields of TICK (R32). -/

namespace Sys2Proof.Machine

/-- A word of TICK that holds one field shows what the read of that field returns. -/
theorem readWord_tick {d : Dev} {inst off : Nat} {f : Fld} (h : fieldsOfWord clsTick inst off = [f]) :
    d.readWord clsTick inst off =
      (f.inWord off (d.readField clsTick inst off f).1, (d.readField clsTick inst off f).2) := by
  have hport : decide (clsTick = clsPort) = false := by decide
  simp [Dev.readWord, h, hport]

section
variable (d : Dev) (inst : Nat) {f : Fld} (hw : f.width = 64) (ha : f.acc ≠ .wo)
include hw ha

/-- The read of the low word returns the value and latches it. -/
theorem readField_low : (d.readField clsTick inst f.word f).1 = d.view clsTick inst f ∧
    mapFind (fieldKey clsTick inst f.lo) (d.readField clsTick inst f.word f).2.b.latches =
      some (d.view clsTick inst f) := by
  have htrain : d.b.mayTrain clsTick inst f = false := by simp [Body.mayTrain, clsTick, clsPort]
  simp [Dev.readField, hw, ha, htrain, mapFind_mapPut_self]

/-- The read of another word returns the latched value, or the field's own where none is latched. -/
theorem readField_high {off : Nat} (hoff : off ≠ f.word) : (d.readField clsTick inst off f).1 =
    (mapFind (fieldKey clsTick inst f.lo) d.b.latches).getD (d.view clsTick inst f) := by
  have htrain : d.b.mayTrain clsTick inst f = false := by simp [Body.mayTrain, clsTick, clsPort]
  simp [Dev.readField, hw, ha, htrain, hoff]

end

/-- The two words of a 64-bit field. -/
theorem inWord_low {f : Fld} (hw : f.width = 64) (hlo : f.lo % 32 = 0) (v : Nat) : f.inWord f.word v = v % 2 ^ 32 := by
  have hoff : 32 * f.word = f.lo := by unfold Fld.word; omega
  unfold Fld.inWord
  rw [if_pos hoff.le, hw, hoff, Nat.sub_self]
  omega

theorem inWord_high {f : Fld} (hw : f.width = 64) (hlo : f.lo % 32 = 0) (v : Nat) :
    f.inWord (f.word + 1) v = v / 2 ^ 32 % 2 ^ 32 := by
  have hoff : 32 * (f.word + 1) = f.lo + 32 := by unfold Fld.word; omega
  unfold Fld.inWord
  rw [if_neg (by omega), hw, hoff, Nat.add_sub_cancel_left]
  omega

end Sys2Proof.Machine

namespace Sys2Proof
open Machine

/-- Settles O15. -/
theorem sixtyFourBitReads : Obligations.SixtyFourBitReads := by
  unfold Obligations.SixtyFourBitReads
  intro d e inst f hw hlo ha hlow hhigh
  obtain ⟨hval, hlatch⟩ := readField_low d inst hw ha
  have hread := readField_high e inst hw ha (Nat.succ_ne_self f.word)
  dsimp only
  rw [readWord_tick hlow, readWord_tick hhigh, inWord_low hw hlo, inWord_high hw hlo, hval, hread]
  refine ⟨rfl, fun hsame => ?_, fun hnone => ?_⟩
  · rw [hsame, hlatch]
    rfl
  · rw [hnone]
    rfl

end Sys2Proof
end

section
/-! Resets of the device, of one side of a crossing and of the host's part (R43, R348, R385, R433 to R437, R464, R469): what
each command does where its event can occur. -/

namespace Sys2Proof.Machine

/-! Cold and Boot. -/

/-- The body at the entry to Boot from Cold: reset, but for what outlasts one (R436, R464). -/
def Body.powerUp (b : Body) : Body := { b with sys.resetLow := false, sys.supplyLost := false }.keep Body.reset

theorem execSuppliesReturn_boot {s : State} (hcold : s.b.sys.base = .cold) (hlow : s.b.sys.resetLow = false) :
    execSuppliesReturn s = .next { s with tm := Time.reset, b := s.b.powerUp } := by
  simp [execSuppliesReturn, onDev, Dev.leaveCold, hcold, hlow, Body.powerUp, Body.keep]

theorem execSuppliesReturn_held {s : State} (hlow : s.b.sys.resetLow = true) :
    execSuppliesReturn s = .next { s with b.sys.supplyLost := false } := by
  simp [execSuppliesReturn, onDev, Dev.leaveCold, hlow]

theorem execResetNRelease_boot {s : State} (hcold : s.b.sys.base = .cold) (hlost : s.b.sys.supplyLost = false) :
    execResetNRelease s = .next { s with tm := Time.reset, b := s.b.powerUp } := by
  simp [execResetNRelease, onDev, Dev.leaveCold, hcold, hlost, Body.powerUp, Body.keep]

theorem execResetNRelease_held {s : State} (hlost : s.b.sys.supplyLost = true) :
    execResetNRelease s = .next { s with b.sys.resetLow := false } := by
  simp [execResetNRelease, onDev, Dev.leaveCold, hlost]

/-! The DEVICE reset. -/

/-- The body whose drain is over, with the frames lost recorded (R348, R435). -/
def Body.lostRecorded (b : Body) : Body :=
  if b.anyFrozen then b.fset clsDram 0 FDram.freezeLost b.unreleased else b.fset clsClock 0 FClock.resetLost b.unreleased

theorem execDeviceResetStart_eq {s : State} {n : Nat} (hn : s.b.adm.draining = some n)
    (hover : s.b.unreleased = 0 ∨ s.b.fget clsDram 0 FDram.drainTicks ≤ n) :
    execDeviceResetStart s = .next { s with tm := Time.reset, b := s.b.lostRecorded.toBoot } := by
  have hdone : s.b.unreleased = 0 ∨ (s.b.anyFrozen ∧ s.b.allHeld) ∨ s.b.fget clsDram 0 FDram.drainTicks ≤ n :=
    hover.imp_right .inr
  simp only [execDeviceResetStart, onDev, hn]
  rw [if_pos hdone]
  rfl

theorem Body.lostRecorded_sys (b : Body) : b.lostRecorded.sys = b.sys := by
  unfold Body.lostRecorded
  split <;> rfl

/-- What a DEVICE reset keeps of the modes and pins (R436, R469). -/
theorem Body.toBoot_sys (b : Body) : b.toBoot.sys = { Sys.reset with
    pfailLow := b.sys.pfailLow, resetLow := b.sys.resetLow, supplyLost := b.sys.supplyLost
    thermTrip := b.sys.thermTrip } := rfl

theorem fget_toBoot_resetCause (b : Body) : b.toBoot.fget clsClock 0 FClock.resetCause = 1 := Body.fget_fset_self ..

theorem fget_toBoot_resetLost (b : Body) :
    b.toBoot.fget clsClock 0 FClock.resetLost = b.fget clsClock 0 FClock.resetLost % 2 ^ FClock.resetLost.width :=
  (Body.fget_fset_ne _ (by decide) _).trans (Body.fget_fset_self ..)

theorem fget_toBoot_freezeLost (b : Body) :
    b.toBoot.fget clsDram 0 FDram.freezeLost = b.fget clsDram 0 FDram.freezeLost % 2 ^ FDram.freezeLost.width :=
  (Body.fget_fset_ne _ (by decide) _).trans ((Body.fget_fset_ne _ (by decide) _).trans (Body.fget_fset_self ..))

/-- With a channel frozen FREEZE_LOST shows the frames lost (R348), and otherwise RESET_LOST (R435). -/
theorem fget_lost_frozen {b : Body} (h : b.anyFrozen = true) :
    b.lostRecorded.toBoot.fget clsDram 0 FDram.freezeLost = b.unreleased % 2 ^ FDram.freezeLost.width := by
  rw [fget_toBoot_freezeLost, Body.lostRecorded, if_pos h, Body.fget_fset_self, Nat.mod_mod]

theorem fget_lost_open {b : Body} (h : b.anyFrozen = false) :
    b.lostRecorded.toBoot.fget clsClock 0 FClock.resetLost = b.unreleased % 2 ^ FClock.resetLost.width := by
  rw [fget_toBoot_resetLost, Body.lostRecorded, h, if_neg Bool.false_ne_true, Body.fget_fset_self, Nat.mod_mod]

/-! Pins, scopes and crossings. -/

theorem execThermTrip_eq {s : State} {k : Nat} (hk : k < 24) (hon : s.b.sys.base ≠ .cold)
    (hhot : 160 * 16 ≤ signedOf 16 (s.b.fget clsSensor (0x20 + k) FTemp.temp)) :
    execThermTrip k s = .next { s with b.sys.thermTrip := true } := by
  have htrip : s.b.tooHot k = true := decide_eq_true hhot
  simp [execThermTrip, onBody, hk, hon, htrip]

theorem execScopeResetStart_eq {s : State} {k : BitVec 8} (hk : k.toNat ∈ s.b.adm.scopes) :
    execScopeResetStart k s = .next { s with
      b := (({ s.b with adm.scopes := s.b.adm.scopes.erase k.toNat }.scopeReset s.tm k.toNat).settle s.tm) } := by
  simp [execScopeResetStart, onBuf, onBody, hk]

theorem execCrossingResync_eq {s : State} {x : Nat} (hx : x < 0x25)
    (hreset : s.b.fget clsClock (0x100 + x) FCross.ready = 0) :
    execCrossingResync x s = .next { s with
      b := (((s.b.fset clsClock (0x100 + x) FCross.ready 1).bump clsClock (0x100 + x) FCross.resyncs 1).crossNow
        x).settle s.tm } := by
  have hready : s.b.crossReady x = false := by simp [Body.crossReady, hreset]
  simp [execCrossingResync, onBuf, onBody, hx, hready]

theorem crossNow_pcieOut {b : Body} (h : b.hostOut = true) :
    b.crossNow 0x23 = { b with outputs := b.outputs ++ b.host.held, host.held := [] } := by
  simp [Body.crossNow, Body.sendHeld, h]

theorem execPcieReset_eq {s : State} (hon : s.b.sys.base ≠ .cold) :
    execPcieReset s = .next { s with b := s.b.hostResetAll.settle s.tm } := by
  simp [execPcieReset, onBuf, onBody, hon]

theorem execMgmtTimeout_eq {s : State} (hon : s.b.sys.base ≠ .cold) :
    execMgmtTimeout s = .next { s with
      b := { (s.b.answer stBusy).bump clsClock 0 FClock.mgmtTimeouts 1 with adm.unanswered := true } } := by
  simp [execMgmtTimeout, onBody, hon]

end Sys2Proof.Machine

namespace Sys2Proof
open Machine

/-- Settles O19. -/
theorem resetCommands : Obligations.ResetCommands := by
  unfold Obligations.ResetCommands
  refine ⟨fun s => ⟨_, rfl, rfl, rfl, rfl, rfl, rfl, rfl, rfl, rfl⟩,
    fun s hcold => ⟨s.b.powerUp, execSuppliesReturn_boot hcold, execSuppliesReturn_held, execResetNRelease_boot hcold,
      execResetNRelease_held, rfl, rfl, rfl, rfl⟩,
    fun s n hn hover => ⟨s.b.lostRecorded.toBoot, execDeviceResetStart_eq hn hover, ?_, fget_toBoot_resetCause _,
      fget_lost_frozen, fget_lost_open, rfl, rfl, rfl⟩,
    fun s k => execThermTrip_eq, fun s k => execScopeResetStart_eq, fun s x => execCrossingResync_eq,
    fun b => ⟨rfl, crossNow_pcieOut⟩, fun s hon => ⟨execPcieReset_eq hon, execMgmtTimeout_eq hon⟩⟩
  rw [Body.toBoot_sys, Body.lostRecorded_sys]

end Sys2Proof
end

section
/-! Caps, graces, watchdogs and memory errors of threads and cores (R51, R164, R170, R250, R321): what each command does
where its event can occur. -/

namespace Sys2Proof.Machine

theorem Item.isFrame_of_src {it : Item} (h : it.src ≠ .event) : it.isFrame = true := by
  simpa [Item.isFrame] using h

/-- A cap that is reached in a handler double-traps (R163). -/
theorem execCycleCapReached_inTrap {s : State} {h : Nat} {it : Item} (hit : (s.b.hart h).item = some it)
    (hsrc : it.src ≠ .event) (hover : it.overrun = false) (hcap : it.cap ≤ it.cycles) (hbench : s.b.inBench = false)
    (hrun : (s.b.hart h).phase = .running) (htrap : (s.b.hart h).inTrap = true) :
    execCycleCapReached h s = .next { s with
      b := (s.b.modHart h (fun x => { x with item := some { it with cycles := it.cap } })).doubleTrap s.tm h } := by
  simp [execCycleCapReached, onBody, hit, Item.isFrame_of_src hsrc, hover, hcap, hbench, hrun, htrap]

/-- A cap that is reached outside a handler traps the overrun and asks for the item's diversion (R51). -/
theorem execCycleCapReached_eq {s : State} {h : Nat} {it : Item} (hit : (s.b.hart h).item = some it)
    (hsrc : it.src ≠ .event) (hover : it.overrun = false) (hcap : it.cap ≤ it.cycles) (hbench : s.b.inBench = false)
    (hrun : (s.b.hart h).phase = .running) (htrap : (s.b.hart h).inTrap = false) :
    execCycleCapReached h s = .next { s with
      b := (((((s.b.askDivert s.tm h { it with cycles := it.cap } .cap).modHart h (fun x => { x.stopHeld s.tm.cycle with
        staging := [], graceUsed := 0, item := some { it with log := [], staged := [], overrun := true } })).trapThread s.tm h
          0x05 (s.b.insnAt h) 0).bump clsTick (classInst it.tent it.desc.cls) FClass.diversions 1).bump
        clsTick 0 FTick.diversions 1) } := by
  simp [execCycleCapReached, onBody, hit, Item.isFrame_of_src hsrc, hover, hcap, hbench, hrun, htrap]

theorem execDivertGraceExpiry_eq {s : State} {h : Nat} {it : Item} (hit : (s.b.hart h).item = some it)
    (hover : it.overrun = true)
    (hgrace : s.b.fget clsTick (classInst it.tent it.desc.cls) FClass.divertGrace ≤ (s.b.hart h).graceUsed) :
    execDivertGraceExpiry h s = .next { s with b := s.b.resetThread s.tm h } := by
  simp [execDivertGraceExpiry, onBody, hit, hover, hgrace]

theorem execCoreWatchdog_eq {s : State} {c i : Nat} (hc : c < 128) (hi : i < 8) (hable : s.b.able (8 * c + i) = true)
    (hlive : s.b.fget clsCore c FCore.state = 0) :
    let d := (Dev.mk s.tm s.b).waitCycle ((s.b.core c).lastCommit + s.b.fget clsCore c FCore.watchdog)
    execCoreWatchdog c s = .next { s with tm := d.tm, b := d.b.retireOne d.tm c 3 } := by
  have hany : (List.range 8).any (fun i => s.b.able (8 * c + i)) = true :=
    List.any_eq_true.2 ⟨i, List.mem_range.2 hi, hable⟩
  simp only [execCoreWatchdog, onDev]
  rw [if_pos ⟨hc, hany, hlive⟩]

/-- An error of a core's memories retires the core; the offset of a counted one is free (assumption log 39). -/
theorem execCoreMemoryError_eq {s : State} {c : Nat} (hc : c < 128) (hlive : s.b.fget clsCore c FCore.state = 0)
    (runnel : Bool) : execCoreMemoryError c runnel s = .next { s with
      b := (if runnel then s.b.fresh.2
        else (s.b.fresh.2.bump clsMemregion (0x100 + c) FMem.uncorrectable 1).fset clsMemregion (0x100 + c) FMem.lastErrAddr
          (s.b.fresh.1 % 0x30000 / 8 * 8)).retireOne s.tm c (if runnel then 2 else 1) } := by
  simp only [execCoreMemoryError, onBody]
  rw [if_neg (by omega)]

theorem execWaitCycleDeclare_eq {s : State} {c : Nat} {g : Option (Nat × Nat)} {w : WaitSet}
    (hw : s.b.adm.waits.find? (fun w => decide (w.cluster = c ∧ w.group = g ∧ 3 ≤ w.held) && !w.disarmed) = some w) :
    execWaitCycleDeclare c g s = .next { s with b := s.b.declareWait s.tm.tickNumber w } := by
  simp only [execWaitCycleDeclare, onBody, hw]

end Sys2Proof.Machine

namespace Sys2Proof
open Machine

/-- Settles O35. -/
theorem threadEventsComplete : Obligations.ThreadEventsComplete := by
  unfold Obligations.ThreadEventsComplete
  exact ⟨fun s h it hit hsrc hover hcap hbench hrun =>
      ⟨execCycleCapReached_inTrap hit hsrc hover hcap hbench hrun, execCycleCapReached_eq hit hsrc hover hcap hbench hrun⟩,
    fun s h it => execDivertGraceExpiry_eq, fun s c i => execCoreWatchdog_eq,
    fun s c hc hlive => ⟨execCoreMemoryError_eq hc hlive true, execCoreMemoryError_eq hc hlive false⟩,
    fun s c => rfl, fun s c g w => execWaitCycleDeclare_eq⟩

end Sys2Proof
end

section
/-! Link loss (R60, R82, R83): what becomes of the port's fields, of its interrupt source and of its class queues when a
port that is up goes down. -/

namespace Sys2Proof.Machine

/-- A write of a field leaves the other fields of its object. -/
theorem Body.fget_fset_place (b : Body) (c i : Nat) {f g : Fld} (h : f.lo ≠ g.lo) (v : Nat) :
    (b.fset c i g v).fget c i f = b.fget c i f :=
  Body.fget_fset_ne b (by unfold fieldKey; omega) v

theorem Body.fget_bump_place (b : Body) (c i : Nat) {f g : Fld} (h : f.lo ≠ g.lo) (k : Nat) :
    (b.bump c i g k).fget c i f = b.fget c i f := Body.fget_fset_place b c i h _

theorem handlePool_lt (h : Nat) : handlePool h < 8 := Nat.mod_lt _ (by decide)

@[simp] theorem Body.eg_setEg_self (b : Body) (p : Nat) (x : EgPort) : (b.setEg p x).eg p = x := mapGet_mapPut_self ..

@[simp] theorem Body.fget_setEg (b : Body) (p : Nat) (x : EgPort) (c i : Nat) (f : Fld) :
    (b.setEg p x).fget c i f = b.fget c i f := rfl

@[simp] theorem Body.fget_setEgQueue (b : Body) (p k : Nat) (l : List EgFrame) (c i : Nat) (f : Fld) :
    (b.setEgQueue p k l).fget c i f = b.fget c i f := rfl

@[simp] theorem Body.fget_emit (b : Body) (o : Output) (c i : Nat) (f : Fld) : (b.emit o).fget c i f = b.fget c i f := rfl

/-- The queue of a class after a class queue of its port is replaced. -/
theorem Body.egQueue_setEgQueue (b : Body) (p k c : Nat) (l : List EgFrame) :
    (b.setEgQueue p k l).egQueue p c = if c = k then l else b.egQueue p c := by
  simp only [Body.egQueue, Body.setEgQueue, Body.eg_setEg_self]
  exact mapGet_mapPut ..

/-- The egress state of a port is a part of `net`. -/
theorem Body.eg_congr {b c : Body} (h : c.net.egress = b.net.egress) (p : Nat) : c.eg p = b.eg p := by
  unfold Body.eg; rw [h]

/-- What a free can do: it changes the record of the buffer, or counts a refusal in its pool. -/
theorem Body.freeBuf_cases (b : Body) (h : Nat) (who : Owner) :
    (∃ l, (b.freeBuf h who).2 = { b with work.bufs := l }) ∨
      (b.freeBuf h who).2 = b.bump clsPool (handlePool h) FPool.doubleFree 1 ∨
      (b.freeBuf h who).2 = b.bump clsPool (handlePool h) FPool.notOwner 1 := by
  unfold Body.freeBuf
  dsimp only
  split
  · exact .inl ⟨_, rfl⟩
  · split
    · exact .inr (.inl (by split <;> rfl))
    · split
      · exact .inl (by dsimp only; split <;> exact ⟨_, rfl⟩)
      · split
        · exact .inl ⟨_, rfl⟩
        · exact .inr (.inr rfl)

@[simp] theorem Body.freeBuf_net (b : Body) (h : Nat) (who : Owner) : (b.freeBuf h who).2.net = b.net := by
  obtain ⟨l, e⟩ | e | e := b.freeBuf_cases h who <;> rw [e] <;> rfl

theorem Body.fget_freeBuf (b : Body) (h : Nat) (who : Owner) {c i : Nat} {f : Fld} (hc : c ≠ clsPool) (hi : i < 2 ^ 24)
    (hf : f.lo < 2 ^ 16) : (b.freeBuf h who).2.fget c i f = b.fget c i f := by
  have hpool := handlePool_lt h
  obtain ⟨l, e⟩ | e | e := b.freeBuf_cases h who <;> rw [e]
  · rfl
  · exact Body.fget_bump_ne b (fieldKey_ne hi (by omega) hf (by decide) (.inl hc)) 1
  · exact Body.fget_bump_ne b (fieldKey_ne hi (by omega) hf (by decide) (.inl hc)) 1

/-! A frame under reception. -/

theorem Body.eg_spoilRx (b : Body) (p q : Nat) : (b.spoilRx p).eg q = b.eg q := by
  refine Body.eg_congr ?_ q
  unfold Body.spoilRx
  split
  · dsimp only
    split
    · rw [Body.bump_net, Body.freeBuf_net]
    · rfl
  · rfl

/-- Of the port's fields the discard counts in RX_PCS_ERR only. -/
theorem Body.fget_spoilRx (b : Body) {p : Nat} {f : Fld} (hp : p < 2 ^ 24) (hf : f.lo < 2 ^ 16)
    (hne : f.lo ≠ FPort.rxPcsErr.lo) : (b.spoilRx p).fget clsPort p f = b.fget clsPort p f := by
  unfold Body.spoilRx
  split
  · dsimp only
    split
    · rw [Body.fget_bump_place _ _ _ hne, Body.fget_freeBuf _ _ _ (by decide) hp hf]
      rfl
    · rfl
  · rfl

/-! A frame in transmission. -/

/-- A class queue of a port, with the frame in transmission again the first of its class (R82). -/
def Body.queueAfterCut (b : Body) (p c : Nat) : List EgFrame :=
  match (b.eg p).sending with
  | some x => if c = x.cls then x.frame :: b.egQueue p c else b.egQueue p c
  | none => b.egQueue p c

theorem Body.egQueue_cutFrame (b : Body) (p c : Nat) : (b.cutFrame p).egQueue p c = b.queueAfterCut p c := by
  unfold Body.cutFrame Body.queueAfterCut
  cases (b.eg p).sending with
  | none => rfl
  | some x =>
    have hkept : ∀ k, (b.setEg p { b.eg p with sending := none }).egQueue p k = b.egQueue p k := fun k => by
      unfold Body.egQueue
      rw [Body.eg_setEg_self]
      rfl
    refine (Body.egQueue_setEgQueue _ p x.cls c _).trans ?_
    rw [hkept, hkept]
    by_cases hc : c = x.cls <;> simp [hc]

/-- Of the port's fields the cut counts in LINK_CUT only. -/
theorem Body.fget_cutFrame (b : Body) {p : Nat} {f : Fld} (hne : f.lo ≠ FPort.linkCut.lo) :
    (b.cutFrame p).fget clsPort p f = b.fget clsPort p f := by
  unfold Body.cutFrame
  split
  · simp only [Body.fget_emit, Body.fget_bump_place _ _ _ hne, Body.fget_setEgQueue, Body.fget_setEg]
  · rfl

/-! The level of the port's interrupt source. -/

theorem Body.fget_setLevel_level (b : Body) (s : Nat) (v : Bool) :
    (b.setLevel s v).fget clsIrq s FIrq.level = if v then 1 else 0 := by
  have hset : (b.fset clsIrq s FIrq.level (if v then 1 else 0)).fget clsIrq s FIrq.level = if v then 1 else 0 := by
    rw [Body.fget_fset_self]
    cases v <;> rfl
  unfold Body.setLevel
  dsimp only
  split
  · exact (Body.fget_fset_place _ _ _ (by decide) _).trans hset
  · exact hset

theorem Body.fget_setLevel_ne (b : Body) {s c i : Nat} {f : Fld} (v : Bool) (hs : s < 2 ^ 24) (hi : i < 2 ^ 24)
    (hf : f.lo < 2 ^ 16) (hc : c ≠ clsIrq) : (b.setLevel s v).fget c i f = b.fget c i f := by
  have hset := Body.fget_fset_ne b (fieldKey_ne (l' := FIrq.level.lo) hi hs hf (by decide) (.inl hc)) (if v then 1 else 0)
  unfold Body.setLevel
  dsimp only
  split
  · exact (Body.fget_fset_ne _ (fieldKey_ne hi hs hf (by decide) (.inl hc)) _).trans hset
  · exact hset

@[simp] theorem Body.setLevel_net (b : Body) (s : Nat) (v : Bool) : (b.setLevel s v).net = b.net := by
  unfold Body.setLevel
  dsimp only
  split <;> rfl

/-! The port. -/

/-- A present port after its OPER fields and LINK_DOWNS are written, before its frames are looked at. -/
def Body.linkShown (b : Body) (p : Nat) : Body :=
  (((b.fset clsPort p FPort.operState 1).fset clsPort p FPort.operFec 0).fset clsPort p FPort.operSpeed 0).bump clsPort p
    FPort.linkDowns 1

/-- The port with both its frames dealt with. -/
def Body.linkCleared (b : Body) (p : Nat) : Body :=
  let b2 := ((b.linkShown p).spoilRx p).cutFrame p
  b2.setEg p { b2.eg p with downSince := b2.work.tickSets, diverting := false, xoff := none }

theorem Body.linkDown_of_up {b : Body} {p : Nat} (hpresent : b.portPresent p = true)
    (hup : b.fget clsPort p FPort.operState = 3) : b.linkDown p = (b.linkCleared p).linkLevel p := by
  unfold Body.linkDown
  simp only [hpresent, hup, if_true]
  rfl

theorem Body.fget_linkCleared (b : Body) {p : Nat} {f : Fld} (hp : p ≤ 64) (hf : f.lo < 2 ^ 16)
    (hrx : f.lo ≠ FPort.rxPcsErr.lo) (htx : f.lo ≠ FPort.linkCut.lo) :
    (b.linkCleared p).fget clsPort p f = (b.linkShown p).fget clsPort p f := by
  unfold Body.linkCleared
  rw [Body.fget_setEg, Body.fget_cutFrame _ htx, Body.fget_spoilRx _ (by omega) hf hrx]

theorem Body.egQueue_linkCleared (b : Body) (p c : Nat) : (b.linkCleared p).egQueue p c = b.queueAfterCut p c := by
  have heg : ((b.linkShown p).spoilRx p).eg p = b.eg p := Body.eg_spoilRx ..
  have hqueue : (b.linkCleared p).egQueue p c = (((b.linkShown p).spoilRx p).cutFrame p).egQueue p c := by
    unfold Body.linkCleared Body.egQueue
    rw [Body.eg_setEg_self]
    rfl
  rw [hqueue, Body.egQueue_cutFrame]
  unfold Body.queueAfterCut Body.egQueue
  rw [heg]

theorem Body.fget_linkLevel (b : Body) {p : Nat} {f : Fld} (hp : p ≤ 64) (hf : f.lo < 2 ^ 16) :
    (b.linkLevel p).fget clsPort p f = b.fget clsPort p f :=
  Body.fget_setLevel_ne b _ (by omega) (by omega) hf (by decide)

/-- A port's fields after link loss, but for the counts of its frames. -/
theorem Body.fget_linkDown {b : Body} {p : Nat} {f : Fld} (hpresent : b.portPresent p = true)
    (hup : b.fget clsPort p FPort.operState = 3) (hp : p ≤ 64) (hf : f.lo < 2 ^ 16) (hrx : f.lo ≠ FPort.rxPcsErr.lo)
    (htx : f.lo ≠ FPort.linkCut.lo) : (b.linkDown p).fget clsPort p f = (b.linkShown p).fget clsPort p f := by
  rw [Body.linkDown_of_up hpresent hup, Body.fget_linkLevel _ hp hf, b.fget_linkCleared hp hf hrx htx]

theorem Body.fget_linkShown_operState (b : Body) (p : Nat) : (b.linkShown p).fget clsPort p FPort.operState = 1 := by
  unfold Body.linkShown
  rw [Body.fget_bump_place _ _ _ (by decide), Body.fget_fset_place _ _ _ (by decide),
    Body.fget_fset_place _ _ _ (by decide), Body.fget_fset_self]
  rfl

theorem Body.fget_linkShown_operSpeed (b : Body) (p : Nat) : (b.linkShown p).fget clsPort p FPort.operSpeed = 0 := by
  unfold Body.linkShown
  rw [Body.fget_bump_place _ _ _ (by decide), Body.fget_fset_self]
  rfl

/-- The three OPER fields are written apart from the port's other fields. -/
theorem Body.fget_fset_oper (b : Body) (p : Nat) {f : Fld} (h1 : f.lo ≠ FPort.operState.lo)
    (h2 : f.lo ≠ FPort.operFec.lo) (h3 : f.lo ≠ FPort.operSpeed.lo) :
    (((b.fset clsPort p FPort.operState 1).fset clsPort p FPort.operFec 0).fset clsPort p FPort.operSpeed 0).fget
      clsPort p f = b.fget clsPort p f := by
  rw [Body.fget_fset_place _ _ _ h3, Body.fget_fset_place _ _ _ h2, Body.fget_fset_place _ _ _ h1]

theorem Body.fget_linkShown_linkDowns (b : Body) (p : Nat) : (b.linkShown p).fget clsPort p FPort.linkDowns =
    addFree 32 (b.fget clsPort p FPort.linkDowns) 1 % 2 ^ 32 := by
  unfold Body.linkShown
  rw [Body.fget_bump_count, b.fget_fset_oper p (by decide) (by decide) (by decide)]
  rfl

theorem Body.fget_linkShown_adminUp (b : Body) (p : Nat) :
    (b.linkShown p).fget clsPort p FPort.adminUp = b.fget clsPort p FPort.adminUp := by
  unfold Body.linkShown
  rw [Body.fget_bump_place _ _ _ (by decide), b.fget_fset_oper p (by decide) (by decide) (by decide)]

/-- The source of a port that is down is asserted where ADMIN_UP = 1 (Table 14.2). -/
theorem Body.fget_linkDown_level {b : Body} {p : Nat} (hpresent : b.portPresent p = true)
    (hup : b.fget clsPort p FPort.operState = 3) (hp : p ≤ 64) : (b.linkDown p).fget clsIrq (128 + p) FIrq.level =
      if b.fget clsPort p FPort.adminUp = 1 then 1 else 0 := by
  have hadmin : (b.linkCleared p).fget clsPort p FPort.adminUp = b.fget clsPort p FPort.adminUp :=
    (b.fget_linkCleared hp (by decide) (by decide) (by decide)).trans (b.fget_linkShown_adminUp p)
  have hstate : (b.linkCleared p).fget clsPort p FPort.operState = 1 :=
    (b.fget_linkCleared hp (by decide) (by decide) (by decide)).trans (b.fget_linkShown_operState p)
  rw [Body.linkDown_of_up hpresent hup, Body.linkLevel, Body.fget_setLevel_level, hadmin, hstate]
  simp

theorem Body.egQueue_linkDown {b : Body} {p : Nat} (hpresent : b.portPresent p = true)
    (hup : b.fget clsPort p FPort.operState = 3) (c : Nat) : (b.linkDown p).egQueue p c = b.queueAfterCut p c := by
  have heg : (b.linkDown p).eg p = (b.linkCleared p).eg p := by
    rw [Body.linkDown_of_up hpresent hup]
    exact Body.eg_congr (congrArg Net.egress (Body.setLevel_net ..)) p
  rw [← b.egQueue_linkCleared p c]
  unfold Body.egQueue
  rw [heg]

end Sys2Proof.Machine

namespace Sys2Proof
open Machine

/-- Settles O29. -/
theorem linkLossEffects : Obligations.LinkLossEffects := by
  unfold Obligations.LinkLossEffects
  intro b p hp hpresent hup
  refine ⟨?_, ?_, ?_, Body.fget_linkDown_level hpresent hup hp, Body.egQueue_linkDown hpresent hup⟩
  · rw [Body.fget_linkDown hpresent hup hp (by decide) (by decide) (by decide), Body.fget_linkShown_operState]
  · rw [Body.fget_linkDown hpresent hup hp (by decide) (by decide) (by decide), Body.fget_linkShown_operSpeed]
  · rw [Body.fget_linkDown hpresent hup hp (by decide) (by decide) (by decide), Body.fget_linkShown_linkDowns]

end Sys2Proof
end

section
/-! Port commands (R60, R64 to R66, R73, R402 to R404): what each does where its event can occur. -/

namespace Sys2Proof.Machine

/-- Links come up but for a service port under SGMII whose control word names no speed. -/
theorem execPortLinkUp_eq {s : State} {p : Nat} {fec : BitVec 2} {speed : BitVec 3} (hp : p ≤ 64)
    (hpresent : s.b.portPresent p = true) (hadmin : s.b.fget clsPort p FPort.adminUp = 1)
    (hmode : s.b.modeAllowsPort p = true) (hdown : s.b.portUp p = false) (hready : s.b.linkReady p = true)
    (hspeed : p = 64 → s.b.fget clsPort p FPort.mode = 4 → 1 ≤ speed.toNat ∧ speed.toNat ≤ 3) :
    let code := if p = 64 then (if s.b.fget clsPort p FPort.mode = 4 then speed.toNat else 3)
      else speedCode (modeSpeed (s.b.fget clsPort p FPort.mode) p)
    let b1 := (((s.b.fset clsPort p FPort.operState 3).fset clsPort p FPort.operFec (s.b.operFec p fec)).fset clsPort p
      FPort.operSpeed code)
    let b2 := (b1.setEg p { s.b.eg p with diverting := false }).linkLevel p
    execPortLinkUp p fec speed s = .next { s with b := (if p = 64 then b2.fire 2 else b2).settle s.tm } := by
  have hok : (!(p == 64 && s.b.fget clsPort p FPort.mode == 4) ||
      (decide (1 ≤ speed.toNat) && decide (speed.toNat ≤ 3))) = true := by
    by_cases hsgmii : p = 64 ∧ s.b.fget clsPort p FPort.mode = 4
    · simp [hspeed hsgmii.1 hsgmii.2]
    · simp [not_and_or.1 hsgmii]
  have hcode : ∀ k, (if p = 64 then (if (p == 64 && s.b.fget clsPort p FPort.mode == 4) = true then speed.toNat else 3)
      else k) = if p = 64 then (if s.b.fget clsPort p FPort.mode = 4 then speed.toNat else 3) else k := fun k => by
    by_cases h64 : p = 64 <;> simp [h64]
  simp only [execPortLinkUp, onBuf, onBody]
  rw [if_pos ⟨hp, hpresent, hadmin, hmode, by simp [hdown], hready⟩, if_pos hok, hcode]
  rfl

theorem execPortLinkDown_eq {s : State} {p : Nat} (hp : p ≤ 64) (hup : s.b.fget clsPort p FPort.operState = 3) :
    execPortLinkDown p s = .next { s with b := (s.b.linkDown p).settle s.tm } := by
  simp only [execPortLinkDown, onBuf, onBody]
  rw [if_pos ⟨hp, hup⟩]

/-- The entry in force ends before its gate cycle does. -/
theorem execGateEntryStart_eq {s : State} {p r : Nat}
    (hentry : (gateAt (s.b.gateList p true) (timeDiff s.tm.now (s.b.eg p).cycleStart).toNat).2 = some r)
    (hcycle : (r : Int) < timeDiff ((s.b.eg p).cycleEnd s.tm) s.tm.now) :
    let d := (Dev.mk s.tm s.b).waitUntil ((s.tm.now + r) % 2 ^ 64)
    execGateEntryStart p s = .next { s with
      tm := d.tm, b := d.b.fset clsEgress p FEgress.gateState (d.b.gateState d.tm p) } := by
  simp only [execGateEntryStart, onDev, hentry]
  rw [if_pos (by omega)]

theorem execPauseExpiry_eq {s : State} {p c t : Nat} (hpause : mapFind c (s.b.eg p).pauses = some t) :
    let d := (Dev.mk s.tm s.b).waitUntil t
    execPauseExpiry p c s = .next { s with
      tm := d.tm
      b := (d.b.setEg p { d.b.eg p with pauses := mapDel c (d.b.eg p).pauses }).fset clsEgress p FEgress.fcPaused
        (d.b.fget clsEgress p FEgress.fcPaused &&& (255 - 2 ^ c)) } := by
  simp only [execPauseExpiry, onDev, hpause]

theorem execXoffRepeat_eq {s : State} {p t : Nat} (hxoff : (s.b.eg p).xoff = some t)
    (hen : s.b.fget clsPort p FPort.fcTxEn = 1) (hup : s.b.portUp p = true) :
    let q := s.b.fget clsPort p FPort.pauseQuanta
    let d := (Dev.mk s.tm s.b).waitUntil ((t + bitTime16 (q * 256) (s.b.portRate p)) % 2 ^ 64)
    d.b.freeOnchipKib < d.b.fget clsPort p FPort.xonKib →
    execXoffRepeat p s = .next { s with
      tm := d.tm, b := (d.b.setEg p { d.b.eg p with xoff := some d.tm.now }).sendFlow p q } := by
  intro q d hlow
  simp only [execXoffRepeat, onDev, hxoff]
  rw [if_pos ⟨hen, hup⟩, if_pos hlow]

/-- A direct-path frame takes the next receive slot, or is dropped with the slot busy. -/
theorem execBivouacRx_direct {s : State} {f : InFrame} {r : List InFrame} (hready : s.b.crossReady 0x24 = true)
    (hin : s.b.net.bivIn = f :: r) :
    let b1 := { s.b with net.bivIn := r }
    execBivouacRx true s = .next { s with b := ((if b1.rxSlotFree then
        b1.fillRxSlot false f.port f.ts (frameBytes (b1.bufData f.buffer) f.length 0 f.length)
      else b1.bump clsDevice 0 FDevice.cmdDropped 1).freeBuf f.buffer .rx).2.settle s.tm } := by
  simp [execBivouacRx, onBuf, onBody, hready, hin]

theorem execBivouacRx_port67 {s : State} {c : Nat} {f : EgFrame} {past : Bool} (hready : s.b.crossReady 0x24 = true)
    (hfree : s.b.rxSlotFree = true) (hpick : s.b.pickClass s.tm 67 = some (c, f, past)) :
    let b1 := s.b.setEgQueue 67 c ((s.b.egQueue 67 c).drop 1)
    execBivouacRx false s = .next { s with
      b := ((b1.fillRxSlot true f.desc.port f.desc.ts (b1.txBytes s.tm f s.tm.now)).dropCopy f .sent).settle s.tm } := by
  simp [execBivouacRx, onBuf, onBody, hready, hfree, hpick]

end Sys2Proof.Machine

namespace Sys2Proof
open Machine

/-- Settles O28. -/
theorem portStateCommands : Obligations.PortStateCommands := by
  unfold Obligations.PortStateCommands
  refine ⟨⟨fun s p fec speed => execPortLinkUp_eq, fun s p => execPortLinkDown_eq⟩,
    fun s p r => execGateEntryStart_eq, fun s p c t => execPauseExpiry_eq, fun s p t => execXoffRepeat_eq,
    fun s f r hready hin => ⟨fun hfree => ?_, fun hbusy => ?_⟩, fun s c f past => execBivouacRx_port67⟩
  · have h := execBivouacRx_direct hready hin
    simp only [hfree, if_true] at h
    exact h
  · have h := execBivouacRx_direct hready hin
    simp only [hbusy, Bool.false_eq_true, if_false] at h
    exact h

end Sys2Proof
end

section
/-! Reception (R61 to R64, R89, R308, R309, R402): a frame's start, its end by the reason that holds, and where a good frame
goes. -/

namespace Sys2Proof.Machine

section
variable {s : State} {p : Nat} {sof : BitVec 64} (hp : p ≤ 64) (hup : s.b.portUp p = true)
  (hready : s.b.crossReady (rxCross p) = true) (hidle : s.b.rx? p = none)
include hp hup hready hidle

theorem execRxFrameStart_taken {h : Nat} {b1 : Body}
    (hfits : s.b.chargeFits .rx (poolSize (s.b.fget clsPool 0x100 (rxFloor p))) = true)
    (htake : s.b.takeBuf (s.b.fget clsPool 0x100 (rxFloor p)) .rx .rx [] = some (h, b1)) :
    execRxFrameStart p sof s = .next { s with b :=
      (b1.setRx p ⟨codeOf 64 (sof.toNat - signedOf 32 (s.b.fget clsPort p FPort.rxDelay)), some h, []⟩).settle s.tm } := by
  simp only [execRxFrameStart, onBuf, onBody]
  rw [if_pos ⟨hp, hup, hready, by simp [hidle]⟩]
  simp only [hfits, if_true, htake]

/-- No quota or no free buffer: the frame is received without one (R309). -/
theorem execRxFrameStart_noBuffer (hnone : s.b.chargeFits .rx (poolSize (s.b.fget clsPool 0x100 (rxFloor p))) = false ∨
      s.b.takeBuf (s.b.fget clsPool 0x100 (rxFloor p)) .rx .rx [] = none) :
    execRxFrameStart p sof s = .next { s with b :=
      ((s.b.noBuffer (s.b.fget clsPool 0x100 (rxFloor p))).setRx p
        ⟨codeOf 64 (sof.toNat - signedOf 32 (s.b.fget clsPort p FPort.rxDelay)), none, []⟩).settle s.tm } := by
  have htake : (if s.b.chargeFits .rx (poolSize (s.b.fget clsPool 0x100 (rxFloor p))) then
      s.b.takeBuf (s.b.fget clsPool 0x100 (rxFloor p)) .rx .rx [] else none) = none := by
    rcases hnone with hover | hempty
    · simp [hover]
    · simp [hempty]
  simp only [execRxFrameStart, onBuf, onBody]
  rw [if_pos ⟨hp, hup, hready, by simp [hidle]⟩]
  simp only [htake]

end

theorem execRxBufferGrow_eq {s : State} {p : Nat} {x : Rx} (hrx : s.b.rx? p = some x) (got : List Byte) :
    execRxBufferGrow p got s = .next { s with b :=
      ((s.b.setRx p { x with got := (x.got ++ got).take (s.b.fget clsPort p FPort.maxFrame + 1) }).grow p 8).settle s.tm } := by
  simp only [execRxBufferGrow, onBuf, onBody, Body.receive, hrx]

/-! The end of a frame that has a buffer. -/

/-- The device with a good frame stored and counted (R62). -/
def Body.rxStored (b : Body) (p h : Nat) (x : Rx) : Body :=
  (((b.endRx p).putBuf h x.got).bump clsPort p FPort.rxFrames 1).bump clsPort p FPort.rxBytes x.got.length

/-- A received frame as it is handed on. -/
def rxHandedOn (p h : Nat) (x : Rx) : InFrame := ⟨h, x.got.length, p, x.sof, none, 0, none⟩

section
variable {s : State} {p h : Nat} {got : List Byte} {pcs fcs : Bool} {x : Rx}
  (hrx : (s.b.receive p got).rx? p = some x) (hbuf : x.buffer = some h)
include hrx hbuf

theorem execRxFrameEnd_bad {c : Fld} (hbad : (s.b.receive p got).rxReason p x pcs fcs = some c) :
    execRxFrameEnd p got pcs fcs s = .next { s with b :=
      (((((s.b.receive p got).endRx p).freeBuf h .rx).2).bump clsPort p c 1).settle s.tm } := by
  simp only [execRxFrameEnd, onBuf, onBody, hrx, hbuf, hbad]

theorem execRxFrameEnd_flow {k : Bool} (hgood : (s.b.receive p got).rxReason p x pcs fcs = none)
    (hflow : flowKind x.got = some k) : execRxFrameEnd p got pcs fcs s = .next { s with b :=
      (((((s.b.receive p got).endRx p).freeBuf h .rx).2).takeFlow s.tm p k x.got).settle s.tm } := by
  simp only [execRxFrameEnd, onBuf, onBody, hrx, hbuf, hgood, hflow]

section
variable (hgood : (s.b.receive p got).rxReason p x pcs fcs = none) (hflow : flowKind x.got = none)
include hgood hflow

theorem execRxFrameEnd_mac (hmac : ((s.b.receive p got).rxStored p h x).directPath p x.got = false) :
    execRxFrameEnd p got pcs fcs s = .next { s with b :=
      (((s.b.receive p got).rxStored p h x).macHandoff (rxHandedOn p h x)).settle s.tm } := by
  unfold Body.rxStored at hmac
  simp only [execRxFrameEnd, onBuf, onBody, hrx, hbuf, hgood, hflow, hmac, Bool.false_eq_true, if_false]
  rfl

theorem execRxFrameEnd_direct (hdirect : ((s.b.receive p got).rxStored p h x).directPath p x.got = true) :
    let b2 := ((s.b.receive p got).rxStored p h x).toBivouac (rxHandedOn p h x)
    execRxFrameEnd p got pcs fcs s = .next { s with b := (if p = 64 then b2.fire 1 else b2).settle s.tm } := by
  unfold Body.rxStored at hdirect
  simp only [execRxFrameEnd, onBuf, onBody, hrx, hbuf, hgood, hflow, hdirect, if_true]
  rfl

end

end

theorem inputRoom_of_lt {b : Body} {p : Nat} (h : (b.inputQueue p).length < 256) : b.inputRoom p = true := decide_eq_true h

theorem inputRoom_of_ge {b : Body} {p : Nat} (h : 256 ≤ (b.inputQueue p).length) : b.inputRoom p = false :=
  decide_eq_false (by omega)

theorem macHandoff_room {b : Body} {f : InFrame} (h : (b.inputQueue f.port).length < 256) :
    b.macHandoff f = b.toIntake f := by
  simp [Body.macHandoff, inputRoom_of_lt h]

theorem macHandoff_full {b : Body} {f : InFrame} (h : 256 ≤ (b.inputQueue f.port).length) :
    b.macHandoff f = ((b.freeBuf f.buffer .rx).2).bump clsIntake (0x300 + f.port) FInCnt.inputFull 1 := by
  simp [Body.macHandoff, inputRoom_of_ge h]

/-- The reasons of Table 3.3 in their order. -/
theorem rxReason_eq (b : Body) (p : Nat) (x : Rx) (pcs fcs : Bool) :
    b.rxReason p x pcs fcs =
      if pcs = true then some FPort.rxPcsErr
      else if x.got.length < 64 then some FPort.rxRunt
      else if b.fget clsPort p FPort.maxFrame < x.got.length then some FPort.rxOversize
      else if fcs = true ∧ sealFrame (x.got.take (x.got.length - 4)) = x.got then none
      else some FPort.rxFcsErr := by
  simp only [Body.rxReason, goodFcs, Bool.and_eq_true, beq_iff_eq]

end Sys2Proof.Machine

namespace Sys2Proof
open Machine

/-- Settles O30. -/
theorem receptionCommandsComplete : Obligations.ReceptionCommandsComplete := by
  unfold Obligations.ReceptionCommandsComplete
  refine ⟨fun s p sof hp hup hready hidle => ⟨fun h b1 => execRxFrameStart_taken hp hup hready hidle,
      execRxFrameStart_noBuffer hp hup hready hidle⟩,
    fun s p got x hrx => execRxBufferGrow_eq hrx got, fun s p got pcs fcs x h c hrx hbuf => execRxFrameEnd_bad hrx hbuf,
    fun s p got pcs fcs x h k hrx hbuf => execRxFrameEnd_flow hrx hbuf,
    fun s p got pcs fcs x h hrx hbuf hgood hflow => ?_, rxReason_eq⟩
  refine ⟨fun hmac hroom => ?_, fun hmac hfull => ?_, execRxFrameEnd_direct hrx hbuf hgood hflow⟩
  · refine (execRxFrameEnd_mac hrx hbuf hgood hflow hmac).trans ?_
    rw [macHandoff_room hroom]
    rfl
  · refine (execRxFrameEnd_mac hrx hbuf hgood hflow hmac).trans ?_
    rw [macHandoff_full hfull]
    rfl

end Sys2Proof
end

section
/-! Egress (R71, R73, R77, R78, R81, R83, R89): what each command of a port on the way out does where its event can occur. -/

namespace Sys2Proof.Machine

/-! Starts. -/

/-- A class that may start starts the head of its queue. -/
theorem egQueue_of_headMayStart {b : Body} {tm : Time} {p c : Nat} {f : EgFrame} {past : Bool}
    (h : b.headMayStart tm p c = some (f, past)) : b.egQueue p c = f :: (b.egQueue p c).drop 1 := by
  unfold Body.headMayStart at h
  cases hq : b.egQueue p c with
  | nil => simp [hq] at h
  | cons g r =>
    have hg : g = f := by
      simp only [hq] at h
      split at h
      · cases h
      · split at h
        · cases h; rfl
        · split at h
          · cases h; rfl
          · cases h
    rw [hg]
    rfl

theorem headMayStart_of_pickClass {b : Body} {tm : Time} {p c : Nat} {f : EgFrame} {past : Bool}
    (h : b.pickClass tm p = some (c, f, past)) : b.headMayStart tm p c = some (f, past) := by
  obtain ⟨k, -, hk⟩ := List.exists_of_findSome?_eq_some h
  obtain ⟨x, hx, he⟩ := Option.map_eq_some_iff.1 hk
  cases he
  exact hx

theorem nextPass_of_cons {b : Body} {c : Nat} {f : EgFrame} {r : List EgFrame} (h : b.egQueue 66 c = f :: r) :
    b.nextPass c = ((b.setEgQueue 66 c r).handoff f.buffer .egress .rx).2.toIntake
      ⟨f.buffer, f.length, 66, f.desc.ts, none, 0, some f.desc⟩ := by
  simp only [Body.nextPass, h]

theorem execEgressStart_line {s : State} {p c : Nat} {f : EgFrame} {past : Bool} (hp : p ≤ 64)
    (hup : s.b.portUp p = true) (hready : s.b.crossReady (txCross p) = true) (hidle : (s.b.eg p).sending = none)
    (hpick : s.b.pickClass s.tm p = some (c, f, past)) :
    let b1 := (s.b.setEgQueue p c ((s.b.egQueue p c).drop 1)).bufRead f.buffer 0 f.length
    let b2 := b1.setEg p { b1.eg p with
      sending := some ⟨c, f, s.tm.now, (s.tm.now + wireTime f.wireLength (s.b.portRate p)) % 2 ^ 64⟩ }
    execEgressStart p s =
      .next { s with b := (if past then b2.bump clsEgress p FEgress.overruns 1 else b2).settle s.tm } := by
  have hfree : ¬ (64 < p ∨ ¬ s.b.portUp p ∨ ¬ s.b.crossReady (txCross p) ∨ (s.b.eg p).sending.isSome) := by
    simp [hup, hready, hidle, hp]
  simp only [execEgressStart, onBuf, onBody]
  rw [if_neg (show p ≠ 66 by omega), if_neg hfree]
  simp only [hpick]

/-- On the recirculation port the head goes to Intake as the next pass. -/
theorem execEgressStart_recirc {s : State} {c : Nat} {f : EgFrame} {past : Bool} (hroom : s.b.inputRoom 66 = true)
    (hpick : s.b.pickClass s.tm 66 = some (c, f, past)) :
    execEgressStart 66 s = .next { s with b :=
      (((s.b.setEgQueue 66 c ((s.b.egQueue 66 c).drop 1)).handoff f.buffer .egress .rx).2.toIntake
        ⟨f.buffer, f.length, 66, f.desc.ts, none, 0, some f.desc⟩).settle s.tm } := by
  simp only [execEgressStart, onBuf, onBody, hroom, hpick, if_true]
  rw [nextPass_of_cons (egQueue_of_headMayStart (headMayStart_of_pickClass hpick))]

/-! Ends of transmission. -/

/-- A two-step request keeps its timestamp while the queue has room, and is counted otherwise (R77). -/
def Body.noteStamp (b : Body) (p : Nat) (e : EgPort) (ts : Nat) (f : EgFrame) : Body :=
  if bitsAt f.body 59 1 = 1 then
    (if e.stamps.length < 64 then (b.setEg p e).setEg p { e with stamps := e.stamps ++ [(ts, bitsAt f.body 80 16)] }
     else (b.setEg p e).bump clsPort p FPort.tsOverflow 1)
  else b.setEg p e

theorem noteStamp_notAsked {b : Body} {p ts : Nat} {e : EgPort} {f : EgFrame} (h : bitsAt f.body 59 1 = 0) :
    b.noteStamp p e ts f = b.setEg p e := by
  simp [Body.noteStamp, h]

theorem noteStamp_room {b : Body} {p ts : Nat} {e : EgPort} {f : EgFrame} (h : bitsAt f.body 59 1 = 1)
    (hroom : e.stamps.length < 64) :
    b.noteStamp p e ts f = (b.setEg p e).setEg p { e with stamps := e.stamps ++ [(ts, bitsAt f.body 80 16)] } := by
  simp [Body.noteStamp, h, hroom]

theorem noteStamp_full {b : Body} {p ts : Nat} {e : EgPort} {f : EgFrame} (h : bitsAt f.body 59 1 = 1)
    (hfull : 64 ≤ e.stamps.length) : b.noteStamp p e ts f = (b.setEg p e).bump clsPort p FPort.tsOverflow 1 := by
  simp [Body.noteStamp, h, Nat.not_lt.2 hfull]

theorem execTransmitComplete_eq {s : State} {p : Nat} {x : Sending} (hx : (s.b.eg p).sending = some x) :
    let d := (Dev.mk s.tm s.b).waitUntil x.ends
    let ts := d.b.egressTime p x.start
    let l := d.b.txBytes d.tm x.frame ts
    execTransmitComplete p s = .next { s with
      tm := d.tm
      b := (((((d.b.noteStamp p { d.b.eg p with sending := none } ts x.frame).bump clsPort p FPort.txFrames 1).bump clsPort
        p FPort.txBytes l.length).emit (if d.b.poisoned x.frame.buffer then .spoilt p (l.take (l.length - 4))
          else .frame p l)).dropCopy x.frame .sent).settle d.tm } := by
  simp only [execTransmitComplete, onDev, hx]
  rfl

/-! Elimination. -/

/-- On every port but 65 the head of the class queue is the frame to judge. -/
theorem toJudge_of_cons {b : Body} {p c : Nat} {f : EgFrame} {r : List EgFrame} (hp : p ≠ 65)
    (hq : b.egQueue p c = f :: r) : b.toJudge p c = if b.unjudged f then some f else none := by
  simp [Body.toJudge, hp, hq, Option.filter]

/-- The number in the tag or trailer that the stream's FUNCTION names (R81). -/
def Body.tagOf (b : Body) (n : Nat) (f : EgFrame) : Option Nat :=
  if b.streamFn n = 3 then rTagOf (b.egBytes f) else trailerOf (b.egBytes f)

section
variable {s : State} {p c n : Nat} {f : EgFrame} (hjudge : s.b.toJudge p c = some f)
  (hheld : s.b.bufHeld f.buffer = false) (hstream : f.stream = some n)
include hjudge hheld hstream

theorem execRedundEliminate_pass (hpass : (s.b.eliminate n (s.b.tagOf n f)).1 = true) :
    let v := (s.b.eliminate n (s.b.tagOf n f)).2
    let g : EgFrame := { f with
      judged := true, strip := (s.b.tagOf n f).isSome && v.fget clsRedund n FRedund.strip == 1 }
    execRedundEliminate p c s = .next { s with
      b := ((v.setEgQueue p c ((v.egQueue p c).map (fun x => if x.num = f.num then g else x))).bump clsRedund n
          FRedund.passed 1).settle s.tm } := by
  unfold Body.tagOf at hpass
  simp only [execRedundEliminate, onBuf, onBody, hjudge, Option.filter, hheld, Bool.not_false, if_true, hstream, hpass]
  rfl

theorem execRedundEliminate_discard (hdup : (s.b.eliminate n (s.b.tagOf n f)).1 = false) :
    let v := (s.b.eliminate n (s.b.tagOf n f)).2
    execRedundEliminate p c s = .next { s with
      b := (((v.setEgQueue p c ((v.egQueue p c).filter (fun x => decide (x.num ≠ f.num)))).dropCopy f .removed).bump
        clsRedund n FRedund.discarded 1).settle s.tm } := by
  unfold Body.tagOf at hdup
  simp only [execRedundEliminate, onBuf, onBody, hjudge, Option.filter, hheld, Bool.not_false, if_true, hstream, hdup,
    Bool.false_eq_true, if_false]
  rfl

end

theorem execStreamReset_eq {s : State} {n : Nat} (hfn : s.b.streamFn n = 3 ∨ s.b.streamFn n = 4)
    (hquiet : s.b.fget clsRedund n FRedund.resetTicks ≤ (s.b.recov n).quiet) :
    execStreamReset n s = .next { s with
      b := (s.b.setRecov n { takeAny := true, hist := 0, quiet := 0, passed := false }).bump clsRedund n
        FRedund.resets 1 } := by
  simp only [execStreamReset, onBody]
  rw [if_pos ⟨hfn, hquiet⟩]
  rfl

/-! Link holds. -/

theorem execLinkHoldExpiry_eq {s : State} {p : Nat} (hp : p ≤ 64) (hdown : s.b.portUp p = false)
    (hlimit : s.b.fget clsPort p FPort.holdLimit + 1 ≤ s.b.work.tickSets - (s.b.eg p).downSince) :
    execLinkHoldExpiry p s = .next { s with b := (s.b.holdPort p).settle s.tm } := by
  have hpast : s.b.heldPast p = true := by simp [Body.heldPast, hp, hdown, hlimit]
  simp only [execLinkHoldExpiry, onBuf, onBody, hpast, if_true]

end Sys2Proof.Machine

namespace Sys2Proof
open Machine

/-- Settles O31. -/
theorem egressCommandsComplete : Obligations.EgressCommandsComplete := by
  unfold Obligations.EgressCommandsComplete
  refine ⟨fun s p c f past => execEgressStart_line, fun s c f past => execEgressStart_recirc, fun s p x hx => ?_,
    fun b p c f r => toJudge_of_cons,
    fun s p c n f hjudge hheld hstream => ⟨execRedundEliminate_pass hjudge hheld hstream,
      execRedundEliminate_discard hjudge hheld hstream⟩,
    fun s n => execStreamReset_eq, fun s p => execLinkHoldExpiry_eq⟩
  refine ⟨fun hone => ?_, fun htwo hroom => ?_, fun htwo hfull => ?_⟩
  · refine (execTransmitComplete_eq hx).trans ?_
    rw [noteStamp_notAsked hone]
  · refine (execTransmitComplete_eq hx).trans ?_
    rw [noteStamp_room htwo hroom]
  · refine (execTransmitComplete_eq hx).trans ?_
    rw [noteStamp_full htwo hfull]

end Sys2Proof
end

section
/-! Intake (R88, R90, R97, R340) and the Headgate (R114 to R119): what each command does where its event can occur. -/

namespace Sys2Proof.Machine

theorem execIntakeEntry_eq {s : State} {p : Nat} {f : InFrame} {r : List InFrame} (hqueue : s.b.inputQueue p = f :: r)
    (hawake : s.b.asleep = false) (hheld : s.b.bufHeld f.buffer = false) :
    execIntakeEntry p s = .next { s with
      b := (({ s.b with net.input := mapPut p r s.b.net.input } : Body).enterIntake s.tm f).settle s.tm } := by
  simp [execIntakeEntry, onBuf, onBody, hqueue, hawake, hheld]

/-! A stage. -/

/-- What a stage's result `r` says (R97): its action set, then a drop, the end, or a later stage. -/
theorem runStage_fst {b : Body} {tm : Time} {x : Pass} {r : Nat}
    (hr : (b.stageLookup (stageInst x.epoch x.stage) (b.stageKey (stageInst x.epoch x.stage) (b.view x))).getD
      (b.fget clsStage (stageInst x.epoch x.stage) FStage.missResult) = r) :
    (b.runStage tm x).1 = match b.actSet x (r % 4096) (r / 2 ^ 16 % 2 ^ 48) with
      | none => .dropped
      | some y => if r / 2 ^ 15 % 2 = 1 ∨ r / 2 ^ 12 % 8 ≤ x.stage then .ended y
        else .atStage { y with stage := r / 2 ^ 12 % 8 } := by
  have hset : bitsAt r 0 12 = r % 4096 := by simp [bitsAt]
  have harg : bitsAt r 16 48 = r / 2 ^ 16 % 2 ^ 48 := rfl
  have hnext : bitsAt r 12 3 = r / 2 ^ 12 % 8 := rfl
  have hend : r.testBit 15 = true ↔ r / 2 ^ 15 % 2 = 1 := by simp [Nat.testBit_eq_decide_div_mod_eq]
  simp only [Body.runStage, hr, hset, harg, hnext, hend]
  cases b.actSet x (r % 4096) (r / 2 ^ 16 % 2 ^ 48) with
  | none => rfl
  | some y => exact apply_ite Prod.fst _ _ _

/-! The return of a lookup's data. -/

theorem lookupSlot_eq (d : Dev) :
    let k := d.b.rateSlot d.tm.cycle
    let d1 := d.waitCycle k
    d.lookupSlot = ⟨d1.tm, if d.tm.cycle < k then d1.b.bump clsDram 0 FDram.tableRateWaits 1 else d1.b⟩ := by
  simp only [Dev.lookupSlot]
  split <;> rfl

/-- The first of a list that satisfies `q`, behind those that do not. -/
theorem findIdx_append_cons {α : Type} {q : α → Bool} {l r : List α} {w : α} (hl : ∀ v ∈ l, q v = false)
    (hw : q w = true) : (l ++ w :: r).findIdx q = l.length := by
  simp [List.findIdx_append, List.findIdx_eq_length.2 hl, List.findIdx_cons, hw]

/-- The answer of the stage lets the pass go on, in its place among the passes of the port. -/
theorem execIntakeDramStageReturn_eq {s : State} {p : Nat} {l r : List Waiting} {w : Waiting} {d : Dev} {c : Cls}
    {b1 : Body} (hpasses : s.b.passes p = l ++ w :: r)
    (hl : ∀ v ∈ l, v.ended = true ∨ s.b.stageHeld v.pass = true) (hended : w.ended = false)
    (hheld : s.b.stageHeld w.pass = false) (hslot : (Dev.mk s.tm s.b).lookupSlot = d)
    (hanswer : d.b.resumeStage d.tm w.pass = (c, b1)) :
    execIntakeDramStageReturn p s = .next { s with
      tm := d.tm
      b := (match c with
        | .dropped => ((b1.setPasses p (l ++ r)).discardPass w.pass p FInCnt.dropped 0x21).flushPasses p
        | .ended y => (b1.setPasses p (l ++ (⟨y, true⟩ : Waiting) :: r)).flushPasses p
        | .atStage y => b1.setPasses p (l ++ (⟨y, false⟩ : Waiting) :: r)).settle d.tm } := by
  have hfirst : (l ++ w :: r).findIdx (fun v => !v.ended && !s.b.stageHeld v.pass) = l.length := by
    refine findIdx_append_cons (fun v hv => ?_) (by simp [hended, hheld])
    rcases hl v hv with h | h <;> simp [h]
  have hget : (l ++ w :: r)[l.length]? = some w := by simp
  have herase : (l ++ w :: r).eraseIdx l.length = l ++ r := by simp [List.eraseIdx_append_of_length_le]
  have hset (v : Waiting) : (l ++ w :: r).set l.length v = l ++ v :: r := by simp
  simp only [execIntakeDramStageReturn, onDev, hpasses, hfirst, hget, herase, hset, hslot, hanswer]
  cases c <;> rfl

/-! The Headgate. -/

theorem execHeadgateCheck_eq {s : State} (hdrafts : s.b.work.drafts ≠ []) :
    let d := (Dev.mk s.tm s.b).waitCycle s.b.checkAt
    execHeadgateCheck s = .next { s with tm := d.tm, b := (d.b.headgateCheck d.tm).settle d.tm } := by
  simp only [execHeadgateCheck, onDev, if_neg hdrafts]

section
variable {b : Body} {tm : Time} {x : Draft} (hnext : b.nextDraft = some x)
include hnext

theorem headgateCheck_refused {k : Nat} (hrefused : (b.takeDraft x).refusal tm x = some k) :
    b.headgateCheck tm = (b.takeDraft x).refuse x k := by
  simp only [Body.headgateCheck, hnext, hrefused]

theorem headgateCheck_admitted (hopen : (b.takeDraft x).refusal tm x = none) :
    b.headgateCheck tm = ((b.takeDraft x).admitDraft tm x).getD b := by
  simp only [Body.headgateCheck, hnext, hopen]

end

end Sys2Proof.Machine

namespace Sys2Proof
open Machine

/-- Settles O32: each command where its event can occur, and the result of a stage. -/
theorem intakeCommandsComplete : Obligations.IntakeCommandsComplete := by
  unfold Obligations.IntakeCommandsComplete
  refine ⟨⟨fun s p f r => execIntakeEntry_eq, fun s p l r w hpasses hl hended hheld => ?_, fun s hdrafts => ?_⟩,
    fun b tm x => runStage_fst rfl⟩
  · exact (execIntakeDramStageReturn_eq hpasses hl hended hheld (lookupSlot_eq _) Prod.mk.eta.symm).trans rfl
  · intro d x hnext b1
    refine ⟨fun k hrefused => ?_, fun hopen _ => ?_⟩
    · refine (execHeadgateCheck_eq hdrafts).trans ?_
      rw [headgateCheck_refused hnext hrefused]
      rfl
    · refine (execHeadgateCheck_eq hdrafts).trans ?_
      rw [headgateCheck_admitted hnext hopen]
      rfl

end Sys2Proof
end

section
/-! Dispatch (R131 to R133, R143, R248): what each command of the scheduler and of a core's issue does where its event can
occur. -/

namespace Sys2Proof.Machine

/-! Selection. -/

section
variable {s : State} {c : Nat} (hruns : s.b.runs = true)
include hruns

/-- A re-dispatched item is served first, by either command (R248). -/
theorem exec_select_redispatch {k : Nat × Item × Nat} (hnext : s.b.nextRedispatch c = some k) :
    execDispatchSelect c s = .next { s with b := s.b.redispatchTo s.tm k } ∧
      execRedispatchSelect c s = .next { s with b := s.b.redispatchTo s.tm k } := by
  simp only [execDispatchSelect, execRedispatchSelect, onBody, hruns, hnext, if_true, and_self]

theorem execDispatchSelect_ready {h q : Nat} (hnone : s.b.nextRedispatch c = none)
    (hpick : s.b.pickPair c (s.b.freeThreads c) = some (h, q)) :
    execDispatchSelect c s = .next { s with b := s.b.select s.tm h q } := by
  simp only [execDispatchSelect, onBody, hruns, hnone, hpick, if_true]

end

/-! Start. -/

theorem execItemStart_loaded {s : State} {h c : Nat} {it : Item} (hload : (s.b.hart h).loading = some (it, c))
    (hready : it.src = .event ∨ s.b.bufHeld it.desc.buffer = false) :
    let d := (Dev.mk s.tm s.b).waitCycle (c + 1)
    execItemStart h s = .next { s with tm := d.tm, b := d.b.startItem d.tm h it } := by
  have hgo : (it.isFrame && s.b.bufHeld it.desc.buffer) = false := by
    rcases hready with h | h <;> simp [Item.isFrame, h]
  simp [execItemStart, onDev, hload, hgo]

/-! Switching. -/

section
variable {s : State} {c : Nat}

section
variable (hidle : (s.b.core c).issuing.filter (fun h => s.b.able h) = none)
include hidle

/-- Where the issuing thread is not able to issue, or there is none, the core takes the next one that is. -/
theorem execThreadSwitch_idle_next {h : Nat} (hnext : s.b.nextThread c none = some h) :
    execThreadSwitch c s = .next { s with b := s.b.switchTo c h } := by
  simp only [execThreadSwitch, onBody, hidle, hnext]

theorem execThreadSwitch_idle_none (hnext : s.b.nextThread c none = none) :
    execThreadSwitch c s = .next { s with b := s.b.setCore c { s.b.core c with issuing := none } } := by
  simp only [execThreadSwitch, onBody, hidle, hnext]

end

section
variable {g : Nat} (hissuing : (s.b.core c).issuing = some g) (hable : s.b.able g = true)
  (hwait : s.b.mustSwitch s.tm g = true)
include hissuing hable hwait

/-- Away from a thread that waits for a result on its way, the core takes another. -/
theorem execThreadSwitch_waiting_next {h : Nat} (hnext : s.b.nextThread c (some g) = some h) :
    execThreadSwitch c s = .next { s with
      b := (s.b.modHart g (fun x => { x with ableSince := s.b.cycleOf g + s.b.waitOf s.tm g 1 })).switchTo c h } := by
  simp only [execThreadSwitch, onBody, hissuing, Option.filter_some, hable, hwait, hnext, if_true]

/-- Where no other is able, the core idles until the result is there. -/
theorem execThreadSwitch_waiting_none (hnext : s.b.nextThread c (some g) = none) :
    execThreadSwitch c s = .next { s with b := (s.b.idleCore c (s.b.waitOf s.tm g 1)).switchTo c g } := by
  simp only [execThreadSwitch, onBody, hissuing, Option.filter_some, hable, hwait, hnext, if_true]

end

end

end Sys2Proof.Machine

namespace Sys2Proof
open Machine

/-- Settles O33: selection, start and thread switch, each from what its command does where its event can occur. -/
theorem dispatchCommandsComplete : Obligations.DispatchCommandsComplete := by
  unfold Obligations.DispatchCommandsComplete
  refine ⟨fun s c hruns => ⟨fun k => exec_select_redispatch hruns, fun h q => execDispatchSelect_ready hruns⟩,
    fun s h c it => execItemStart_loaded, fun s c => ?_⟩
  intro take
  constructor
  · intro hunable
    have hidle : (s.b.core c).issuing.filter (fun h => s.b.able h) = none :=
      Option.filter_eq_none_iff.2 fun g hg => by simp [hunable g hg]
    exact ⟨fun h => execThreadSwitch_idle_next hidle, execThreadSwitch_idle_none hidle⟩
  · intro g hissuing hable hwait b1
    exact ⟨fun h => execThreadSwitch_waiting_next hissuing hable hwait, execThreadSwitch_waiting_none hissuing hable hwait⟩

end Sys2Proof
end

section
/-! The start of an item (R146, R151, R172): the thread starts at its program's entry as it stands once the tent is entered.
The store of object fields goes by one number per field, which tells fields apart while places stay below 2^16. An item
of the model may name a program beyond the 256 of R172, and an entry beyond the object then has the number of a field of
another object. -/

namespace Sys2Proof.Machine

/-- The thread starts at the entry that stands once the frame is read and the tent entered. -/
theorem startItem_pc (b : Body) (tm : Time) (h : Nat) (it : Item) :
    ((b.startItem tm h it).hart h).pc =
      ((if it.isFrame then b.bufRead it.desc.buffer 0 (min 256 it.desc.length) else b).enterTent h it.tent).fget clsCore
        (coreOf h) (coreEntry (if it.isFrame then it.program else 0)) := by
  simp only [Body.startItem, Body.hart_setHart_self, Body.fget]

/-- A program that no core has: its entry at core 0 has the number of CHAN_PEER of channel 0 of thread 0. -/
def strayProgram : Nat := 2 ^ 35 - 250

theorem fieldKey_strayProgram : fieldKey clsCore 0 (coreEntry strayProgram).lo =
    fieldKey clsThread 0 (FThread.chanPeer 0).lo := by decide

/-- A frame item of tent 0 that names the program. -/
def strayItem : Item :=
  ⟨.slot 0, 0, 0, ⟨0, 0, 0, 0, 0, 0, 0, 0, 0, 0, 0, 0⟩, strayProgram, 0, 0, 0, 0, 0, [], [], false⟩

/-- The device after reset, where thread 0 has a binding of channel 0 to thread 4 from before a re-pitch. -/
def boundThread : Body := { Body.reset with isa.moved := [0] }.fset clsThread 0 (FThread.chanPeer 0) 4

theorem entry_strayProgram : boundThread.fget clsCore 0 (coreEntry strayProgram) = 4 := by decide

/-- The binding is cleared as the thread enters its tent (R146), before the entry is read. -/
theorem startItem_strayProgram_pc : ((boundThread.startItem Time.reset 0 strayItem).hart 0).pc = 0 := by
  rw [startItem_pc]
  decide

end Sys2Proof.Machine

namespace Sys2Proof
open Machine

/-- Refutes O34: it has every item start at the entry of its program as it stood before the start. Thread 0 of
`boundThread` starts `strayItem`, whose program's entry has the number of the thread's CHAN_PEER 0: it stands at 4
before the start, and reads 0 once the bindings are cleared for the new tent. -/
theorem not_itemSelectionAndStart : ¬ Obligations.ItemSelectionAndStart := by
  unfold Obligations.ItemSelectionAndStart
  rintro ⟨-, hstart⟩
  obtain ⟨-, -, -, -, -, hpc, -⟩ := hstart boundThread Time.reset 0 strayItem (by decide)
  have hentry : ((boundThread.startItem Time.reset 0 strayItem).hart 0).pc = 4 := hpc.trans entry_strayProgram
  rw [startItem_strayProgram_pc] at hentry
  exact absurd hentry (by decide)

end Sys2Proof
end

section
/-! A write of one field of a word (R10, R12, R478, Table 0.4): the word that holds the field's new value and every other RW
field's own leaves those fields as they are, writes no reserved 1 and does nothing else. -/

namespace Sys2Proof.Machine

/-! Numbers made of parts that share no bit. -/

theorem testBit_add_of_disjoint {x y : Nat} (h : ∀ i, (x.testBit i && y.testBit i) = false) (k : Nat) :
    (x + y).testBit k = (x.testBit k || y.testBit k) := by
  have hand : x &&& y = 0 := Nat.eq_of_testBit_eq fun i => by simp [h i]
  have hx : x < 2 ^ (x + y) := lt_of_le_of_lt (Nat.le_add_right x y) Nat.lt_two_pow_self
  have hy : y < 2 ^ (x + y) := lt_of_le_of_lt (Nat.le_add_left y x) Nat.lt_two_pow_self
  have hor := congrArg BitVec.toNat (BitVec.add_eq_or_of_and_eq_zero (BitVec.ofNat (x + y) x) (BitVec.ofNat (x + y) y)
    (BitVec.eq_of_toNat_eq (by simp [Nat.mod_eq_of_lt hx, Nat.mod_eq_of_lt hy, hand])))
  simp only [BitVec.toNat_add, BitVec.toNat_ofNat, BitVec.toNat_or, Nat.mod_eq_of_lt hx, Nat.mod_eq_of_lt hy,
    Nat.mod_eq_of_lt Nat.lt_two_pow_self] at hor
  rw [hor, Nat.testBit_or]

/-- Bits replaced by those that stand there. -/
theorem setBits_same {old lo n v : Nat} (h : v % 2 ^ n = bitsAt old lo n) : setBits old lo n v = old := by
  have hle : bitsAt old lo n * 2 ^ lo ≤ old :=
    (Nat.mul_le_mul_right _ (Nat.mod_le _ _)).trans (Nat.div_mul_le_self old _)
  rw [setBits, h, Nat.sub_add_cancel hle]

/-! Fields in a word. -/

/-- Two fields have no bit in common. -/
abbrev Fld.Apart (f g : Fld) : Prop := f.lo + f.width ≤ g.lo ∨ g.lo + g.width ≤ f.lo

/-- Whether bit `k` of word `off` is a field's. -/
def Fld.hasBit (f : Fld) (off k : Nat) : Bool :=
  decide (k < 32 ∧ f.lo ≤ 32 * off + k ∧ 32 * off + k < f.lo + f.width)

theorem Fld.testBit_inWord (f : Fld) (off v k : Nat) :
    (f.inWord off v).testBit k = (f.hasBit off k && v.testBit (32 * off + k - f.lo)) := by
  rw [Bool.eq_iff_iff]
  unfold Fld.inWord Fld.hasBit
  split
  · have hp (h : f.lo ≤ 32 * off + k) : k - (f.lo - 32 * off) = 32 * off + k - f.lo := by omega
    simp only [Nat.testBit_mod_two_pow, Nat.testBit_mul_two_pow, Bool.and_eq_true, decide_eq_true_eq]
    constructor
    · rintro ⟨hk, hlo, hin, hv⟩
      rw [hp (by omega)] at hin hv
      exact ⟨⟨hk, by omega, by omega⟩, hv⟩
    · rintro ⟨⟨hk, hlo, hin⟩, hv⟩
      rw [hp hlo]
      exact ⟨hk, by omega, by omega, hv⟩
  · have hp : k + (32 * off - f.lo) = 32 * off + k - f.lo := by omega
    simp only [Nat.testBit_mod_two_pow, Nat.testBit_div_two_pow, Bool.and_eq_true, decide_eq_true_eq, hp]
    constructor
    · rintro ⟨hk, hin, hv⟩
      exact ⟨⟨hk, by omega, by omega⟩, hv⟩
    · rintro ⟨⟨hk, -, hin⟩, hv⟩
      exact ⟨hk, by omega, hv⟩

@[simp] theorem Fld.inWord_zero (f : Fld) (off : Nat) : f.inWord off 0 = 0 := by simp [Fld.inWord]

theorem Fld.hasBit_of_apart {f g : Fld} {off k : Nat} (h : f.Apart g) (hf : f.hasBit off k = true) :
    g.hasBit off k = false := by
  simp only [Fld.hasBit, decide_eq_true_eq, decide_eq_false_iff_not] at *
  omega

/-- The parts of fields that lie apart make a word bit by bit. -/
theorem testBit_sum_inWord {l : List Fld} {off : Nat} (x : Fld → Nat) (hl : l.Pairwise Fld.Apart) (k : Nat) :
    (l.map (fun g : Fld => g.inWord off (x g))).sum.testBit k = l.any (fun g => (g.inWord off (x g)).testBit k) := by
  induction l generalizing k with
  | nil => simp
  | cons f r ih =>
    obtain ⟨hf, hr⟩ := List.pairwise_cons.1 hl
    rw [List.map_cons, List.sum_cons, testBit_add_of_disjoint, ih hr, List.any_cons]
    intro i
    rw [ih hr, Fld.testBit_inWord]
    by_cases hi : f.hasBit off i = true
    · have hnone : r.any (fun g => (g.inWord off (x g)).testBit i) = false :=
        List.any_eq_false.2 fun g hg => by simp [Fld.testBit_inWord, Fld.hasBit_of_apart (hf g hg) hi]
      simp [hnone]
    · simp [hi]

/-- A bit of a field in a word of parts is the bit of its part. -/
theorem testBit_sum_of_hasBit {l : List Fld} {off : Nat} (x : Fld → Nat) (hl : l.Pairwise Fld.Apart) {g : Fld}
    (hg : g ∈ l) {k : Nat} (hk : g.hasBit off k = true) :
    (l.map (fun g : Fld => g.inWord off (x g))).sum.testBit k = (x g).testBit (32 * off + k - g.lo) := by
  rw [testBit_sum_inWord x hl, Bool.eq_iff_iff, List.any_eq_true]
  constructor
  · rintro ⟨f, hf, hbit⟩
    rw [Fld.testBit_inWord, Bool.and_eq_true] at hbit
    by_cases hfg : f = g
    · exact hfg ▸ hbit.2
    · have hsymm : Std.Symm Fld.Apart := ⟨fun _ _ => Or.symm⟩
      have hapart : g.Apart f := hl.forall hg hf (Ne.symm hfg)
      simp [Fld.hasBit_of_apart hapart hk] at hbit
  · exact fun hbit => ⟨g, hg, by simp [Fld.testBit_inWord, hk, hbit]⟩

/-- What a word of parts writes into a field is the field's part. -/
theorem splice_sum {l : List Fld} {off : Nat} (x : Fld → Nat) (hl : l.Pairwise Fld.Apart) {g : Fld} (hg : g ∈ l)
    (old : Nat) : g.splice off (l.map (fun g : Fld => g.inWord off (x g))).sum old =
      setBits old (g.lowIn off) (g.bitsIn off) (bitsAt (x g) (g.lowIn off) (g.bitsIn off)) := by
  unfold Fld.splice setBits
  congr 2
  refine Nat.eq_of_testBit_eq fun i => ?_
  simp only [bitsAt, Nat.testBit_mod_two_pow, Nat.testBit_div_two_pow, Bool.and_self_left]
  by_cases hi : i < g.bitsIn off
  · have hbit : g.hasBit off (i + (g.lo - 32 * off)) = true := by
      simp only [Fld.hasBit, Fld.bitsIn, decide_eq_true_eq] at hi ⊢
      omega
    have hp : 32 * off + (i + (g.lo - 32 * off)) - g.lo = i + g.lowIn off := by
      simp only [Fld.lowIn]
      omega
    rw [testBit_sum_of_hasBit x hl hg hbit, hp]
  · simp [hi]

/-! The word in which one field takes a value. -/

/-- A field that an authority may write as RW is an RW field. -/
theorem acc_of_accessOf_rw {b : Body} {au : Auth} {cls inst : Nat} {f : Fld} (h : b.accessOf au cls inst f = .rw) :
    f.acc = .rw := by
  cases au with
  | biv => exact h
  | host t => exact (ite_eq_or_eq _ _ _).elim (fun e => e.symm.trans h) (fun e => absurd (e.symm.trans h) (by decide))

/-- What a word that writes `v` to `f` alone holds for a field: `v` for `f`, for another RW field its own value. -/
def Dev.partOf (d : Dev) (cls inst : Nat) (f : Fld) (v : Nat) (g : Fld) : Nat :=
  if g = f then v else if g.acc = .rw then d.view cls inst g else 0

theorem wordWith_eq_sum (d : Dev) (cls inst off : Nat) (f : Fld) (v : Nat) : d.wordWith cls inst off f v =
    ((fieldsOfWord cls inst off).map (fun g : Fld => g.inWord off (d.partOf cls inst f v g))).sum := by
  unfold Dev.wordWith
  congr 2
  funext g
  unfold Dev.partOf
  split
  · rename_i hgf
    rw [hgf]
  · split
    · rfl
    · rw [Fld.inWord_zero]

/-- The word that writes `v` to `f` alone, as the object write judges and does it. -/
def Dev.wr (d : Dev) (au : Auth) (cls inst : Nat) (f : Fld) (v : Nat) : Wr :=
  ⟨d, au, cls, inst, f.word, d.wordWith cls inst f.word f v, []⟩

section
variable (d : Dev) (au : Auth) (cls inst : Nat) (f : Fld) (v : Nat) (g : Fld)

@[simp] theorem Dev.wr_d : (d.wr au cls inst f v).d = d := rfl
@[simp] theorem Dev.wr_cls : (d.wr au cls inst f v).cls = cls := rfl
@[simp] theorem Dev.wr_inst : (d.wr au cls inst f v).inst = inst := rfl
@[simp] theorem Dev.wr_off : (d.wr au cls inst f v).off = f.word := rfl
@[simp] theorem Dev.wr_word : (d.wr au cls inst f v).word = d.wordWith cls inst f.word f v := rfl
@[simp] theorem Dev.wr_fields : (d.wr au cls inst f v).fields = fieldsOfWord cls inst f.word := rfl
@[simp] theorem Dev.wr_acc : (d.wr au cls inst f v).acc g = d.b.accessOf au cls inst g := rfl
@[simp] theorem Dev.wr_old : (d.wr au cls inst f v).old g = d.view cls inst g := rfl
@[simp] theorem Dev.wr_leaves : (d.wr au cls inst f v).leaves g = (d.wr au cls inst f v).next g := rfl

end

/-- Field `f` lies in one word, whose fields `l` lie apart, and `v` is a value of `f`; the word's RW fields hold values of
their widths and ranges. -/
structure Dev.WritesAlone (d : Dev) (au : Auth) (cls inst : Nat) (f : Fld) (v : Nat) (l : List Fld) : Prop where
  fields : fieldsOfWord cls inst f.word = l
  mem : f ∈ l
  single : f.lo + f.width ≤ 32 * f.word + 32
  apart : l.Pairwise Fld.Apart
  writable : (d.b.accessOf au cls inst f).writable = true
  value : v < 2 ^ f.width
  range : f.acc = .rw → f.inRange v = true
  fits : ∀ g ∈ l, g.acc = .rw → d.view cls inst g < 2 ^ g.width ∧ g.inRange (d.view cls inst g) = true

/-- Of the fields `m`, those in the word of `f` are among its fields `l`, and none is `f`. -/
abbrev Fld.Beside (f : Fld) (l m : List Fld) : Prop := ∀ g ∈ m, g ≠ f ∧ (g.inWordOf f.word = true → g ∈ l)

namespace Dev.WritesAlone

variable {d : Dev} {au : Auth} {cls inst : Nat} {f : Fld} {v : Nat} {l m : List Fld} {g : Fld}
  (h : d.WritesAlone au cls inst f v l)
include h

theorem inWordOf : f.inWordOf f.word = true := by
  have hf := h.fields ▸ h.mem
  simp only [fieldsOfWord, List.mem_filter] at hf
  exact hf.2

theorem splice_eq (hg : g ∈ l) (old : Nat) : g.splice f.word (d.wordWith cls inst f.word f v) old =
    setBits old (g.lowIn f.word) (g.bitsIn f.word)
      (bitsAt (d.partOf cls inst f v g) (g.lowIn f.word) (g.bitsIn f.word)) := by
  rw [wordWith_eq_sum, h.fields]
  exact splice_sum _ h.apart hg old

/-- A field whose part is what it holds keeps it. -/
theorem splice_kept (hg : g ∈ l) {old : Nat} (hold : d.partOf cls inst f v g = old) :
    g.splice f.word (d.wordWith cls inst f.word f v) old = old := by
  rw [h.splice_eq hg, hold]
  exact setBits_same (Nat.mod_mod _ _)

/-- `f` takes its value. -/
theorem splice_self {old : Nat} (hold : old < 2 ^ f.width) :
    f.splice f.word (d.wordWith cls inst f.word f v) old = v := by
  have hin := h.inWordOf
  have hsingle := h.single
  simp only [Fld.inWordOf, decide_eq_true_eq] at hin
  have hlow : f.lowIn f.word = 0 := by simp only [Fld.lowIn, Fld.word]; omega
  have hbits : f.bitsIn f.word = f.width := by simp only [Fld.bitsIn, Fld.word] at *; omega
  rw [h.splice_eq h.mem, hlow, hbits]
  simp [setBits, bitsAt, Dev.partOf, Nat.mod_eq_of_lt hold, Nat.mod_eq_of_lt h.value]

theorem next_beside (hgf : g ≠ f) (hg : g.inWordOf f.word = true → g ∈ l) (hrw : g.acc = .rw) :
    (d.wr au cls inst f v).next g = d.view cls inst g := by
  unfold Wr.next
  split
  · rename_i hin
    exact h.splice_kept (hg hin) (by simp [Dev.partOf, hgf, hrw])
  · rfl

theorem next_self (hrw : f.acc = .rw) : (d.wr au cls inst f v).next f = v := by
  rw [Wr.next, Dev.wr_off, if_pos h.inWordOf]
  exact h.splice_self (h.fits f h.mem hrw).1

theorem bits_self : (d.wr au cls inst f v).bits f = v := by
  rw [Wr.bits, Dev.wr_off, if_pos ⟨h.inWordOf, h.writable⟩]
  exact h.splice_self (Nat.two_pow_pos _)

theorem bits_beside (hgf : g ≠ f) (hg : g.inWordOf f.word = true → g ∈ l) (hrw : g.acc ≠ .rw) :
    (d.wr au cls inst f v).bits g = 0 := by
  unfold Wr.bits
  split
  · rename_i hin
    exact h.splice_kept (hg hin.1) (by simp [Dev.partOf, hgf, hrw])
  · rfl

theorem does_self (hwo : d.b.accessOf au cls inst f = .wo) (hv : v = 1) : (d.wr au cls inst f v).does f = true := by
  rw [Wr.does, h.bits_self, Dev.wr_acc, hwo, hv]
  rfl

theorem does_beside (hgf : g ≠ f) (hg : g.inWordOf f.word = true → g ∈ l) (hrw : g.acc ≠ .rw) :
    (d.wr au cls inst f v).does g = false := by
  simp [Wr.does, h.bits_beside hgf hg hrw]

/-- No other field is written. -/
theorem hits_beside (hm : f.Beside l m) : (d.wr au cls inst f v).hits m = false := by
  have honly : ((l.filter (fun g => (d.b.accessOf au cls inst g).writable)).all (fun g => m.contains g)) = false :=
    List.all_eq_false.2 ⟨f, List.mem_filter.2 ⟨h.mem, h.writable⟩, by simpa using fun hf => (hm f hf).1 rfl⟩
  simp only [Wr.hits, Dev.wr_fields, h.fields, Dev.wr_acc, honly, Bool.false_or, List.any_eq_false, Bool.and_eq_true,
    bne_iff_ne, beq_iff_eq, not_and]
  rintro g hg ⟨-, hacc⟩
  exact not_not.2 (h.next_beside (hm g hg).1 (hm g hg).2 (acc_of_accessOf_rw hacc))

theorem hit_beside (hgf : g ≠ f) (hg : g.inWordOf f.word = true → g ∈ l) : (d.wr au cls inst f v).hit g = false :=
  h.hits_beside (List.forall_mem_singleton.2 ⟨hgf, hg⟩)

/-- An RW field that takes another value is written. -/
theorem hit_self (hrw : d.b.accessOf au cls inst f = .rw) (hv : v ≠ d.view cls inst f) :
    (d.wr au cls inst f v).hit f = true := by
  have hnext : (d.wr au cls inst f v).next f ≠ d.view cls inst f := by
    rw [h.next_self (acc_of_accessOf_rw hrw)]
    exact hv
  simp [Wr.hit, Wr.hits, h.inWordOf, hrw, hnext]

theorem inRange : (d.wr au cls inst f v).inRange = true := by
  simp only [Wr.inRange, Dev.wr_fields, h.fields, Dev.wr_acc, Dev.wr_leaves, List.all_eq_true, Bool.or_eq_true, bne_iff_ne]
  intro g hg
  by_cases hacc : d.b.accessOf au cls inst g = .rw
  · have hrw := acc_of_accessOf_rw hacc
    by_cases hgf : g = f
    · subst hgf
      exact .inr (by rw [h.next_self hrw]; exact h.range hrw)
    · exact .inr (by rw [h.next_beside hgf (fun _ => hg) hrw]; exact (h.fits g hg hrw).2)
  · exact .inl hacc

/-- The RW fields take no value, but for `f` where it is one and `skip` does not name it. -/
theorem setFields_eq {skip : Fld → Bool} (hf : f.acc = .rw → skip f = true) :
    (d.wr au cls inst f v).setFields skip = d.b := by
  have hkeep : ∀ g ∈ l, ((d.wr au cls inst f v).hit g && !skip g) = false := by
    intro g hg
    by_cases hgf : g = f
    · subst hgf
      by_cases hrw : g.acc = .rw
      · simp [hf hrw]
      · have hacc : d.b.accessOf au cls inst g ≠ .rw := fun e => hrw (acc_of_accessOf_rw e)
        simp [Wr.hit, Wr.hits, hacc]
    · simp [h.hit_beside hgf fun _ => hg]
  simp only [Wr.setFields, Dev.wr_fields, h.fields, Dev.wr_d, Dev.wr_cls, Dev.wr_inst]
  exact List.foldlRecOn l _ (motive := fun b => b = d.b) rfl fun b hb g hg => by rw [hkeep g hg]; exact hb

theorem setAll_eq (hf : f.acc ≠ .rw) : (d.wr au cls inst f v).setAll = d.b :=
  h.setFields_eq fun hrw => absurd hrw hf

theorem hitAny_eq (hf : f.acc ≠ .rw) : (d.wr au cls inst f v).hitAny = false := by
  refine h.hits_beside fun g hg => ?_
  simp only [Dev.wr_fields, h.fields, List.mem_filter, Dev.wr_acc, beq_iff_eq] at hg
  exact ⟨fun hgf => hf (hgf ▸ acc_of_accessOf_rw hg.2), fun _ => hg.1⟩

/-- The word has no reserved 1. -/
theorem reservedOnes_eq : reservedOnes cls inst f.word (d.wordWith cls inst f.word f v) = 0 := by
  refine List.countP_eq_zero.2 fun k hk => ?_
  have hk : k < 32 := List.mem_range.1 hk
  simp only [wordWith_eq_sum, h.fields, testBit_sum_inWord _ h.apart, Fld.testBit_inWord, Bool.and_eq_true,
    Bool.not_eq_true', List.any_eq_true, List.any_eq_false, Fld.hasBit, decide_eq_true_eq, not_and]
  rintro ⟨g, hg, ⟨-, hin⟩, -⟩ hnone
  exact hnone g hg hin.1 hin.2

theorem countReserved_eq : d.b.countReserved cls inst f.word [d.wordWith cls inst f.word f v] = d.b := by
  refine if_pos (.inr ?_)
  have hone : wordsAt f.word [d.wordWith cls inst f.word f v] = [(f.word, d.wordWith cls inst f.word f v)] := by
    simp [wordsAt]
  rw [hone, List.sum_eq_zero_iff]
  simp only [List.mem_map, List.mem_filter, List.mem_singleton]
  rintro _ ⟨_, ⟨rfl, -⟩, rfl⟩
  exact h.reservedOnes_eq

theorem readOnly_eq : d.b.readOnly au cls inst f.word 1 = false := by
  have hacc : d.b.accessOf au cls inst f ≠ .ro := fun e => absurd (e ▸ h.writable) (by decide)
  simpa [Body.readOnly, h.fields] using ⟨f, h.mem, hacc⟩

/-- A write that its class's rules let through is done (R416). -/
theorem fieldWrite_done {b : Body} (hanswered : d.b.adm.unanswered = false)
    (hthere : instExists d.b.nLogN cls inst = true) (hreach : d.b.reaches au cls inst true = true)
    (htick : isTick cls inst = false) (hlast : f.word ≤ lastWord cls inst)
    (hjudge : (d.wr au cls inst f v).judge = Verdict.fine) (hact : (d.wr au cls inst f v).act = (stOk, b)) :
    d.fieldWrite au cls inst f v = (stOk, 0xFFFF, { d with b := b }) := by
  have hwords : (f.lo + f.width - 1) / 32 + 1 - f.word = 1 := by
    have hin := h.inWordOf
    have hsingle := h.single
    simp only [Fld.inWordOf, decide_eq_true_eq] at hin
    omega
  have hcheck : (d.wr au cls inst f v).check = stOk := by rw [Wr.check, hjudge, h.inRange]; rfl
  have hwrite : (d.wr au cls inst f v).write = (stOk, { d with b := b }) := by
    simp [Wr.write, htick, hcheck, hact]
  have hwr : Wr.mk d au cls inst f.word (d.wordWith cls inst f.word f v) (wordsAt (f.word + 1) []) =
    d.wr au cls inst f v := rfl
  simp only [Dev.fieldWrite, hwords, List.range_one, List.map_cons, List.map_nil, Nat.add_zero, Dev.objWrite, hanswered,
    hthere, hreach, h.countReserved_eq, List.length_singleton, h.readOnly_eq, Dev.writeWords, Nat.not_lt.2 hlast,
    hwr, hwrite]
  simp

end Dev.WritesAlone

/-- An access that is admitted is made, and what it lets happen has happened (R376, R431, R454). -/
theorem accessIn_admitted {s : State} {au : Auth} {cls inst : Nat} {write : Bool} (ha : Admits s au cls inst write)
    (sleep f : Dev → Dev) : (Dev.mk s.tm s.b).accessIn au sleep f =
      { f ⟨s.tm, s.b⟩ with b := (f ⟨s.tm, s.b⟩).b.settle (f ⟨s.tm, s.b⟩).tm } := by
  obtain ⟨hruns, hawake, hpage, -, -, -⟩ := ha
  cases au with
  | biv => simp [Dev.accessIn, hruns, hawake]
  | host t => simp [Dev.accessIn, hruns, hawake, hpage t rfl]

/-- A command that writes one field, where the access is admitted and the rules let it through. -/
theorem fieldCommand_done {s : State} {au : Auth} {cls inst : Nat} {f : Fld} {v : Nat} {l : List Fld} {b : Body}
    (ha : Admits s au cls inst true) (h : (Dev.mk s.tm s.b).WritesAlone au cls inst f v l)
    (htick : isTick cls inst = false) (hlast : f.word ≤ lastWord cls inst)
    (hjudge : ((Dev.mk s.tm s.b).wr au cls inst f v).judge = Verdict.fine)
    (hact : ((Dev.mk s.tm s.b).wr au cls inst f v).act = (stOk, b)) :
    fieldCommand au cls inst f v s = .next (s.answered b) := by
  have hdone := h.fieldWrite_done ha.answered ha.there ha.reach htick hlast hjudge hact
  simp only [fieldCommand, onDev, Dev.accessOf, accessIn_admitted ha, hdone, Dev.answerWrite, State.answered]

section
variable {s : State} {au : Auth} {cls inst : Nat} {f : Fld} {v : Nat} {l : List Fld}
  (hfields : fieldsOfWord cls inst f.word = l) (hplace : f ∈ l ∧ f.lo + f.width ≤ 32 * f.word + 32 ∧ l.Pairwise Fld.Apart)
  (hwr : (s.b.accessOf au cls inst f).writable = true) (hv : v < 2 ^ f.width)
include hfields hplace hwr hv

theorem writesAlone_of_fits (hrange : f.acc = .rw → f.inRange v = true) (hfits : s.Fits cls inst f.word) :
    (Dev.mk s.tm s.b).WritesAlone au cls inst f v l :=
  ⟨hfields, hplace.1, hplace.2.1, hplace.2.2, hwr, hv, hrange, fun g hg => hfits g (hfields ▸ hg)⟩

/-- In a word without RW fields nothing has to fit. -/
theorem writesAlone_of_noRw (hno : ∀ g ∈ l, g.acc ≠ .rw) : (Dev.mk s.tm s.b).WritesAlone au cls inst f v l :=
  writesAlone_of_fits hfields hplace hwr hv (fun e => absurd e (hno f hplace.1))
    fun g hg e => absurd e (hno g (hfields ▸ hg))

end

end Sys2Proof.Machine
end

section
/-! Object writes that act (R75, R110, R126, R286, R292, R300, R393, R401, R447, Tables 5.9, 12.8, 16.9): what each does where
the access is admitted and the word fits. -/

namespace Sys2Proof.Machine

theorem act_intake {w : Wr} (h : w.cls = clsIntake) : w.act = w.actIntake := by simp [Wr.act, h, clsIntake]
theorem act_table {w : Wr} (h : w.cls = clsTable ∨ w.cls = clsPrefix) : w.act = w.actTable := by
  rcases h with h | h <;> simp [Wr.act, h, clsTable, clsPrefix]
theorem act_tent {w : Wr} (h : w.cls = clsTent) : w.act = w.actTent := by simp [Wr.act, h, clsTent]

/-! Queues (Table 5.9, R123, R126). -/

@[simp] theorem weir_syncReady (b : Body) (q p : Nat) : (b.syncReady q).weir p = b.weir p := by
  unfold Body.syncReady
  split
  · split <;> rfl
  · rfl

theorem weir_fset_of_ne (b : Body) (q : Nat) {f : Fld} (hf : f.lo ≠ FQueue.weirLevel.lo) (v : Nat) :
    (b.fset clsQueue q f v).weir q = b.weir q := by
  have hkey : fieldKey clsQueue q FQueue.weirLevel.lo ≠ fieldKey clsQueue q f.lo := by
    unfold fieldKey
    omega
  rw [Body.weir, Body.fget_fset_ne b hkey v]
  rfl

/-- Where E is what it was, OVER_SHARE can only clear. -/
theorem checkOver_weir (b : Body) (q : Nat) : b.checkOver q (b.weir q) = b.checkUnder q :=
  if_neg fun h => by omega

theorem judgeQueue_fine {w : Wr} (hcls : w.cls = clsQueue) (hword : FQueue.homeFurrow.inWordOf w.off = false) :
    w.judge = Verdict.fine := by
  simp [Wr.judge, hcls, clsQueue, Wr.judgeQueue, hword, Verdict.fine]

theorem accessOf_queue (b : Body) (au : Auth) (q : Nat) (f : Fld) : b.accessOf au clsQueue q f = f.acc := by
  cases au <;> rfl

theorem execHwReset_eq {s : State} {au : Auth} {q : Nat} (ha : Admits s au clsQueue q true)
    (hfits : s.Fits clsQueue q FQueue.hwReset.word) :
    execHwReset au q s = .next (s.answered
      (((s.b.fset clsQueue q FQueue.highWater (s.b.depth q)).syncReady q).checkUnder q)) := by
  have hacc := accessOf_queue s.b au q FQueue.hwReset
  have h : (Dev.mk s.tm s.b).WritesAlone au clsQueue q FQueue.hwReset 1
      [FQueue.weirLevel, FQueue.highWater, FQueue.hwReset, FQueue.overShare, FQueue.enable, FQueue.ready] :=
    writesAlone_of_fits rfl (by decide) (by rw [hacc]; rfl) (by decide) (by decide) hfits
  have hflags := h.bits_beside (g := FQueue.flags) (by decide) (by decide) (by decide)
  have hset := h.bits_beside (g := FQueue.flagSet) (by decide) (by decide) (by decide)
  have hbind := h.hits_beside (m := [FQueue.cluster, FQueue.group]) (by decide)
  have hweir := weir_fset_of_ne s.b q (f := FQueue.highWater) (by decide) (s.b.depth q)
  refine fieldCommand_done ha h rfl (show 1 ≤ 6 by decide) (judgeQueue_fine rfl rfl) ?_
  change (stOk, Wr.actQueue _) = _
  simp only [Wr.actQueue, Wr.acts, h.does_self hacc rfl, when, if_true, h.setAll_eq (by decide), hflags, hset, hbind,
    Dev.wr_inst, Dev.wr_d, Bool.false_eq_true, if_false]
  rw [← checkOver_weir, weir_syncReady, hweir]

theorem execFlagSet_eq {s : State} {au : Auth} {q : Nat} (ha : Admits s au clsQueue q true) {flags : BitVec 16}
    (hne : flags ≠ 0) :
    execFlagSet au q flags s = .next (s.answered ((((s.b.fset clsQueue q FQueue.flags
      (s.b.fget clsQueue q FQueue.flags ||| flags.toNat / 2 * 2)).syncReady q).syncReady q).checkUnder q)) := by
  have hacc := accessOf_queue s.b au q FQueue.flagSet
  have h : (Dev.mk s.tm s.b).WritesAlone au clsQueue q FQueue.flagSet flags.toNat [FQueue.flagSet] :=
    writesAlone_of_noRw rfl (by decide) (by rw [hacc]; rfl) flags.isLt (by decide)
  have hflags := h.bits_beside (g := FQueue.flags) (by decide) (by decide) (by decide)
  have hreset := h.does_beside (g := FQueue.hwReset) (by decide) (by decide) (by decide)
  have hbind := h.hits_beside (m := [FQueue.cluster, FQueue.group]) (by decide)
  have hsome : flags.toNat ≠ 0 := fun e => hne (BitVec.eq_of_toNat_eq e)
  have hweir := weir_fset_of_ne s.b q (f := FQueue.flags) (by decide)
    (s.b.fget clsQueue q FQueue.flags ||| flags.toNat / 2 * 2)
  refine fieldCommand_done ha h rfl (show 6 ≤ 6 by decide) (judgeQueue_fine rfl rfl) ?_
  change (stOk, Wr.actQueue _) = _
  simp only [Wr.actQueue, Wr.acts, hreset, when, h.setAll_eq (by decide), hflags, h.bits_self, hsome, hbind,
    Dev.wr_inst, Dev.wr_d, Bool.false_eq_true, if_false, if_true, Body.setFlags]
  rw [← checkOver_weir, weir_syncReady, weir_syncReady, hweir]

/-! Pools (Table 12.8). -/

theorem execLwReset_eq {s : State} {p : Nat} (hp : p < 8) (ha : Admits s .biv clsPool p true) :
    let b1 := s.b.noteLowWater p
    execLwReset .biv p s = .next (s.answered (b1.fset clsPool p FPool.lowWater (b1.freeOnchip p + b1.freeDram p))) := by
  have hfields : fieldsOfWord clsPool p FPool.lwReset.word =
      [FPool.poolNum, FPool.sizeLog2, FPool.refcounted, FPool.lwReset] := by interval_cases p <;> rfl
  have h : (Dev.mk s.tm s.b).WritesAlone .biv clsPool p FPool.lwReset 1 _ :=
    writesAlone_of_noRw hfields (by decide) rfl (by decide) (by decide)
  have hcounts := h.hits_beside (m := [FPool.onchipCount, FPool.dramCount]) (by decide)
  refine fieldCommand_done ha h rfl (Nat.zero_le _) ?_ ?_
  · change Wr.judgePool _ = _
    simp [Wr.judgePool, hp, hcounts, Verdict.fine]
  · change (stOk, Wr.actPool _) = _
    simp only [Wr.actPool, Wr.acts, h.does_self rfl rfl, when, h.setAll_eq (by decide), Dev.wr_inst, hp, if_true]

/-! Basin slots (R292, R300). -/

theorem accessOf_basin (b : Body) (au : Auth) (i : Nat) (f : Fld) : b.accessOf au clsBasin i f = f.acc := by
  cases au <;> rfl

theorem slotInst_ge (a : Nat) : 0x100000 ≤ slotInst a := Nat.le_add_right _ _

theorem fieldsOfInst_slot (a : Nat) : fieldsOfInst clsBasin (slotInst a) = FSlot.all ++ FForce.all := by
  have hge := slotInst_ge a
  simp only [fieldsOfInst, clsBasin]
  rw [if_neg (by omega), if_neg (by omega), if_neg (by omega), if_neg (by omega)]

theorem fieldsOfWord_force (a : Nat) : fieldsOfWord clsBasin (slotInst a) 4 =
    [FForce.forceValue, FForce.forceQuality, FForce.force, FForce.unforce] := by
  rw [fieldsOfWord, fieldsOfInst_slot]
  rfl

theorem lastWord_slot (a : Nat) : lastWord clsBasin (slotInst a) = 4 := by
  unfold lastWord
  rw [fieldsOfInst_slot]
  rfl

theorem judgeBasin_slot {w : Wr} {a : Nat} (hinst : w.inst = slotInst a)
    (hone : w.bits FForce.force = 0 ∨ w.bits FForce.unforce = 0) : w.judgeBasin = Verdict.fine := by
  have hge := slotInst_ge a
  simp only [Wr.judgeBasin, hinst]
  rw [if_neg (by omega), if_neg (by omega), if_neg (by omega), if_neg (by omega)]
  rcases hone with h | h <;> simp [h, Verdict.fine]

/-- What a word of a slot that leaves CFG_INDEX alone does: a force, then an unforce. -/
theorem actBasin_slot {w : Wr} {a : Nat} (hinst : w.inst = slotInst a) {b : Body}
    (hset : w.setFields (fun f => decide (f = FSlot.cfgIndex ∧ 0x100000 ≤ w.inst)) = b)
    (hcfg : w.hit FSlot.cfgIndex = false) : w.actBasin = w.tries FForce.unforce (fun x => x.basinObject a .unforce)
      (w.tries FForce.force (fun x => x.basinObject a (x.forceOp w.d.tm a)) (stOk, b)) := by
  have hge : 0x100000 ≤ w.inst := hinst ▸ slotInst_ge a
  have ha : w.inst - 0x100000 = a := by rw [hinst]; exact Nat.add_sub_cancel_left _ _
  simp only [Wr.actBasin, hset, if_pos hge, hcfg, ha, Bool.false_eq_true, if_false]

theorem basinObject_room {b : Body} (hroom : b.basinRoom 1 = true) (a : Nat) (op : BasinOp) :
    b.basinObject a op = (stOk, b.basinEnter ⟨b.clock, 2000, b.slotTent a, b.slotRel a, op⟩) := if_pos hroom

section
variable {s : State} {au : Auth} {a : Nat} (ha : Admits s au clsBasin (slotInst a) true)
  (hroom : s.b.basinRoom 1 = true)
include ha hroom

theorem execCfgIndexWrite_eq (v : BitVec 16) :
    execCfgIndexWrite au a v s = .next (s.answered (s.b.basinEnter
      ⟨s.b.clock, 2000, s.b.slotTent a, s.b.slotRel a, .cfg v.toNat⟩)) := by
  have hdone : (Dev.mk s.tm s.b).cfgIndexWrite au a v.toNat = (stOk, 0xFFFF, ⟨s.tm, s.b.basinEnter
      ⟨s.b.clock, 2000, s.b.slotTent a, s.b.slotRel a, .cfg v.toNat⟩⟩) := by
    simp [Dev.cfgIndexWrite, ha.there, ha.reach, basinObject_room hroom]
  simp only [execCfgIndexWrite, onDev, Dev.access, accessIn_admitted ha, hdone, Dev.answerWrite, State.answered]

variable (hfits : s.Fits clsBasin (slotInst a) FForce.force.word)
include hfits

theorem execForce_eq : execForce au a s = .next (s.answered (s.b.basinEnter
    ⟨s.b.clock, 2000, s.b.slotTent a, s.b.slotRel a, s.b.forceOp s.tm a⟩)) := by
  have hacc := accessOf_basin s.b au (slotInst a) FForce.force
  have h : (Dev.mk s.tm s.b).WritesAlone au clsBasin (slotInst a) FForce.force 1 _ :=
    writesAlone_of_fits (fieldsOfWord_force a) (by decide) (by rw [hacc]; rfl) (by decide) (by decide) hfits
  have hun := h.bits_beside (g := FForce.unforce) (by decide) (by decide) (by decide)
  have hdo := h.does_beside (g := FForce.unforce) (by decide) (by decide) (by decide)
  refine fieldCommand_done ha h rfl (lastWord_slot a).ge (judgeBasin_slot rfl (.inr hun)) ?_
  refine (actBasin_slot rfl (h.setFields_eq fun e => absurd e (by decide)) (h.hit_beside (by decide) (by decide))).trans ?_
  simp [Wr.tries, h.does_self hacc rfl, hdo, basinObject_room hroom]

theorem execUnforce_eq : execUnforce au a s = .next (s.answered (s.b.basinEnter
    ⟨s.b.clock, 2000, s.b.slotTent a, s.b.slotRel a, .unforce⟩)) := by
  have hacc := accessOf_basin s.b au (slotInst a) FForce.unforce
  have h : (Dev.mk s.tm s.b).WritesAlone au clsBasin (slotInst a) FForce.unforce 1 _ :=
    writesAlone_of_fits (fieldsOfWord_force a) (by decide) (by rw [hacc]; rfl) (by decide) (by decide) hfits
  have hforce := h.bits_beside (g := FForce.force) (by decide) (by decide) (by decide)
  have hdo := h.does_beside (g := FForce.force) (by decide) (by decide) (by decide)
  refine fieldCommand_done ha h rfl (lastWord_slot a).ge (judgeBasin_slot rfl (.inl hforce)) ?_
  refine (actBasin_slot rfl (h.setFields_eq fun e => absurd e (by decide)) (h.hit_beside (by decide) (by decide))).trans ?_
  simp [Wr.tries, h.does_self hacc rfl, hdo, basinObject_room hroom]

end

/-! Swaps (R75, R110). -/

theorem execEpochSwap_eq {s : State} (ha : Admits s .biv clsIntake 0 true)
    (hfree : s.b.epochLive (1 - s.b.fget clsIntake 0 FIntake.activeEpoch) = false) :
    execEpochSwap .biv s = .next (s.answered { s.b with net.swapping := true }) := by
  have h : (Dev.mk s.tm s.b).WritesAlone .biv clsIntake 0 FIntake.swap 1 [FIntake.activeEpoch, FIntake.swap, FIntake.live] :=
    writesAlone_of_noRw rfl (by decide) rfl (by decide) (by decide)
  refine fieldCommand_done ha h rfl (Nat.zero_le _) ?_ ?_
  · change Wr.judgeIntake _ = _
    simp [Wr.judgeIntake, intakeEpoch, Verdict.fine]
  · rw [act_intake rfl]
    simp [Wr.actIntake, Wr.tries, h.setAll_eq (by decide), h.does_self rfl rfl, Body.epochSwap, hfree]

/-- The cycle after an accepted swap (R110, R447). -/
theorem endSwap_pending {b : Body} (hpending : b.net.swapping = true) :
    let b1 := ({ b with net.swapping := false }.fset clsIntake 0 FIntake.activeEpoch
      (1 - b.fget clsIntake 0 FIntake.activeEpoch)).bump clsIntake 0 FIntake.swaps 1
    b.endSwap = (if b.sys.base = .service ∨ b.sys.base = .degraded then
      ({ b1 with sys.prevBase := b.sys.base } : Body).setBase .update else b1).epochRetired := by
  rw [Body.endSwap, if_pos hpending]
  rfl

theorem execGateListSwap_eq {s : State} {p : Nat} (ha : Admits s .biv clsEgress p true)
    (hfits : s.Fits clsEgress p FEgress.swap.word) :
    execGateListSwap .biv p s = .next (s.answered (s.b.fset clsEgress p FEgress.swapPending 1)) := by
  have h : (Dev.mk s.tm s.b).WritesAlone .biv clsEgress p FEgress.swap 1
      [FEgress.cycleMult, FEgress.swap, FEgress.swapPending, FEgress.adminLen, FEgress.operLen] :=
    writesAlone_of_fits rfl (by decide) rfl (by decide) (by decide) hfits
  refine fieldCommand_done ha h rfl (Nat.zero_le _) ?_ ?_
  · change Wr.judgeEgress _ = _
    simp [Wr.judgeEgress, h.hitAny_eq (by decide), Verdict.fine]
  · change (stOk, Wr.acts _ _ _ _) = _
    simp [Wr.acts, when, h.does_self rfl rfl, h.setAll_eq (by decide)]

/-! Management (R393, R401, R447, Table 16.9). -/

/-- The word of a core whose handover runs, in its time (R447). -/
theorem fwReady_started {b : Body} {tm : Time} {f : Handover} (hfw : b.adm.fw = some f) (hstarted : f.started = true)
    (htime : (tm.now + 2 ^ 64 - f.since) % 2 ^ 64 ≤ twoSeconds) :
    b.fwReady tm = ({ b with adm.fw := none, adm.fwActive := f.slot, adm.mailbox.ready := true }.fset clsPower 0
      FPower.bootSlot f.slot).leaveUpdate := by
  unfold Body.fwReady
  rw [hfw]
  exact if_pos ⟨hstarted, htime⟩

theorem execFwReady_eq {s : State} {f : Handover} (ha : Admits s .biv clsPower 0 true)
    (hfits : s.Fits clsPower 0 FPower.fwReady.word) (hfw : s.b.adm.fw = some f) (hstarted : f.started = true)
    (htime : (s.tm.now + 2 ^ 64 - f.since) % 2 ^ 64 ≤ twoSeconds) :
    execFwReady .biv s = .next (s.answered
      (({ s.b with adm.fw := none, adm.fwActive := f.slot, adm.mailbox.ready := true }.fset clsPower 0 FPower.bootSlot
        f.slot).leaveUpdate)) := by
  have h : (Dev.mk s.tm s.b).WritesAlone .biv clsPower 0 FPower.fwReady 1 (fieldsOfWord clsPower 0 0) :=
    writesAlone_of_fits rfl (by decide) rfl (by decide) (by decide) hfits
  have hmeas := h.hits_beside (m := [FPower.measLoMv, FPower.measHiMv]) (by decide)
  have hckpt := h.hit_beside (g := FPower.ckptMs) (by decide) (by decide)
  refine fieldCommand_done ha h rfl (Nat.zero_le _) ?_ ?_
  · change Wr.judgePower _ = _
    simp [Wr.judgePower, hmeas, hckpt, Verdict.fine]
  · change (stOk, Wr.acts _ _ _ _) = _
    simp only [Wr.acts, when, h.does_self rfl rfl, h.setAll_eq (by decide), if_true, Dev.wr_d,
      fwReady_started hfw hstarted htime]

theorem execKick_eq {s : State} {j : Nat} (hj : j < 4) (ha : Admits s .biv clsDevice (1 + j) true) :
    execKick .biv j s = .next (s.answered { s.b with adm.kicks := mapPut j s.tm.now s.b.adm.kicks }) := by
  have hbelow : below 5 (1 + j) = 1 + j := if_pos (by omega)
  have hfields : fieldsOfWord clsDevice (1 + j) FBiv.kick.word = [FBiv.kick] := by interval_cases j <;> rfl
  have hlast : FBiv.kick.word ≤ lastWord clsDevice (1 + j) := by interval_cases j <;> decide
  have h : (Dev.mk s.tm s.b).WritesAlone .biv clsDevice (1 + j) FBiv.kick 1 _ :=
    writesAlone_of_noRw hfields (by decide) rfl (by decide) (by decide)
  rw [execKick, hbelow]
  refine fieldCommand_done ha h rfl hlast rfl ?_
  change (stOk, Wr.actDevice _) = _
  have hcore : 1 + j ≤ 4 := by omega
  simp [Wr.actDevice, hcore, Wr.acts, when, h.does_self rfl rfl, h.setAll_eq (by decide), Body.kick]

theorem fieldsOfInst_key (k : Nat) : fieldsOfInst clsDevice (0x100 + k) = FKey.all := by
  simp only [fieldsOfInst, clsDevice]
  rw [if_neg (by omega), if_neg (by omega)]

theorem execKeyClear_eq {s : State} {k : Nat} (ha : Admits s .biv clsDevice (0x100 + k) true) :
    let b1 := { (s.b.fset clsDevice (0x100 + k) FKey.valid 0).fset clsDevice (0x100 + k) FKey.seen 0 with
      adm.keys := mapDel k s.b.adm.keys }
    execKeyClear .biv k s = .next (s.answered (if k = 0xFF then b1.fset clsDevice 0 FDevice.bivKeyValid 0 else b1)) := by
  have hfields : fieldsOfWord clsDevice (0x100 + k) FKey.clear.word = [FKey.valid, FKey.clear] := by
    rw [fieldsOfWord, fieldsOfInst_key]
    rfl
  have h : (Dev.mk s.tm s.b).WritesAlone .biv clsDevice (0x100 + k) FKey.clear 1 _ :=
    writesAlone_of_noRw hfields (by decide) rfl (by decide) (by decide)
  have hsender (n : Nat) (hn : n < 4) : ((Dev.mk s.tm s.b).wr .biv clsDevice (0x100 + k) FKey.clear 1).hit (FKey.sender n) =
    false := by interval_cases n <;> exact h.hit_beside (by decide) (by decide)
  refine fieldCommand_done ha h rfl (Nat.zero_le _) rfl ?_
  change (stOk, Wr.actDevice _) = _
  have h0 : ¬ 0x100 + k = 0 := by omega
  have h1 : ¬ 0x100 + k ≤ 4 := by omega
  have hk : 0x100 + k - 0x100 = k := Nat.add_sub_cancel_left _ _
  simp only [Wr.actDevice, Dev.wr_inst, h0, h1, hk, if_false, h.setAll_eq (by decide), List.range, List.range.loop,
    List.foldl_cons, List.foldl_nil, hsender 0 (by decide), hsender 1 (by decide), hsender 2 (by decide),
    hsender 3 (by decide), Bool.false_eq_true, Wr.acts, when, h.does_self rfl rfl, if_true]

theorem execRepitch_eq {s : State} {k : Fin 7} (ha : Admits s .biv clsTent 0x100 true)
    (hfits : s.Fits clsTent 0x100 FTents.repitch.word) (hmode : s.b.tentMode = true)
    (hn : nLogOf (s.b.fget clsTent 0x100 FTents.nNext) = some k) (hidle : s.b.pitchPending = false)
    (htents : s.b.pitchTentsOk k.val = true) (hqueues : s.b.pitchQueuesOk k.val = true)
    (htables : s.b.pitchTablesOk k.val = true) :
    execRepitch .biv s = .next (s.answered (s.b.fset clsTent 0x100 FTents.repitchPending 1)) := by
  have h : (Dev.mk s.tm s.b).WritesAlone .biv clsTent 0x100 FTents.repitch 1
      [FTents.n, FTents.nNext, FTents.repitch, FTents.repitchPending] :=
    writesAlone_of_fits rfl (by decide) rfl (by decide) (by decide) hfits
  refine fieldCommand_done ha h rfl (Nat.zero_le _) rfl ?_
  rw [act_tent rfl]
  simp [Wr.actTent, Wr.tries, h.does_self rfl rfl, h.setAll_eq (by decide), Body.repitchWrite, hmode, hn, hidle, htents,
    hqueues, htables]

/-! Tables (R286). -/

theorem tableEnable_on {b : Body} {pre : Bool} {n : Nat}
    (hoff : b.fget (if pre then clsPrefix else clsTable) n FTable.enable = 0) (hcheck : b.enableCheck pre n = stOk) :
    b.tableEnable pre n true = (stOk, ((b.freeEntries pre n).fset (if pre then clsPrefix else clsTable) n FTable.enable 1).fset
      (if pre then clsPrefix else clsTable) n FTable.clearing 1) := by
  simp [Body.tableEnable, hoff, hcheck]

theorem tableEnable_off {b : Body} {pre : Bool} {n : Nat}
    (hon : b.fget (if pre then clsPrefix else clsTable) n FTable.enable = 1) :
    let x := (b.endWalk n).uncountAll n
    let y := x.freeEntries false n
    let b1 := if pre then (b.freeEntries true n).fset clsPrefix n FPrefix.prefixes 0
      else { y.fset clsTable n FTable.entries 0 with
        tab.shadows := mapDel n y.tab.shadows
        tab.ager := y.tab.ager.map (fun e => if e.1 = n then (n, (0, e.2.2)) else e) }
    b.tableEnable pre n false = (stOk, (b1.fset (if pre then clsPrefix else clsTable) n FTable.enable 0).fset
      (if pre then clsPrefix else clsTable) n FTable.clearing 0) := by
  simp [Body.tableEnable, hon]

/-- A word that changes ENABLE alone. -/
theorem actTable_enable {d : Dev} {cls n v : Nat} {l : List Fld} (h : d.WritesAlone .biv cls n FTable.enable v l)
    (hchange : v ≠ d.view cls n FTable.enable) : (d.wr .biv cls n FTable.enable v).actTable =
      d.b.tableEnable (decide (cls = clsPrefix)) n (v == 1) := by
  have hset := h.setFields_eq (skip := fun f => decide (f = FTable.enable)) fun _ => by decide
  have hissue := h.does_beside (g := FTable.cmdIssue) (by decide) (fun e => absurd e (by decide)) (by decide)
  simp only [Wr.actTable, hset, h.hit_self rfl hchange, h.next_self rfl, Wr.tries, hissue, Dev.wr_cls, Dev.wr_inst, if_true,
    Bool.false_eq_true, and_false, if_false]
  exact ite_self _

section
variable {s : State} {n v : Nat} {b : Body} (hv : v < 2)
include hv

theorem fieldCommand_enable_table (ha : Admits s .biv clsTable n true) (hfits : s.Fits clsTable n 0)
    (hchange : v ≠ s.b.fget clsTable n FTable.enable) (hdone : s.b.tableEnable false n (v == 1) = (stOk, b)) :
    fieldCommand .biv clsTable n FTable.enable v s = .next (s.answered b) := by
  have h : (Dev.mk s.tm s.b).WritesAlone .biv clsTable n FTable.enable v
      [FTable.enable, FTable.clearing, FTable.kind, FTable.portEn, FTable.portLsb, FTable.tent, FTable.sizeLog2] :=
    writesAlone_of_fits rfl (by decide) rfl hv (fun _ => by simp [Fld.inRange, FTable.enable, Nat.mod_one]) hfits
  have htent := h.hit_beside (g := FTable.tent) (by decide) (by decide)
  have hsize := h.hits_beside (m := [FTable.kind, FTable.sizeLog2]) (by decide)
  have hbase := h.hits_beside (m := [FTable.kind, FTable.base]) (by decide)
  have hshadow := h.hits_beside (m := [FTable.shadowEn, FTable.kind]) (by decide)
  have hconfig := h.hits_beside (m := [FTable.kind, FTable.tent, FTable.sizeLog2, FTable.seed0, FTable.seed1, FTable.base,
    FTable.portEn, FTable.portLsb]) (by decide)
  have hissue := h.bits_beside (g := FTable.cmdIssue) (by decide) (by decide) (by decide)
  refine fieldCommand_done ha h rfl (Nat.zero_le _) ?_ ?_
  · change Wr.judgeTable _ = _
    simp only [Wr.judgeTable, htent, hsize, hbase, hshadow, hconfig, hissue, Bool.not_false, Bool.true_or, Bool.false_and,
      Bool.and_true]
    rfl
  · rw [act_table (.inl rfl), actTable_enable h hchange]
    exact hdone

theorem fieldCommand_enable_prefix (ha : Admits s .biv clsPrefix n true) (hfits : s.Fits clsPrefix n 0)
    (hchange : v ≠ s.b.fget clsPrefix n FTable.enable) (hdone : s.b.tableEnable true n (v == 1) = (stOk, b)) :
    fieldCommand .biv clsPrefix n FTable.enable v s = .next (s.answered b) := by
  have h : (Dev.mk s.tm s.b).WritesAlone .biv clsPrefix n FTable.enable v
      [FPrefix.enable, FPrefix.clearing, FPrefix.family, FPrefix.tent, FPrefix.sizeLog2] :=
    writesAlone_of_fits rfl (by decide) rfl hv (fun _ => by simp [Fld.inRange, FTable.enable, Nat.mod_one]) hfits
  have htent := h.hit_beside (g := FPrefix.tent) (by decide) (by decide)
  have hconfig := h.hits_beside (m := [FPrefix.tent, FPrefix.sizeLog2, FPrefix.seed0, FPrefix.seed1, FPrefix.base,
    FPrefix.filterBase, FPrefix.countBase]) (by decide)
  refine fieldCommand_done ha h rfl (Nat.zero_le _) ?_ ?_
  · change Wr.judgePrefix _ = _
    simp only [Wr.judgePrefix, htent, hconfig, Bool.not_false, Bool.true_or, Bool.false_and]
    rfl
  · rw [act_table (.inr rfl), actTable_enable h hchange]
    exact hdone

end

theorem execTableEnable_done {s : State} {pre on : Bool} {n : Nat} {b : Body}
    (ha : Admits s .biv (if pre then clsPrefix else clsTable) n true) (hfits : s.Fits (if pre then clsPrefix else clsTable) n 0)
    (hwas : s.b.fget (if pre then clsPrefix else clsTable) n FTable.enable = if on then 0 else 1)
    (hdone : s.b.tableEnable pre n on = (stOk, b)) : execTableEnable .biv pre n on s = .next (s.answered b) := by
  have hv : (if on then 1 else 0) < 2 := by cases on <;> decide
  have hon : ((if on then 1 else 0) == 1) = on := by cases on <;> rfl
  have hchange : (if on then 1 else 0) ≠ s.b.fget (if pre then clsPrefix else clsTable) n FTable.enable := by
    rw [hwas]
    cases on <;> decide
  cases pre with
  | false => exact fieldCommand_enable_table hv ha hfits hchange (hon.symm ▸ hdone)
  | true => exact fieldCommand_enable_prefix hv ha hfits hchange (hon.symm ▸ hdone)

end Sys2Proof.Machine

namespace Sys2Proof
open Machine

/-- Settles O10: each write from what the word that writes one field alone does. -/
theorem queueAndPoolWrites : Obligations.QueueAndPoolWrites := by
  unfold Obligations.QueueAndPoolWrites
  refine ⟨⟨fun s au q ha => ⟨execHwReset_eq ha, fun flags => execFlagSet_eq ha⟩, fun s p hp => execLwReset_eq hp,
    fun s au a ha hroom => ?_⟩, fun s => execEpochSwap_eq, fun b => endSwap_pending, fun s p => execGateListSwap_eq,
    fun s f => execFwReady_eq, fun s j hj => execKick_eq hj, fun s k => execKeyClear_eq, fun s k => execRepitch_eq,
    fun s pre n => ?_⟩
  · intro enter
    exact ⟨fun hfits => ⟨execForce_eq ha hroom hfits, execUnforce_eq ha hroom hfits⟩, execCfgIndexWrite_eq ha hroom⟩
  · intro cls ha hfits
    exact ⟨fun hoff hcheck => execTableEnable_done ha hfits hoff (tableEnable_on hoff hcheck),
      fun hon => execTableEnable_done ha hfits hon (tableEnable_off hon)⟩

end Sys2Proof
end

section
/-! The way of an item out of its thread and out of the Outfall (R200, R238, R240 to R244): each command where its event can
occur. -/

namespace Sys2Proof.Machine

theorem execItemHandover_eq {s : State} {h : Nat} {divert : Bool} (hblock : (s.b.hart h).block = .handover divert)
    (hgoes : (s.b.hart h).halted = false) (hreplies : (s.b.hart h).awaits = false)
    (hkept : ∀ o, o ∈ s.b.work.commits → o.thread ≠ some h) :
    execItemHandover h s = .next { s with b := (s.b.handOver s.tm h divert).settle s.tm } := by
  have hnone : s.b.work.commits.any (fun o => decide (o.thread = some h)) = false :=
    List.any_eq_false.2 fun o ho => by simp [hkept o ho]
  simp [execItemHandover, onBuf, onBody, hblock, hgoes, hreplies, hnone]

theorem execLogStoreEntry_eq {s : State} {h : Nat} {o : OItem}
    (hlog : s.b.work.commits.find? (fun o => decide (o.thread = some h)) = some o) (hroom : s.b.logRoom o.item = true)
    (hgoes : (s.b.hart h).halted = false) :
    let b1 := { s.b with work.commits := s.b.work.commits.map (fun (x : OItem) =>
      if x.id = o.id then { x with place := .store, thread := none } else x) }
    execLogStoreEntry h s = .next { s with
      b := (((b1.logLeaves h o).logIn o.item).freeThread s.tm h).settle s.tm } := by
  simp [execLogStoreEntry, onBuf, onBody, hlog, hroom, hgoes]

/-- A release waits for its cycle, and is noted before it takes effect. -/
theorem release_of_next {d : Dev} {divert : Bool} {o : OItem} (hruns : d.b.runs = true)
    (hnext : d.b.nextRelease d.tm divert = some o) (f : Body → Time → OItem → Body) :
    let d1 := d.waitCycle (d.b.relCycleOf d.tm o)
    d.release divert f = { d1 with b := (f (d1.b.noteRelease d1.tm o.item) d1.tm o).settle d1.tm } := by
  simp only [Dev.release, hruns, hnext, if_true]

section
variable {s : State} {o : OItem} (hruns : s.b.runs = true)
include hruns

theorem execReleaseStart_eq (hnext : s.b.nextRelease s.tm false = some o) :
    let d := (Dev.mk s.tm s.b).waitCycle (s.b.relCycleOf s.tm o)
    execReleaseStart s = .next { s with
      tm := d.tm, b := ((d.b.noteRelease d.tm o.item).commitItem d.tm o).settle d.tm } := by
  rw [execReleaseStart, onDev, release_of_next (d := ⟨s.tm, s.b⟩) hruns hnext]

theorem execDiversionRelease_eq (hnext : s.b.nextRelease s.tm true = some o) :
    let d := (Dev.mk s.tm s.b).waitCycle (s.b.relCycleOf s.tm o)
    execDiversionRelease s = .next { s with
      tm := d.tm, b := ((d.b.noteRelease d.tm o.item).divertItem d.tm o).settle d.tm } := by
  rw [execDiversionRelease, onDev, release_of_next (d := ⟨s.tm, s.b⟩) hruns hnext]

end

end Sys2Proof.Machine

namespace Sys2Proof
open Machine

/-- Settles O37: handover, the log store, and the release of a commit and of a diversion. -/
theorem outfallCommandsComplete : Obligations.OutfallCommandsComplete := by
  unfold Obligations.OutfallCommandsComplete
  exact ⟨fun s h dv => execItemHandover_eq, fun s h o => execLogStoreEntry_eq,
    fun s o hruns => ⟨execReleaseStart_eq hruns, execDiversionRelease_eq hruns⟩⟩

end Sys2Proof
end

section
/-! Arithmetic instructions (R178 to R180, R182): the result and the flags that each writes at its core commit. -/

namespace Sys2Proof.Machine

/-- A word without an undefined selecting field and without a reserved field in use passes decode. -/
theorem badWord_fine {undefined reserved : Bool} (hu : undefined = false) (hr : reserved = false) :
    badWord undefined reserved = none := by
  rw [badWord, hu, hr]
  rfl

/-! What an instruction that issues and decodes writes. -/

section
variable {s : State} {h n : Nat} {r : Word} {fl : Flags}

theorem aluBinary_done {f : FmtA} {minor : Nat} {op : Word → Word → Flags → Word × Flags} (hi : Issues s h n)
    (hf : f.rsv = 0) (hop : op (s.b.reg h f.ra) (s.b.reg h f.rb) (s.b.hart h).flags = (r, fl)) :
    aluBinary h f minor n op s = .next (s.result h f.rd r fl n) :=
  (insn_result hi (badWord_fine rfl (by simp [hf]))).trans (by simp [hop])

theorem aluUnary_done {f : FmtA} {minor : Nat} {op : Word → Flags → Word × Flags} (hi : Issues s h) (hf : f.rsv = 0)
    (hrb : f.rb = 0) (hop : op (s.b.reg h f.ra) (s.b.hart h).flags = (r, fl)) :
    aluUnary h f minor op s = .next (s.result h f.rd r fl 1) :=
  (insn_result hi (badWord_fine rfl (by simp [hf, hrb]))).trans (by simp [hop])

theorem immOp_done {f : FmtB} {major : Nat} {bad : Option Nat} {op : Word → Flags → Word × Flags} (hi : Issues s h)
    (hbad : bad = none) (hop : op (s.b.reg h f.ra) (s.b.hart h).flags = (r, fl)) :
    immOp h f major bad op s = .next (s.result h f.rd r fl 1) :=
  (insn_result hi hbad).trans (by simp [hop])

end

/-! Flags of sums and differences (R179). -/

theorem Flags.sum_eq (fl : Flags) (a b : Word) : fl.sum a b = { fl with
    n := (a + b).msb, z := decide (a + b = 0), c := decide (2 ^ 32 ≤ a.toNat + b.toNat)
    v := decide (a.msb = b.msb ∧ (a + b).msb ≠ a.msb) } := by
  rw [Bool.decide_and]
  rfl

theorem Flags.difference_eq (fl : Flags) (a b : Word) : fl.difference a b = { fl with
    n := (a - b).msb, z := decide (a - b = 0), c := decide (b.toNat ≤ a.toNat)
    v := decide (a.msb ≠ b.msb ∧ (a - b).msb ≠ a.msb) } := by
  rw [Bool.decide_and]
  rfl

/-- Saturation sets V exactly where the value leaves 32 bits. -/
theorem saturate32_eq (x : Int) : saturate32 x =
    (if 0x7FFFFFFF < x then 0x7FFFFFFF else if x < -2 ^ 31 then 0x80000000 else BitVec.ofInt 32 x,
      decide (0x7FFFFFFF < x ∨ x < -2 ^ 31)) := by
  unfold saturate32
  split
  · next hover => simp only [hover, true_or, decide_true]
  · next hover =>
    split
    · next hunder => simp only [hover, hunder, or_true, decide_true]
    · next hunder => simp only [hover, hunder, or_self, decide_false]

/-! Products and quotients (R180). -/

/-- The low word of a product has its value exactly where the product fits 32 bits. -/
theorem toInt_mul_ne_iff (a b : Word) :
    (a * b).toInt ≠ a.toInt * b.toInt ↔ a.toInt * b.toInt < -2 ^ 31 ∨ 2 ^ 31 ≤ a.toInt * b.toInt := by
  rw [BitVec.toInt_mul]
  generalize a.toInt * b.toInt = x
  constructor
  · intro hne
    by_contra hfits
    exact hne (Int.bmod_eq_of_le (by omega) (by omega))
  · intro hout heq
    have hlow : -(((2 ^ 32 : Nat) : Int) / 2) ≤ x.bmod (2 ^ 32) := Int.le_bmod (by decide)
    have hhigh : x.bmod (2 ^ 32) < (((2 ^ 32 : Nat) : Int) + 1) / 2 := Int.bmod_lt (by decide)
    omega

/-- The one quotient of signed words that does not fit 32 bits (R180). -/
def divOverflows (a b : Word) : Bool := decide (a = 0x80000000 ∧ b = 0xFFFFFFFF)

theorem divSigned_eq (a b : Word) : divSigned a b =
    (if b = 0 then (if 0 ≤ a.toInt then 0x7FFFFFFF else 0x80000000)
      else if divOverflows a b then 0x80000000 else BitVec.ofInt 32 (a.toInt.tdiv b.toInt),
     if b = 0 then a else if divOverflows a b then 0 else BitVec.ofInt 32 (a.toInt - a.toInt.tdiv b.toInt * b.toInt),
     divOverflows a b && decide (b ≠ 0), decide (b = 0)) := by
  unfold divSigned divOverflows
  by_cases hzero : b = 0
  · have hsign : a.msb = !decide (0 ≤ a.toInt) := by rw [BitVec.msb_eq_toInt, ← decide_not, decide_eq_decide, not_le]
    by_cases hpos : 0 ≤ a.toInt <;> simp [hzero, hsign, hpos]
  · by_cases hover : a = 0x80000000 ∧ b = 0xFFFFFFFF
    · simp [hover]
    · simp only [hzero, hover, if_false, Int.tmod_def, Int.mul_comm]
      rfl

theorem divUnsigned_eq (a b : Word) : divUnsigned a b =
    (if b = 0 then 0xFFFFFFFF else BitVec.ofNat 32 (a.toNat / b.toNat),
     if b = 0 then a else BitVec.ofNat 32 (a.toNat - a.toNat / b.toNat * b.toNat), false, decide (b = 0)) := by
  unfold divUnsigned
  split
  · next hzero => simp only [hzero, decide_true]
  · next hzero => simp only [hzero, decide_false, Nat.mod_eq_sub_div_mul]

end Sys2Proof.Machine

namespace Sys2Proof
open Machine

/-- Settles O43: each instruction from its operation on the operands and the flags. -/
theorem arithmeticResults : Obligations.ArithmeticResults := by
  unfold Obligations.ArithmeticResults
  refine ⟨fun s h hi => ?_, fun s h f hi hf => ?_⟩
  · intro fl
    refine ⟨fun f hf => ⟨?add, ?sub, ?adds, ?subs, fun hrb => ?neg⟩, fun f => ⟨?addi, ?subi⟩⟩
    case add => exact show execAdd h f s = _ from aluBinary_done hi hf (by rw [Flags.sum_eq])
    case sub => exact show execSub h f s = _ from aluBinary_done hi hf (by rw [Flags.difference_eq])
    case adds => exact show execAdds h f s = _ from aluBinary_done hi hf (by rw [saturate32_eq]; rfl)
    case subs => exact show execSubs h f s = _ from aluBinary_done hi hf (by rw [saturate32_eq]; rfl)
    case neg => exact show execNeg h f s = _ from aluUnary_done hi hf hrb rfl
    case addi => exact show execAddi h f s = _ from immOp_done hi rfl (by rw [Flags.sum_eq])
    case subi => exact show execSubi h f s = _ from immOp_done hi rfl (by rw [Flags.difference_eq])
  · refine ⟨?mul, ?mulh, ?mulhu, fun hroom => ?_⟩
    case mul => exact show execMul h f s = _ from aluBinary_done hi hf (by simp only [toInt_mul_ne_iff]; rfl)
    case mulh => exact show execMulh h f s = _ from aluBinary_done hi hf rfl
    case mulhu => exact show execMulhu h f s = _ from aluBinary_done hi hf rfl
    have hlong : Issues s h 20 := ⟨hi.1, hroom⟩
    refine ⟨?div, ?rem, ?divu, ?remu⟩
    case div => exact show execDiv h f s = _ from aluBinary_done hlong hf (by rw [divSigned_eq]; rfl)
    case rem => exact show execRem h f s = _ from aluBinary_done hlong hf (by rw [divSigned_eq]; rfl)
    case divu => exact show execDivu h f s = _ from aluBinary_done hlong hf (by rw [divUnsigned_eq]; rfl)
    case remu => exact show execRemu h f s = _ from aluBinary_done hlong hf (by rw [divUnsigned_eq]; rfl)

end Sys2Proof
end

section
/-! Logical instructions, shifts and bit fields (R178, R181 to R183): the result that each writes, bit by bit for BFX. -/

namespace Sys2Proof.Machine

/-! Shifts (R181): an amount of 32 or more leaves nothing of the value but, for SAR, its sign. -/

theorem shiftBy_left (a : Word) (k : Nat) : shiftBy 0 a k = if 32 ≤ k then 0 else a <<< k :=
  (ite_eq_right_iff.2 fun hlong => (BitVec.shiftLeft_eq_zero hlong).symm).symm

theorem shiftBy_right (a : Word) (k : Nat) : shiftBy 1 a k = if 32 ≤ k then 0 else a >>> k :=
  (ite_eq_right_iff.2 fun hlong => (BitVec.ushiftRight_eq_zero hlong).symm).symm

theorem sshiftRight_of_le (a : Word) {k : Nat} (hk : 32 ≤ k) : a.sshiftRight k = if a.msb then 0xFFFFFFFF else 0 := by
  change _ = if a.msb then BitVec.allOnes 32 else 0
  refine BitVec.eq_of_getLsbD_eq fun i hi => ?_
  rw [BitVec.getLsbD_sshiftRight, if_neg (by omega)]
  cases a.msb with
  | false => simp
  | true =>
    rw [if_pos rfl, BitVec.getLsbD_allOnes]
    simp [hi]

theorem shiftBy_arith (a : Word) (k : Nat) :
    shiftBy 2 a k = if 32 ≤ k then (if a.msb then 0xFFFFFFFF else 0) else a.sshiftRight k :=
  (ite_eq_right_iff.2 fun hlong => (sshiftRight_of_le a hlong).symm).symm

/-- The five kinds of SHI, in the order of its selecting field. -/
theorem shiftBy_eq (kind : Nat) (a : Word) (k : Nat) : shiftBy kind a k = match kind with
    | 0 => if 32 ≤ k then 0 else a <<< k
    | 1 => if 32 ≤ k then 0 else a >>> k
    | 2 => if 32 ≤ k then (if a.msb then 0xFFFFFFFF else 0) else a.sshiftRight k
    | 3 => a.rotateLeft (k % 32)
    | _ => a.rotateRight (k % 32) :=
  match kind with
  | 0 => shiftBy_left a k
  | 1 => shiftBy_right a k
  | 2 => shiftBy_arith a k
  | 3 => rfl
  | _ + 4 => rfl

/-! Bit fields (R183). -/

theorem testBit_bitsAt (n lo w i : Nat) : (bitsAt n lo w).testBit i = (decide (i < w) && n.testBit (lo + i)) := by
  rw [bitsAt, Nat.testBit_mod_two_pow, Nat.testBit_div_two_pow, Nat.add_comm]

/-- Replaced bits are those of the value, the others those that stood there. -/
theorem testBit_setBits (old lo w v i : Nat) :
    (setBits old lo w v).testBit i = if lo ≤ i ∧ i < lo + w then v.testBit (i - lo) else old.testBit i := by
  have hparts : setBits old lo w v = 2 ^ lo * (2 ^ w * (old / 2 ^ lo / 2 ^ w) + v % 2 ^ w) + old % 2 ^ lo := by
    have hlow := Nat.div_add_mod old (2 ^ lo)
    have hhigh := Nat.div_add_mod (old / 2 ^ lo) (2 ^ w)
    rw [setBits, bitsAt]
    generalize old / 2 ^ lo % 2 ^ w = mid at *
    have hold : old = 2 ^ lo * (2 ^ w * (old / 2 ^ lo / 2 ^ w)) + mid * 2 ^ lo + old % 2 ^ lo := by
      rw [Nat.mul_comm mid, ← Nat.mul_add, hhigh, hlow]
    rw [Nat.mul_add, Nat.mul_comm _ (v % 2 ^ w)]
    omega
  have hmod (x n : Nat) : x % 2 ^ n < 2 ^ n := Nat.mod_lt x (Nat.two_pow_pos n)
  rw [hparts, Nat.testBit_two_pow_mul_add _ (hmod _ _), Nat.testBit_two_pow_mul_add _ (hmod _ _)]
  by_cases hbelow : i < lo
  · rw [if_pos hbelow, if_neg (by omega), Nat.testBit_mod_two_pow, decide_eq_true hbelow, Bool.true_and]
  · rw [if_neg hbelow]
    by_cases hin : i - lo < w
    · rw [if_pos hin, if_pos (by omega), Nat.testBit_mod_two_pow, decide_eq_true hin, Bool.true_and]
    · rw [if_neg hin, if_neg (by omega), Nat.testBit_div_two_pow, Nat.testBit_div_two_pow]
      congr 1
      omega

/-- A number read as a two's complement value is that of the word which it fills. -/
theorem signedOf_eq_toInt (w n : Nat) (hw : 0 < w) : signedOf w n = (BitVec.ofNat w n).toInt := by
  have hpow : 2 ^ w = 2 * 2 ^ (w - 1) := by rw [← Nat.pow_succ', Nat.succ_eq_add_one, Nat.sub_add_cancel hw]
  rw [BitVec.toInt_eq_toNat_cond, BitVec.toNat_ofNat, signedOf]
  congr 1
  rw [hpow, Nat.mul_lt_mul_left (by decide)]

section
variable (a : Word) {pos n i : Nat} (hi : i < 32)
include hi

theorem getLsbD_field : (BitVec.ofNat 32 (bitsAt a.toNat pos n)).getLsbD i = (decide (i < n) && a.getLsbD (pos + i)) := by
  rw [BitVec.getLsbD_ofNat, testBit_bitsAt, decide_eq_true hi, Bool.true_and]
  rfl

/-- A signed field repeats its highest bit above it. -/
theorem getLsbD_signedField (hn : 0 < n) : (BitVec.ofInt 32 (signedOf n (bitsAt a.toNat pos n))).getLsbD i =
    if i < n then a.getLsbD (pos + i) else a.getLsbD (pos + n - 1) := by
  have hext : BitVec.ofInt 32 (signedOf n (bitsAt a.toNat pos n)) =
      (BitVec.ofNat n (bitsAt a.toNat pos n)).signExtend 32 := by
    rw [signedOf_eq_toInt n _ hn]
    rfl
  have hbit (k : Nat) (hk : k < n) : (BitVec.ofNat n (bitsAt a.toNat pos n)).getLsbD k = a.getLsbD (pos + k) := by
    rw [BitVec.getLsbD_ofNat, testBit_bitsAt, decide_eq_true hk, Bool.true_and, Bool.true_and]
    rfl
  rw [hext, BitVec.getLsbD_signExtend, decide_eq_true hi, Bool.true_and, BitVec.msb_eq_getLsbD_last,
    hbit (n - 1) (by omega), Nat.add_sub_assoc hn]
  split
  · next hin => exact hbit i hin
  · rfl

theorem getLsbD_deposit (old : Word) : (BitVec.ofNat 32 (setBits old.toNat pos n a.toNat)).getLsbD i =
    if pos ≤ i ∧ i < pos + n then a.getLsbD (i - pos) else old.getLsbD i := by
  rw [BitVec.getLsbD_ofNat, testBit_setBits, decide_eq_true hi, Bool.true_and]
  rfl

end

/-- BFX by its kind: an unsigned field, a signed field and a deposit. -/
theorem getLsbD_bitField {imm : BitVec 16} (a old : Word) {n i : Nat}
    (hn : n = min (bitsAt imm.toNat 5 5 + imm.toNat % 32 + 1) 32 - bitsAt imm.toNat 5 5) (hi : i < 32) :
    (bitField imm a old).getLsbD i = match bitsAt imm.toNat 14 2 with
      | 0 => decide (i < n) && a.getLsbD (bitsAt imm.toNat 5 5 + i)
      | 1 => if i < n then a.getLsbD (bitsAt imm.toNat 5 5 + i) else a.getLsbD (bitsAt imm.toNat 5 5 + n - 1)
      | _ => if bitsAt imm.toNat 5 5 ≤ i ∧ i < bitsAt imm.toNat 5 5 + n then a.getLsbD (i - bitsAt imm.toNat 5 5)
        else old.getLsbD i := by
  have hpos : bitsAt imm.toNat 5 5 < 32 := Nat.mod_lt _ (by decide)
  have hbits : 0 < n := by omega
  simp only [bitField, ← Nat.add_assoc, ← hn]
  generalize bitsAt imm.toNat 14 2 = kind
  exact match kind with
    | 0 => getLsbD_field a hi
    | 1 => getLsbD_signedField a hi hbits
    | _ + 2 => getLsbD_deposit a hi old

end Sys2Proof.Machine

namespace Sys2Proof
open Machine

/-- Settles O44: each instruction from its operation on the operands, BFX from the bits of its field. -/
theorem logicalResults : Obligations.LogicalResults := by
  unfold Obligations.LogicalResults
  refine ⟨fun s h hi => ?_, fun s h hi => ?_⟩
  · intro fl nz
    refine ⟨fun f hf => ⟨?and, ?or, ?xor, ?andn, ?min, ?max, ?minu, ?maxu, fun hrb => ⟨?clz, ?popc, ?bswap⟩⟩,
      fun f => ⟨?andi, ?ori, ?xori, fun hra => ?lui⟩⟩
    case and => exact show execAnd h f s = _ from aluBinary_done hi hf rfl
    case or => exact show execOr h f s = _ from aluBinary_done hi hf rfl
    case xor => exact show execXor h f s = _ from aluBinary_done hi hf rfl
    case andn => exact show execAndn h f s = _ from aluBinary_done hi hf rfl
    case min => exact show execMin h f s = _ from aluBinary_done hi hf rfl
    case max => exact show execMax h f s = _ from aluBinary_done hi hf rfl
    case minu => exact show execMinu h f s = _ from aluBinary_done hi hf rfl
    case maxu => exact show execMaxu h f s = _ from aluBinary_done hi hf rfl
    case clz => exact show execClz h f s = _ from aluUnary_done hi hf hrb rfl
    case popc => exact show execPopc h f s = _ from aluUnary_done hi hf hrb rfl
    case bswap => exact show execBswap h f s = _ from aluUnary_done hi hf hrb rfl
    case andi => exact show execAndi h f s = _ from immOp_done hi rfl rfl
    case ori => exact show execOri h f s = _ from immOp_done hi rfl rfl
    case xori => exact show execXori h f s = _ from immOp_done hi rfl rfl
    case lui => exact show execLui h f s = _ from immOp_done hi (badWord_fine rfl (by simp [hra])) rfl
  · intro fl nz
    refine ⟨fun f hf => ⟨?shl, ?shr, ?sar, ?rol, ?ror⟩, fun f hkind hrest => ?shi, fun f hkind hrest => ?bfx⟩
    case shl => exact show execShl h f s = _ from aluBinary_done hi hf (by rw [shiftBy_left]; rfl)
    case shr => exact show execShr h f s = _ from aluBinary_done hi hf (by rw [shiftBy_right]; rfl)
    case sar => exact show execSar h f s = _ from aluBinary_done hi hf (by rw [shiftBy_arith]; rfl)
    case rol => exact show execRol h f s = _ from aluBinary_done hi hf rfl
    case ror => exact show execRor h f s = _ from aluBinary_done hi hf rfl
    case shi =>
      exact show execShi h f s = _ from immOp_done hi (badWord_fine (by simp [hkind]) (by simp [hrest]))
        (by rw [shiftBy_eq]; rfl)
    case bfx =>
      have hdecode := badWord_fine (undefined := decide (bitsAt f.imm.toNat 14 2 = 3))
        (reserved := decide (bitsAt f.imm.toNat 10 4 ≠ 0)) (by simp; omega) (by simp [hrest])
      have hbfx : execBfx h f s = _ := insn_result hi hdecode
      simp only [State.issued_reg, State.issued_hart] at hbfx
      exact ⟨bitField f.imm (s.b.reg h f.ra) (s.b.reg h f.rd), hbfx, fun i hbit => getLsbD_bitField _ _ rfl hbit⟩

end Sys2Proof
end

section
/-! Branches (R184, R185): the conditions of Table 7.6 and where BCC and JR go on. -/

namespace Sys2Proof.Machine

/-- Table 7.6. -/
theorem Flags.holds_of_le (fl : Flags) {c : Nat} : c ≤ 18 → fl.holds c = some (match c with
    | 0 => fl.z | 1 => !fl.z | 2 => fl.c | 3 => !fl.c | 4 => fl.n | 5 => !fl.n | 6 => fl.v | 7 => !fl.v
    | 8 => fl.c && !fl.z | 9 => !fl.c || fl.z | 10 => fl.n == fl.v | 11 => fl.n != fl.v
    | 12 => !fl.z && fl.n == fl.v | 13 => fl.z || fl.n != fl.v | 14 => true | 15 => fl.eom | 16 => !fl.eom
    | 17 => fl.dz | _ => fl.lf) := by
  intro hc
  interval_cases c <;> rfl

/-- The target of a branch is a signed distance in words from the address of the branch (R173). -/
theorem branchTo_simm (pc : Nat) (x : BitVec 21) : branchTo pc 21 x.toNat = ((pc + 4 * x.toInt) % 2 ^ 16).toNat := by
  rw [branchTo, signedOf_eq_toInt 21 _ (by decide), BitVec.ofNat_toNat, BitVec.setWidth_eq]
  rfl

section
variable {s : State} {h : Nat} (hs : Starts s h)
include hs

theorem execBcc_taken {f : FmtC} (hholds : (s.b.hart h).flags.holds f.cond.toNat = some true) (hc : f.cond.toNat ≤ 18)
    (hroom : s.Room h 2) : execBcc h f s =
      .next (s.committed h (s.issued h) 2 (((s.b.hart h).pc + 4 * f.simm.toInt) % 2 ^ 16).toNat) := by
  refine insn_done ⟨hs, hroom⟩ (badWord_fine (by rw [Flags.holds_of_le _ hc]; rfl) rfl) ?_ rfl
  simp only [State.issued_hart, hholds, if_true, branchTo_simm]

theorem execBcc_notTaken {f : FmtC} (hholds : (s.b.hart h).flags.holds f.cond.toNat = some false)
    (hc : f.cond.toNat ≤ 18) (hroom : s.Room h 1) :
    execBcc h f s = .next (s.committed h (s.issued h) 1 (s.after h)) := by
  refine insn_done ⟨hs, hroom⟩ (badWord_fine (by rw [Flags.holds_of_le _ hc]; rfl) rfl) ?_ rfl
  simp only [State.issued_hart, hholds, Option.some.injEq, Bool.false_eq_true, if_false, State.issued_nextPc]

theorem execJr_done {f : FmtB} (hrd : f.rd = 0) (himm : f.imm = 0) (halign : (s.b.reg h f.ra).toNat % 4 = 0)
    (hroom : s.Room h 2) :
    execJr h f s = .next (s.committed h ((s.issued h).applyIe h) 2 ((s.b.reg h f.ra).toNat % 2 ^ 16)) := by
  refine insn_done ⟨hs, hroom⟩ (badWord_fine rfl (by simp [hrd, himm])) ?_ rfl
  have htarget : (s.b.reg h f.ra).toNat % 2 ^ 16 % 4 = 0 := by omega
  simp only [State.issued_reg, htarget, ne_eq, not_true_eq_false, if_false]

end

theorem applyIe_none {b : Body} {h : Nat} (hie : (b.hart h).pendingIe = none) : b.applyIe h = b := by
  simp only [Body.applyIe, hie]

theorem applyIe_some {b : Body} {h : Nat} {v : Bool} (hie : (b.hart h).pendingIe = some v) :
    b.applyIe h = (b.modHart h (fun x => { x with pendingIe := none })).fset clsDevice (bivInst h) FBiv.ie
      (if v then 1 else 0) := by
  simp only [Body.applyIe, hie]

end Sys2Proof.Machine

namespace Sys2Proof
open Machine

/-- Settles O46: BCC by whether its condition holds, JR with and without a waiting IE write. -/
theorem branchResults : Obligations.BranchResults := by
  unfold Obligations.BranchResults
  intro s h hs
  refine ⟨fun f hc => ?_, fun f hrd himm halign hroom => ?_⟩
  · intro fl taken
    have hholds : fl.holds f.cond.toNat = some taken := Flags.holds_of_le fl hc
    exact ⟨fun htaken => execBcc_taken hs (hholds.trans (congrArg some htaken)) hc,
      fun htaken => execBcc_notTaken hs (hholds.trans (congrArg some htaken)) hc⟩
  · have hjr := execJr_done hs hrd himm halign hroom
    have hissued : ((s.issued h).hart h).pendingIe = (s.b.hart h).pendingIe := by rw [State.issued_hart]
    exact ⟨fun hie => hjr.trans (by rw [applyIe_none (hissued.trans hie)]),
      fun v hie => hjr.trans (by rw [applyIe_some (hissued.trans hie)])⟩

end Sys2Proof
end

section
/-! Staged writes and scratchpad atomics (R190, R194). -/

namespace Sys2Proof.Machine

/-- An aligned word of the scratchpad passes the address checks of R190. -/
theorem scratchTrap_none {b : Body} {h a k : Nat} {r w : Bool} (halign : a % 4 = 0)
    (hplace : b.place h a 4 r w = some (.scratch k)) : b.scratchTrap h a r w = none := by
  simp [Body.scratchTrap, halign, hplace]

section
variable {b : Body} {h : Nat} {it : Item} (hit : (b.hart h).item = some it)
include hit

theorem stageWrite_room (e : Staged) (hroom : it.staged.length < 16) :
    b.stageWrite h e = b.modHart h (fun x => { x with item := some { it with staged := it.staged ++ [e] } }) := by
  simp only [Body.stageWrite, hit, Nat.not_le.2 hroom, if_false]

theorem stageWrite_full (e : Staged) (hfull : 16 ≤ it.staged.length) : b.stageWrite h e = b.setLf h := by
  simp only [Body.stageWrite, hit, hfull, if_true]

end

section
variable {s : State} {h : Nat}

/-- SSTW and SSADD stage the entry that `mk` makes of the address and rt, then write the base register back. -/
theorem stagedInsn_done {f : FmtM} {major k : Nat} {mk : Nat → Word → Staged} (hi : Issues s h)
    (hf : indexReserved f = false) (halign : ((s.b.hart h).ea f).1.toNat % 4 = 0)
    (hplace : s.b.place h ((s.b.hart h).ea f).1.toNat 4 false true = some (.scratch k)) :
    stagedInsn h f major mk s = .next (s.committed h (((s.issued h).stageWrite h
      (mk ((s.b.hart h).ea f).1.toNat (s.b.reg h f.rt))).writeBack h f ((s.b.hart h).ea f).2) 1 (s.after h)) := by
  refine insn_done hi (badWord_fine rfl hf) ?_ rfl
  simp only [State.issued_hart, State.issued_ea, State.issued_reg, State.issued_nextPc,
    scratchTrap_none halign ((State.issued_place ..).trans hplace)]

/-- An atomic stores what `op` makes of the old word and returns the old word; CAS alone sets a flag. -/
theorem atomInsn_done {f : FmtA} {minor k : Nat} {op : Word → Word → Word → Word} (hi : Issues s h 8) (hf : f.rsv = 0)
    (halign : (s.b.reg h f.ra).toNat % 4 = 0)
    (hplace : s.b.place h (s.b.reg h f.ra).toNat 4 true true = some (.scratch k)) :
    let at_ := Place.scratch (s.b.reg h f.ra).toNat
    let old : Word := BitVec.ofNat 32 (s.b.loadAt h at_ 4).1
    let b1 := (s.issued h).storeAt h at_ 4 (op old (s.b.reg h f.rb) (s.b.reg h f.rd)).toNat
    let b2 := if minor = 2 then b1.setFl h (fun fl => { fl with z := decide (old = s.b.reg h f.rd) }) else b1
    atomInsn h f minor op s = .next (s.committed h (b2.setReg h f.rd old) 8 (s.after h)) := by
  refine insn_done hi (badWord_fine rfl (by simp [hf])) ?_ rfl
  simp only [State.issued_reg, State.issued_nextPc, scratchTrap_none halign ((State.issued_place ..).trans hplace)]
  rfl

end

end Sys2Proof.Machine

namespace Sys2Proof
open Machine

/-- Settles O49: an entry with room and without, and the three atomics. -/
theorem stagedAndAtomicResults : Obligations.StagedAndAtomicResults := by
  unfold Obligations.StagedAndAtomicResults
  intro s h hi
  refine ⟨fun f it hf hit => ?_, fun f hf => ?_⟩
  · intro ea a halign hplace
    have hissued : ((s.issued h).hart h).item = some it := by rw [State.issued_hart]; exact hit
    have hsstw : execSstw h f s = _ := stagedInsn_done hi hf halign hplace
    have hssadd : execSsadd h f s = _ := stagedInsn_done hi hf halign hplace
    refine ⟨fun hroom => ⟨hsstw.trans ?_, hssadd.trans ?_⟩, fun hfull i hcase => ?_⟩
    · rw [stageWrite_room hissued _ hroom]
    · rw [stageWrite_room hissued _ hroom]
    · rcases hcase with rfl | rfl
      · exact hsstw.trans (by rw [stageWrite_full hissued _ hfull]; rfl)
      · exact hssadd.trans (by rw [stageWrite_full hissued _ hfull]; rfl)
  · intro a m old put hroom halign hplace
    have hlong : Issues s h 8 := ⟨hi.1, hroom⟩
    exact ⟨show execAtomFadd h f s = _ from atomInsn_done hlong hf halign hplace,
      show execAtomSwap h f s = _ from atomInsn_done hlong hf halign hplace,
      show execAtomCas h f s = _ from atomInsn_done hlong hf halign hplace⟩

end Sys2Proof
end

section
/-! Lock instructions, commit-log entries, task flags and timers (R199, R201, R203, R204). -/

namespace Sys2Proof.Machine

/-! What an instruction that issues reads of its hart. -/

@[simp] theorem State.issued_masterTent (s : State) (h : Nat) : (s.issued h).masterTent h = s.b.masterTent h := by
  simp only [Body.masterTent, State.issued_hart]
  rfl

@[simp] theorem State.issued_lockNum (s : State) (h : Nat) (sem : Bool) (r : BitVec 5) :
    (s.issued h).lockNum sem h r = s.b.lockNum sem h r := by
  simp only [Body.lockNum, State.issued_masterTent, State.issued_reg]
  rfl

@[simp] theorem State.issued_threadPrio (s : State) (h : Nat) : (s.issued h).threadPrio h = s.b.threadPrio h := by
  simp only [Body.threadPrio, State.issued_hart, State.issued_fget]

@[simp] theorem State.issued_threadReleasers (s : State) (h : Nat) :
    (s.issued h).threadReleasers h = s.b.threadReleasers h := by
  simp only [Body.threadReleasers, State.issued_hart]

@[simp] theorem State.issued_ownQueue (s : State) (h q : Nat) : (s.issued h).ownQueue h q = s.b.ownQueue h q := by
  simp only [Body.ownQueue, State.issued_masterTent]
  rfl

theorem ownQueue_of_tent {b : Body} {h q : Nat} (hq : q < 1048576)
    (htent : queueTent b.sys.nLog.val q = b.masterTent h) : b.ownQueue h q = true := by
  simp [Body.ownQueue, Body.nLogN, hq, htent]

/-! Locks and semaphores. -/

/-- A request of an endpoint with fewer than four outstanding is sent (R153). -/
theorem request_sent {b : Body} {h ep : Nat} (hout : (b.hart h).outstanding ep < 4) (k : ReqKind)
    (g : Nat → Body → Body) :
    b.request h ep k g = .done (g b.stamp { b.modHart h (fun x => { x with
      reqs := x.reqs ++ [⟨ep, b.stamp, k, none⟩] }) with stamp := b.stamp + 1 }) 1 (b.nextPc h) := by
  simp only [Body.request, Nat.not_le.2 hout, if_false]
  rfl

section
variable {s : State} {h minor : Nat} {f : FmtE} {sem : Bool} (hi : Issues s h) (hf : lockReserved f = none)
include hi hf

/-- LKACQ and SEMP send their request while the thread has fewer than 16 holdings or this one already (R353). -/
theorem acquireInsn_done (hout : (s.b.hart h).outstanding 2 < 4)
    (hroom : s.b.holdings h < 16 ∨ s.b.holdsEntry h sem (s.b.lockNum sem h f.ra) = true) :
    let n := s.b.lockNum sem h f.ra
    let b1 := { (s.issued h).modHart h (fun x => { x with
      reqs := x.reqs ++ [⟨2, s.b.stamp, if sem then .sem n else .lock n, none⟩] }) with stamp := s.b.stamp + 1 }
    let c := (s.issued h).hartCycle s.tm h
    acquireInsn h f minor sem s = .next (s.committed h (if sem then b1.requestSem c n (.thread h) none (s.b.threadPrio h)
      else b1.requestLock s.tm c n (.thread h) none (s.b.threadPrio h)) 1 (s.after h)) := by
  have hfull : ¬ (16 ≤ (s.issued h).holdings h ∧ ¬ (s.issued h).holdsEntry h sem (s.b.lockNum sem h f.ra) = true) :=
    fun ⟨hmany, hnew⟩ => hroom.elim (Nat.not_lt.2 hmany) hnew
  have hissued : ((s.issued h).hart h).outstanding 2 < 4 := by rw [State.issued_hart]; exact hout
  refine insn_done hi hf ?_ rfl
  simp only [State.issued_lockNum, if_neg hfull, request_sent hissued, State.issued_nextPc, State.issued_threadPrio,
    State.issued_stamp]

theorem releaseInsn_done :
    let n := s.b.lockNum sem h f.ra
    let c := (s.issued h).hartCycle s.tm h
    releaseInsn h f minor sem s = .next (s.committed h (if sem then ((s.issued h).releaseSem c n (.thread h)).2
      else ((s.issued h).releaseLock s.tm c n (s.b.threadReleasers h)).2) 1 (s.after h)) := by
  refine insn_done hi hf ?_ rfl
  simp only [State.issued_lockNum, State.issued_threadReleasers, State.issued_nextPc]

theorem deferInsn_done : deferInsn h f minor sem s = .next (s.committed h ((s.issued h).stageWrite h
    (if sem then .semRel (s.b.lockNum sem h f.ra) else .lockRel (s.b.lockNum sem h f.ra))) 1 (s.after h)) := by
  refine insn_done hi hf ?_ rfl
  simp only [State.issued_lockNum, State.issued_nextPc]

end

/-- An entry is staged, or LF is set. -/
theorem stageWrite_item {b : Body} {h : Nat} {it : Item} (hit : (b.hart h).item = some it) (e : Staged) :
    b.stageWrite h e = b.modHart h (fun x =>
      if it.staged.length < 16 then { x with item := some { it with staged := it.staged ++ [e] } }
      else { x with flags := { x.flags with lf := true } }) := by
  by_cases hroom : it.staged.length < 16
  · simp only [stageWrite_room hit e hroom, hroom, if_true]
  · simp only [stageWrite_full hit e (Nat.not_lt.1 hroom), hroom, if_false]
    rfl

/-! The commit log. -/

/-- An aligned block of local memory is read whole. -/
theorem localBlock_local {b : Body} {h a n k : Nat} (halign : a % 16 = 0)
    (hplace : b.place h a n true false = some (.local k)) : b.localBlock h a n = .inr (b.loadAt h (.local k) n).1 := by
  simp [Body.localBlock, halign, hplace]

theorem execStg_done {s : State} {h k : Nat} {f : FmtB} {it : Item} (hi : Issues s h) (hrd : f.rd = 0)
    (himm : f.imm.toNat ≤ 4) (hit : (s.b.hart h).item = some it) (halign : (s.b.reg h f.ra).toNat % 16 = 0)
    (hplace : s.b.place h (s.b.reg h f.ra).toNat 16 true false = some (.local k)) :
    execStg h f s = .next (s.committed h ((s.issued h).modHart h (fun x =>
      if it.log.length < 32 then { x with item := some { it with
        log := it.log ++ [.stg f.imm.toNat (s.b.loadAt h (.local k) 16).1] } }
      else { x with flags := { x.flags with lf := true } })) 1 (s.after h)) := by
  have hkind : f.imm.toNat % 8 = f.imm.toNat := Nat.mod_eq_of_lt (by omega)
  have hdecode : badWord (decide (4 < f.imm.toNat % 8)) (f.rd != 0 || decide (f.imm.toNat / 8 ≠ 0)) = none :=
    badWord_fine (by simp [hkind, himm]) (by simp [hrd]; omega)
  refine insn_done hi hdecode ?_ rfl
  simp only [State.issued_reg, localBlock_local halign ((State.issued_place ..).trans hplace), State.issued_hart, hit,
    State.issued_nextPc, hkind]
  by_cases hroom : it.log.length < 32
  · simp only [Nat.not_le.2 hroom, hroom, if_false, if_true]
    rfl
  · simp only [Nat.not_lt.1 hroom, hroom, if_false, if_true]
    rfl

/-! Task flags and timers. -/

section
variable {s : State} {h : Nat} (hi : Issues s h)
include hi

theorem flagInsn_done {f : FmtB} {major : Nat} {bad : Option Nat} {g : Body → Nat → Body} (hbad : bad = none)
    (hown : s.b.ownQueue h (s.b.reg h f.ra).toNat = true) : flagInsn h f major bad g s =
      .next (s.committed h (g (s.issued h) (s.b.reg h f.ra).toNat) 1 (s.after h)) := by
  refine insn_done hi hbad ?_ rfl
  simp only [State.issued_reg, State.issued_ownQueue, hown, if_true, State.issued_nextPc]

theorem execTarm_done {f : FmtE} (hf : timerReserved f = none) : execTarm h f s = .next (s.committed h
    ((s.issued h).modHart h (fun x => { x with timer := armAt s.tm (s.b.reg h f.ra) (s.b.reg h f.rb) })) 1 (s.after h)) := by
  refine insn_done hi hf ?_ rfl
  simp only [State.issued_reg, State.issued_nextPc]

theorem execQarm_done {f : FmtE} (hf : timerReserved f = none) (hown : s.b.ownQueue h (s.b.reg h f.rb).toNat = true) :
    execQarm h f s = .next (s.committed h ((s.issued h).modHart h (fun x => { x with
      taskTimer := armAt s.tm (s.b.reg h f.ra) (s.b.reg h f.rb).toNat })) 1 (s.after h)) := by
  refine insn_done hi hf ?_ rfl
  simp only [State.issued_reg, State.issued_ownQueue, hown, if_true, State.issued_nextPc]

end

end Sys2Proof.Machine

namespace Sys2Proof
open Machine

/-- Settles O51: each instruction where it is not refused, the staging ones with room and without. -/
theorem lockAndStagingResults : Obligations.LockAndStagingResults := by
  unfold Obligations.LockAndStagingResults
  refine ⟨fun s h ra hi => ?_, fun s h hi => ?_⟩
  · intro x k f nl ns prio asked done c
    have hf : lockReserved f = none := rfl
    refine ⟨fun hout => ⟨fun hroom => ?lkacq, fun hroom => ?semp⟩, ⟨?lkrel, ?semv⟩, fun it hit => ?_⟩
    case lkacq => exact show execLkacq h f s = _ from acquireInsn_done hi hf hout hroom
    case semp => exact show execSemp h f s = _ from acquireInsn_done hi hf hout hroom
    case lkrel => exact show execLkrel h f s = _ from releaseInsn_done hi hf
    case semv => exact show execSemv h f s = _ from releaseInsn_done hi hf
    have hissued : ((s.issued h).hart h).item = some it := by rw [State.issued_hart]; exact hit
    refine ⟨?lkrelc, ?semvc⟩
    case lkrelc =>
      exact show execLkrelc h f s = _ from (deferInsn_done hi hf).trans (by rw [stageWrite_item hissued]; rfl)
    case semvc =>
      exact show execSemvc h f s = _ from (deferInsn_done hi hf).trans (by rw [stageWrite_item hissued]; rfl)
  · refine ⟨fun ra imm it himm hit halign hplace => ?stg,
      fun ra imm hq htent => ⟨fun hlow => ?tfset, fun hlow => ?tfclr⟩, fun ra rb => ⟨?tarm, fun hq htent => ?qarm⟩⟩
    case stg => exact execStg_done hi rfl himm hit halign hplace
    case tfset =>
      exact show execTfset h _ s = _ from flagInsn_done hi (badWord_fine rfl (by simp [hlow])) (ownQueue_of_tent hq htent)
    case tfclr =>
      have hbit : imm.getLsbD 0 = false := by rw [BitVec.getLsbD, Nat.testBit_zero, hlow]; rfl
      exact show execTfclr h _ s = _ from flagInsn_done hi (badWord_fine rfl hbit) (ownQueue_of_tent hq htent)
    case tarm => exact execTarm_done hi rfl
    case qarm => exact execQarm_done hi rfl (ownQueue_of_tent hq htent)

end Sys2Proof
end

section
/-! Lanes and registers of a Runnel context (R210 to R212, R219, R221): what a lane, a sticky bit or a register reads after
the selected lanes of a register are written, and the rounding shifts. -/

namespace Sys2Proof.Machine

/-! Numbers made of lanes. -/

/-- The number that the lanes below `m` make. -/
def lanesBelow (w : Nat) (g : Nat → Nat) (m : Nat) : Nat :=
  ((List.range m).map (fun n => g n % 2 ^ w * 2 ^ (w * n))).sum

theorem ofLanes_eq_lanesBelow (w : Nat) (g : Nat → Nat) : ofLanes w g = lanesBelow w g 32 := rfl

theorem lanesBelow_succ (w : Nat) (g : Nat → Nat) (m : Nat) :
    lanesBelow w g (m + 1) = lanesBelow w g m + g m % 2 ^ w * 2 ^ (w * m) := by
  simp [lanesBelow, List.range_succ]

theorem lanesBelow_lt (w : Nat) (g : Nat → Nat) (m : Nat) : lanesBelow w g m < 2 ^ (w * m) := by
  induction m with
  | zero => simp [lanesBelow]
  | succ m ih =>
    have hlane : g m % 2 ^ w + 1 ≤ 2 ^ w := Nat.mod_lt _ (Nat.two_pow_pos w)
    have hroom : (g m % 2 ^ w + 1) * 2 ^ (w * m) ≤ 2 ^ w * 2 ^ (w * m) := Nat.mul_le_mul_right _ hlane
    rw [Nat.add_one_mul] at hroom
    rw [lanesBelow_succ, Nat.mul_succ, Nat.add_comm (w * m), Nat.pow_add]
    omega

theorem laneOf_lanesBelow (w : Nat) (g : Nat → Nat) {m n : Nat} (hn : n < m) :
    laneOf w (lanesBelow w g m) n = g n % 2 ^ w := by
  induction m with
  | zero => omega
  | succ m ih =>
    rw [lanesBelow_succ, laneOf]
    rcases Nat.lt_succ_iff_lt_or_eq.1 hn with hlow | rfl
    · obtain ⟨d, rfl⟩ := Nat.exists_eq_add_of_lt hlow
      have hpart : g (n + d + 1) % 2 ^ w * 2 ^ (w * (n + d + 1)) =
          2 ^ (w * n) * (2 ^ w * (2 ^ (w * d) * (g (n + d + 1) % 2 ^ w))) := by
        rw [show w * (n + d + 1) = w * n + w + w * d by ring, Nat.pow_add, Nat.pow_add]
        ring
      rw [hpart, Nat.add_mul_div_left _ _ (Nat.two_pow_pos _), Nat.add_mul_mod_self_left]
      exact ih (by omega)
    · rw [Nat.add_mul_div_right _ _ (Nat.two_pow_pos _), Nat.div_eq_of_lt (lanesBelow_lt w g n), Nat.zero_add,
        Nat.mod_mod]

theorem ofLanes_lt (w : Nat) (g : Nat → Nat) : ofLanes w g < 2 ^ (w * 32) := lanesBelow_lt w g 32

theorem laneOf_ofLanes (w : Nat) (g : Nat → Nat) {n : Nat} (hn : n < 32) : laneOf w (ofLanes w g) n = g n % 2 ^ w :=
  laneOf_lanesBelow w g hn

/-- A mask is a number of lanes of one bit. -/
theorem laneMask_eq_ofLanes (p : Nat → Bool) : laneMask p = ofLanes 1 (fun n => (p n).toNat) := by
  unfold laneMask ofLanes
  congr 2
  funext n
  cases hp : p n <;> simp [hp]

theorem laneMask_lt (p : Nat → Bool) : laneMask p < 2 ^ 32 := laneMask_eq_ofLanes p ▸ ofLanes_lt 1 _

theorem testBit_laneMask (p : Nat → Bool) (n : Nat) : (laneMask p).testBit n = (decide (n < 32) && p n) := by
  by_cases hn : n < 32
  · have hlane := laneOf_ofLanes 1 (fun n => (p n).toNat) hn
    rw [← laneMask_eq_ofLanes, laneOf, Nat.one_mul, Nat.pow_one, ← Nat.toNat_testBit] at hlane
    cases hp : p n <;> simpa [hp, hn] using hlane
  · rw [Nat.testBit_lt_two_pow ((laneMask_lt p).trans_le (Nat.pow_le_pow_right (by decide) (not_lt.1 hn)))]
    simp [hn]

/-! Registers. -/

/-- A register takes what its width holds of a number. -/
theorem toNat_mapGet_mapPut {w : Nat} (k j v : Nat) (m : SMap (BitVec w)) :
    (mapGet 0 j (mapPut k (BitVec.ofNat w v) m)).toNat = if j = k then v % 2 ^ w else (mapGet 0 j m).toNat := by
  rw [mapGet_mapPut, apply_ite BitVec.toNat, BitVec.toNat_ofNat]

theorem RCtx.sreg_setSreg (x : RCtx) (k v j : Nat) :
    (x.setSreg k v).sreg j = if j = k then v % 2 ^ 320 else x.sreg j :=
  toNat_mapGet_mapPut k j v x.sregs

theorem RCtx.acc_setAcc (x : RCtx) (k v j : Nat) :
    (x.setAcc k v).acc j = if j = k then v % 2 ^ 1024 else x.acc j :=
  toNat_mapGet_mapPut k j v x.accs

theorem RCtx.pred_setPred (x : RCtx) (k v j : Nat) :
    (x.setPred k v).pred j = if j = k then v % 2 ^ 32 else x.pred j :=
  toNat_mapGet_mapPut k j v x.preds

/-! Writes of selected lanes. -/

section
variable (x : RCtx) (k p : Nat) (g : Nat → LaneOut)

theorem RCtx.testBit_satLanes_stick (n : Nat) : (x.stick p g).satLanes.testBit n =
    (x.satLanes.testBit n || (decide (n < 32) && x.selects p n && (g n).sat)) := by
  simp only [RCtx.stick, Nat.testBit_or, testBit_laneMask, Bool.and_assoc]

theorem RCtx.testBit_dzLanes_stick (n : Nat) : (x.stick p g).dzLanes.testBit n =
    (x.dzLanes.testBit n || (decide (n < 32) && x.selects p n && (g n).dz)) := by
  simp only [RCtx.stick, Nat.testBit_or, testBit_laneMask, Bool.and_assoc]

theorem RCtx.laneOf_writeSamples {n : Nat} (hn : n < 32) : laneOf 10 ((x.writeSamples k p g).sreg k) n =
    if x.selects p n then (g n).val % 1024 else laneOf 10 (x.sreg k) n := by
  rw [RCtx.writeSamples, RCtx.sreg_setSreg, if_pos rfl, Nat.mod_eq_of_lt (ofLanes_lt 10 _), laneOf_ofLanes 10 _ hn]
  split
  · rfl
  · exact Nat.mod_mod _ _

theorem RCtx.laneOf_writeAccs {n : Nat} (hn : n < 32) : laneOf 32 ((x.writeAccs k p g).acc k) n =
    if x.selects p n then (g n).val % 2 ^ 32 else laneOf 32 (x.acc k) n := by
  rw [RCtx.writeAccs, RCtx.acc_setAcc, if_pos rfl, Nat.mod_eq_of_lt (ofLanes_lt 32 _), laneOf_ofLanes 32 _ hn]
  split
  · rfl
  · exact Nat.mod_mod _ _

theorem RCtx.sreg_writeSamples_ne {j : Nat} (hj : j ≠ k) : (x.writeSamples k p g).sreg j = x.sreg j :=
  (RCtx.sreg_setSreg ..).trans (if_neg hj)

theorem RCtx.acc_writeAccs_ne {j : Nat} (hj : j ≠ k) : (x.writeAccs k p g).acc j = x.acc j :=
  (RCtx.acc_setAcc ..).trans (if_neg hj)

variable (q : Nat → Bool)

theorem RCtx.testBit_writePreds {n : Nat} (hn : n < 32) : ((x.writePreds k p q).pred k).testBit n =
    if x.selects p n then q n else (x.pred k).testBit n := by
  rw [RCtx.writePreds, RCtx.pred_setPred, if_pos rfl, Nat.mod_eq_of_lt (laneMask_lt _), testBit_laneMask,
    decide_eq_true hn, Bool.true_and]

theorem RCtx.pred_writePreds_ne {j : Nat} (hj : j ≠ k) : (x.writePreds k p q).pred j = x.pred j :=
  (RCtx.pred_setPred ..).trans (if_neg hj)

end

/-! Rounding shifts (R221). -/

section
variable (x : Int) (k : Nat)

/-- A shift by one place or more divides by an even number: twice its half. -/
theorem two_mul_half {k : Nat} (hk : k ≠ 0) : ((2 ^ k : Nat) : Int) = 2 * ((2 ^ (k - 1) : Nat) : Int) := by
  rw [← Nat.succ_pred_eq_of_ne_zero hk, Nat.pow_succ']
  simp

theorem roundShift_down : roundShift 0 x k = x.fdiv (2 ^ k) := by
  rw [Int.fdiv_eq_ediv_of_nonneg _ (by positivity)]
  by_cases hk : k = 0
  · simp [roundShift, hk]
  · simp [roundShift, hk]

theorem roundShift_halfUp : roundShift 1 x k = (2 * x + 2 ^ k).fdiv (2 * 2 ^ k) := by
  rw [Int.fdiv_eq_ediv_of_nonneg _ (by positivity)]
  by_cases hk : k = 0
  · simp only [roundShift, hk, if_true]
    omega
  · have heven := two_mul_half hk
    have hpos : (0 : Int) < (2 ^ k : Nat) := by positivity
    have hdiv := Int.mul_ediv_add_emod x (2 ^ k : Nat)
    have hlow := Int.emod_nonneg x hpos.ne'
    have hhigh := Int.emod_lt_of_pos x hpos
    simp only [roundShift, hk, if_false, decide_eq_true_eq]
    rw [show ((2 : Int) ^ k) = (2 ^ k : Nat) by push_cast; rfl]
    generalize ((2 ^ k : Nat) : Int) = p at *
    generalize ((2 ^ (k - 1) : Nat) : Int) = half at *
    generalize x / p = q at *
    generalize x % p = f at *
    subst hdiv
    split
    · next hup =>
      refine (((Int.ediv_emod_unique (r := 2 * f - p) (by omega)).2 ⟨?_, by omega, by omega⟩).1).symm
      ring
    · next hdown =>
      refine (((Int.ediv_emod_unique (r := 2 * f + p) (by omega)).2 ⟨?_, by omega, by omega⟩).1).symm
      ring

theorem roundShift_towardsZero : roundShift 3 x k = x.tdiv (2 ^ k) := by
  by_cases hk : k = 0
  · simp [roundShift, hk]
  · have hpos : (0 : Int) < (2 ^ k : Nat) := by positivity
    simp only [roundShift, hk, if_false, decide_eq_true_eq]
    rw [show ((2 : Int) ^ k) = (2 ^ k : Nat) by push_cast; rfl, Int.tdiv_eq_ediv, Int.sign_eq_one_of_pos hpos]
    split
    · next hup =>
      rw [if_neg (by rw [Int.dvd_iff_emod_eq_zero]; omega)]
    · next hdown => rw [if_pos (by rw [Int.dvd_iff_emod_eq_zero]; omega), Int.add_zero]

/-- Rounded half to even, a value is at most half a unit off, and of the two at half a unit the even one. -/
theorem roundShift_halfEven (r : Int) (hr : r = roundShift 2 x k) :
    2 * (x - r * 2 ^ k) ≤ 2 ^ k ∧ -(2 ^ k) ≤ 2 * (x - r * 2 ^ k) ∧
      (0 < k → (2 * (x - r * 2 ^ k) = 2 ^ k ∨ 2 * (x - r * 2 ^ k) = -(2 ^ k)) → r % 2 = 0) := by
  by_cases hk : k = 0
  · subst hk
    simp [hr, roundShift]
  · have heven := two_mul_half hk
    have hpos : (0 : Int) < (2 ^ k : Nat) := by positivity
    have hdiv := Int.mul_ediv_add_emod x (2 ^ k : Nat)
    have hlow := Int.emod_nonneg x hpos.ne'
    have hhigh := Int.emod_lt_of_pos x hpos
    simp only [roundShift, hk, if_false, decide_eq_true_eq] at hr
    rw [show ((2 : Int) ^ k) = (2 ^ k : Nat) by push_cast; rfl]
    generalize ((2 ^ k : Nat) : Int) = p at *
    generalize ((2 ^ (k - 1) : Nat) : Int) = half at *
    generalize x / p = q at *
    generalize x % p = f at *
    rw [Int.mul_comm] at hdiv
    split at hr
    · next hup =>
      rw [hr, Int.add_mul, Int.one_mul]
      refine ⟨by omega, by omega, fun _ htie => ?_⟩
      have hodd : q % 2 = 1 := by omega
      rw [Int.add_emod, hodd]
      rfl
    · next hdown =>
      subst hr
      exact ⟨by omega, by omega, fun _ htie => by omega⟩

end

end Sys2Proof.Machine

namespace Sys2Proof
open Machine

/-- Settles O56: the three writes, and the four rounding modes. -/
theorem selectedLanesWritten : Obligations.SelectedLanesWritten := by
  unfold Obligations.SelectedLanesWritten
  refine ⟨fun v k p => ⟨fun g => ?samples, fun g => ?accumulators, fun g => ?predicates⟩, fun x k => ?rounding⟩
  case samples =>
    exact ⟨fun n hn => v.laneOf_writeSamples k p g hn, fun j hj => v.sreg_writeSamples_ne k p g hj,
      v.testBit_satLanes_stick p g, v.testBit_dzLanes_stick p g, rfl, rfl, rfl, rfl, rfl⟩
  case accumulators =>
    exact ⟨fun n hn => v.laneOf_writeAccs k p g hn, fun j hj => v.acc_writeAccs_ne k p g hj,
      v.testBit_satLanes_stick p g, v.testBit_dzLanes_stick p g, rfl, rfl, rfl, rfl, rfl⟩
  case predicates =>
    exact ⟨fun n hn => v.testBit_writePreds k p g hn, fun j hj => v.pred_writePreds_ne k p g hj,
      rfl, rfl, rfl, rfl, rfl, rfl, rfl⟩
  case rounding =>
    exact ⟨roundShift_down x k, roundShift_halfUp x k, roundShift_towardsZero x k, roundShift_halfEven x k _ rfl⟩

end Sys2Proof
end

section
/-! The context image (R231, Table 8.14): the numbers that stand in it, and a context that takes them. -/

namespace Sys2Proof.Machine

/-! Numbers in a list of bytes. -/

section
variable (l r : List Byte) {a n : Nat}

theorem leAt_append_left (h : a + n ≤ l.length) : leAt (l ++ r) a n = leAt l a n := by
  rw [leAt, leAt, List.drop_append_of_le_length (by omega),
    List.take_append_of_le_length (by rw [List.length_drop]; omega)]

theorem leAt_append_right (h : l.length ≤ a) : leAt (l ++ r) a n = leAt r (a - l.length) n := by
  rw [leAt, leAt, List.drop_append, List.drop_eq_nil_of_le h, List.nil_append]

theorem leAt_leBytes (x : Nat) (h : x < 256 ^ n) : leAt (leBytes n x) 0 n = x := by
  rw [leAt, List.drop_zero, List.take_of_length_le (length_leBytes n x).le, leNat_leBytes, Nat.mod_eq_of_lt h]

end

section
variable (n : Nat) (g : Nat → Nat)

theorem length_flatMap_leBytes (m : Nat) : ((List.range m).flatMap (fun k => leBytes n (g k))).length = n * m := by
  induction m with
  | zero => rfl
  | succ m ih => simp [List.range_succ, ih, Nat.mul_succ]

/-- Of equal blocks of bytes each stands at its place. -/
theorem leAt_flatMap_leBytes {m k : Nat} (hk : k < m) (hg : g k < 256 ^ n) :
    leAt ((List.range m).flatMap (fun k => leBytes n (g k))) (n * k) n = g k := by
  induction m with
  | zero => omega
  | succ m ih =>
    have hlen := length_flatMap_leBytes n g m
    rw [List.range_succ, List.flatMap_append, List.flatMap_singleton]
    rcases Nat.lt_succ_iff_lt_or_eq.1 hk with hlow | rfl
    · rw [leAt_append_left _ _ (by rw [hlen, ← Nat.mul_succ]; exact Nat.mul_le_mul_left n hlow)]
      exact ih hlow
    · rw [leAt_append_right _ _ hlen.le, hlen, Nat.sub_self, leAt_leBytes _ hg]

end

/-! The image. -/

/-- A register of as many bits as `n` bytes have holds a number of `n` bytes. -/
theorem toNat_lt_bytes {w n : Nat} (hw : w = 8 * n) (x : BitVec w) : x.toNat < 256 ^ n := by
  subst hw
  exact x.isLt.trans_eq (Nat.pow_mul 2 8 n)

theorem RCtx.sreg_lt (x : RCtx) (k : Nat) : x.sreg k < 256 ^ 40 := toNat_lt_bytes (n := 40) rfl (mapGet 0 k x.sregs)
theorem RCtx.acc_lt (x : RCtx) (k : Nat) : x.acc k < 256 ^ 128 := toNat_lt_bytes (n := 128) rfl (mapGet 0 k x.accs)
theorem RCtx.pred_lt (x : RCtx) (k : Nat) : x.pred k < 256 ^ 4 := toNat_lt_bytes (n := 4) rfl (mapGet 0 k x.preds)

section
variable (v : RCtx) (c : Nat)

theorem RCtx.length_image : (v.image c).length = 2432 := by
  simp only [RCtx.image, List.length_append, length_flatMap_leBytes, length_leBytes, List.length_replicate]

theorem RCtx.leAt_image_sreg {k : Nat} (hk : k < 32) : leAt (v.image c) (40 * k) 40 = v.sreg k := by
  have hlen := length_flatMap_leBytes 40 v.sreg 32
  simp only [RCtx.image, List.append_assoc]
  rw [leAt_append_left _ _ (by omega)]
  exact leAt_flatMap_leBytes 40 v.sreg hk (v.sreg_lt k)

theorem RCtx.leAt_image_acc {k : Nat} (hk : k < 8) : leAt (v.image c) (1280 + 128 * k) 128 = v.acc k := by
  have hs := length_flatMap_leBytes 40 v.sreg 32
  have hlen := length_flatMap_leBytes 128 v.acc 8
  simp only [RCtx.image, List.append_assoc]
  rw [leAt_append_right _ _ (by omega), hs, leAt_append_left _ _ (by omega), Nat.add_sub_cancel_left]
  exact leAt_flatMap_leBytes 128 v.acc hk (v.acc_lt k)

theorem RCtx.leAt_image_pred {k : Nat} (hk : k < 4) : leAt (v.image c) (2304 + 4 * k) 4 = v.pred k := by
  have hs := length_flatMap_leBytes 40 v.sreg 32
  have ha := length_flatMap_leBytes 128 v.acc 8
  have hlen := length_flatMap_leBytes 4 v.pred 4
  simp only [RCtx.image, List.append_assoc]
  rw [leAt_append_right _ _ (by omega), leAt_append_right _ _ (by omega), leAt_append_left _ _ (by omega), hs, ha,
    show 2304 + 4 * k - 40 * 32 - 128 * 8 = 4 * k by omega]
  exact leAt_flatMap_leBytes 4 v.pred hk (v.pred_lt k)

/-- Past the registers come RCS and the sticky lanes. -/
theorem RCtx.image_modes : ∃ l : List Byte, l.length = 2320 ∧ v.image c =
    l ++ (leBytes 4 (v.rcs c) ++ (leBytes 4 v.satLanes ++ (leBytes 4 v.dzLanes ++ List.replicate 100 0))) := by
  refine ⟨(List.range 32).flatMap (fun k => leBytes 40 (v.sreg k)) ++
    (List.range 8).flatMap (fun k => leBytes 128 (v.acc k)) ++
    (List.range 4).flatMap (fun k => leBytes 4 (v.pred k)), ?_, ?_⟩
  · simp only [List.length_append, length_flatMap_leBytes]
  · simp only [RCtx.image, List.append_assoc]

theorem RCtx.rcs_lt : v.rcs c < 256 ^ 4 := by
  unfold RCtx.rcs
  split_ifs <;> omega

theorem RCtx.leAt_image_rcs : leAt (v.image c) 2320 4 = v.rcs c := by
  obtain ⟨l, hl, himage⟩ := v.image_modes c
  rw [himage, leAt_append_right _ _ hl.le, hl, leAt_append_left _ _ (by simp)]
  exact leAt_leBytes _ (v.rcs_lt c)

theorem RCtx.leAt_image_satLanes (hsat : v.satLanes < 2 ^ 32) : leAt (v.image c) 2324 4 = v.satLanes := by
  obtain ⟨l, hl, himage⟩ := v.image_modes c
  rw [himage, leAt_append_right _ _ (by omega), hl, leAt_append_right _ _ (by simp), length_leBytes,
    leAt_append_left _ _ (by simp)]
  exact leAt_leBytes _ hsat

theorem RCtx.leAt_image_dzLanes (hdz : v.dzLanes < 2 ^ 32) : leAt (v.image c) 2328 4 = v.dzLanes := by
  obtain ⟨l, hl, himage⟩ := v.image_modes c
  rw [himage, leAt_append_right _ _ (by omega), hl, leAt_append_right _ _ (by simp), length_leBytes,
    leAt_append_right _ _ (by simp), length_leBytes, leAt_append_left _ _ (by simp)]
  exact leAt_leBytes _ hdz

/-- RCS shows the rounding mode in bits 1:0. -/
theorem RCtx.rcs_mod : v.rcs c % 4 = v.rmode % 4 := by
  unfold RCtx.rcs
  split_ifs <;> omega

/-- RCS shows WSAT in bit 4. -/
theorem RCtx.testBit_rcs : (v.rcs c).testBit 4 = v.wsat := by
  rw [Nat.testBit_eq_decide_div_mod_eq, RCtx.rcs]
  by_cases hset : v.wsat = true
  · rw [if_pos hset, hset]
    exact decide_eq_true (by split_ifs <;> omega)
  · rw [if_neg hset, Bool.eq_false_of_not_eq_true hset]
    exact decide_eq_false (by split_ifs <;> omega)

end

/-! A context that takes an image. -/

/-- Registers set one after another hold what was put into them. -/
theorem foldl_put {get : RCtx → Nat → Nat} {put : RCtx → Nat → Nat → RCtx} {w : Nat}
    (hput : ∀ x k v j, get (put x k v) j = if j = k then v % 2 ^ w else get x j) (g : Nat → Nat) (x : RCtx)
    {m j : Nat} (hj : j < m) : get ((List.range m).foldl (fun y k => put y k (g k)) x) j = g j % 2 ^ w := by
  induction m with
  | zero => omega
  | succ m ih =>
    rw [List.range_succ, List.foldl_append, List.foldl_cons, List.foldl_nil, hput]
    split
    · next heq => rw [heq]
    · next hne => exact ih (by omega)

/-- What every one of some updates leaves, all of them leave. -/
theorem foldl_kept {β : Type} (get : RCtx → β) (put : RCtx → Nat → Nat → RCtx)
    (hput : ∀ y k v, get (put y k v) = get y) (g : Nat → Nat) (l : List Nat) (x : RCtx) :
    get (l.foldl (fun y k => put y k (g k)) x) = get x := by
  induction l generalizing x with
  | nil => rfl
  | cons k l ih => rw [List.foldl_cons, ih, hput]

section
variable (x : RCtx) (l : List Byte) {k : Nat}

theorem RCtx.sreg_ofImage (hk : k < 32) : (x.ofImage l).sreg k = leAt l (40 * k) 40 % 2 ^ 320 := by
  rw [RCtx.sreg, RCtx.ofImage]
  dsimp only
  rw [foldl_kept RCtx.sregs RCtx.setPred (fun _ _ _ => rfl), foldl_kept RCtx.sregs RCtx.setAcc (fun _ _ _ => rfl)]
  exact foldl_put RCtx.sreg_setSreg (fun k => leAt l (40 * k) 40) x hk

theorem RCtx.acc_ofImage (hk : k < 8) : (x.ofImage l).acc k = leAt l (1280 + 128 * k) 128 % 2 ^ 1024 := by
  rw [RCtx.acc, RCtx.ofImage]
  dsimp only
  rw [foldl_kept RCtx.accs RCtx.setPred (fun _ _ _ => rfl)]
  exact foldl_put RCtx.acc_setAcc (fun k => leAt l (1280 + 128 * k) 128) _ hk

theorem RCtx.pred_ofImage (hk : k < 4) : (x.ofImage l).pred k = leAt l (2304 + 4 * k) 4 % 2 ^ 32 := by
  rw [RCtx.pred, RCtx.ofImage]
  dsimp only
  exact foldl_put RCtx.pred_setPred (fun k => leAt l (2304 + 4 * k) 4) _ hk

theorem RCtx.modes_ofImage : (x.ofImage l).rmode = leAt l 2320 4 % 4 ∧
    (x.ofImage l).wsat = (leAt l 2320 4).testBit 4 ∧ (x.ofImage l).satLanes = leAt l 2324 4 ∧
    (x.ofImage l).dzLanes = leAt l 2328 4 := by
  unfold RCtx.ofImage
  exact ⟨rfl, rfl, rfl, rfl⟩

end

end Sys2Proof.Machine

namespace Sys2Proof
open Machine

/-- Settles O55: each part of the context from its place in the image. -/
theorem contextImageRoundTrip : Obligations.ContextImageRoundTrip := by
  unfold Obligations.ContextImageRoundTrip
  intro v w c hsat hdz hmode
  obtain ⟨hrmode, hwsat, hsticky, hzero⟩ := w.modes_ofImage (v.image c)
  refine ⟨v.length_image c, fun k hk => ?sreg, fun k hk => ?acc, fun k hk => ?pred, ?rmode, ?wsat, ?sat, ?dz⟩
  case sreg => rw [w.sreg_ofImage _ hk, v.leAt_image_sreg c hk, RCtx.sreg, BitVec.toNat_mod_cancel]
  case acc => rw [w.acc_ofImage _ hk, v.leAt_image_acc c hk, RCtx.acc, BitVec.toNat_mod_cancel]
  case pred => rw [w.pred_ofImage _ hk, v.leAt_image_pred c hk, RCtx.pred, BitVec.toNat_mod_cancel]
  case rmode => rw [hrmode, v.leAt_image_rcs c, v.rcs_mod c, Nat.mod_eq_of_lt hmode]
  case wsat => rw [hwsat, v.leAt_image_rcs c, v.testBit_rcs c]
  case sat => rw [hsticky, v.leAt_image_satLanes c hsat]
  case dz => rw [hzero, v.leAt_image_dzLanes c hdz]

end Sys2Proof
end

section
/-! Lane operations (R210, R220, R221): the number of a lane, what a clamped result makes of its lane, arithmetic shifts,
and the instructions of Table 8.8. -/

namespace Sys2Proof.Machine

/-! Instructions that leave their result in the context or in a word register. -/

section
variable {s : State} {h x ma mi : Nat} {f : FmtE} {r : Bool} {e : Body → Nat → RCtx → Effect}
  (hc : HoldsContext s h x) (hr : r = false) (hp : selectAllowed f.ep) (h0 : f.rsv = 0)
include hc hr hp h0

theorem runnelInsn_ctx {w : RCtx} (he : e (s.issued h) x (s.b.ctx h x) = (s.issued h).ctxDone h x w) :
    runnelInsn h ma mi f false r e s = .next (s.runnel h x w) :=
  runnel_ok hc hr (psel_ok hp) h0 (he.trans (by rw [Body.ctxDone, State.issued_nextPc]))

theorem runnelInsn_word {w : Nat} (he : e (s.issued h) x (s.b.ctx h x) = (s.issued h).wordDone h f.rd w) :
    runnelInsn h ma mi f false r e s = .next (s.wrote h f.rd (BitVec.ofNat 32 w)) :=
  runnel_ok hc hr (psel_ok hp) h0 (he.trans (by rw [Body.wordDone, State.issued_nextPc]))

end

/-- A Runnel instruction with a reserved field in use traps with RESERVED_FIELD (R175). -/
theorem runnelInsn_reserved {s : State} {h x ma mi : Nat} {f : FmtE} {r : Bool} {e : Body → Nat → RCtx → Effect}
    (hc : HoldsContext s h x) (hr : r = true) :
    runnelInsn h ma mi f false r e s = .next (s.trapped h (wordE ma mi f) trField 0) := by
  refine insn_bad hc.issues.1 ?_
  simp [runnelBad, badWord, hr, hc.plane]

/-- The bit that names U10, read back. -/
theorem formatBit_beq (u : Bool) : ((if u then 1 else 0 : BitVec 1) == 1) = u := by cases u <;> rfl

/-! Numbers of lanes. -/

theorem signedOf_of_lt {w c : Nat} (h : c < 2 ^ w) :
    signedOf w c = if c < 2 ^ (w - 1) then (c : Int) else c - (2 ^ w : Nat) := by
  rw [signedOf, Nat.mod_eq_of_lt h]

theorem codeOf_signedOf {w c : Nat} (h : c < 2 ^ w) : codeOf w (signedOf w c) = c := by
  have hcode : ((c : Int) % (2 ^ w : Nat)).toNat = c := by
    rw [← Int.natCast_mod, Int.toNat_natCast, Nat.mod_eq_of_lt h]
  rw [signedOf_of_lt h, codeOf]
  split
  · exact hcode
  · rw [Int.sub_emod_right, hcode]

/-- The number of a lane in S10 or U10. -/
theorem sampleOf_lane (u : Bool) (v n : Nat) : sampleOf u (laneOf 10 v n) =
    if u || decide (laneOf 10 v n < 512) then (laneOf 10 v n : Int) else laneOf 10 v n - 1024 :=
  sampleOf_eq u _ (lane_lt v n)

theorem sampleOf_true {c : Nat} (h : c < 1024) : sampleOf true c = c := by simp [sampleOf, Nat.mod_eq_of_lt h]

theorem sampleOf_range (u : Bool) {c : Nat} (h : c < 1024) :
    (if u then 0 else -512) ≤ sampleOf u c ∧ sampleOf u c ≤ (if u then 1023 else 511) := by
  rw [sampleOf_eq u c h]
  cases u <;> simp <;> omega

theorem codeOf_sampleOf (u : Bool) {c : Nat} (h : c < 1024) : codeOf 10 (sampleOf u c) = c := by
  cases u with
  | true => rw [sampleOf_true h, codeOf, ← Int.natCast_mod, Int.toNat_natCast]; exact Nat.mod_eq_of_lt h
  | false => exact codeOf_signedOf h

/-- Lanes that have the same number have the same code. -/
theorem sampleOf_inj (u : Bool) {c d : Nat} (hc : c < 1024) (hd : d < 1024) : sampleOf u c = sampleOf u d ↔ c = d :=
  ⟨fun heq => by rw [← codeOf_sampleOf u hc, heq, codeOf_sampleOf u hd], fun heq => by rw [heq]⟩

theorem sampleOf_eq_zero (u : Bool) {c : Nat} (h : c < 1024) : sampleOf u c = 0 ↔ c = 0 := by
  have hzero : sampleOf u 0 = 0 := by cases u <;> rfl
  rw [← sampleOf_inj u h (by decide), hzero]

/-! Clamped results. -/

theorem clamped_clampInt (w : Nat) (lo hi r : Int) :
    LaneOut.clamped (codeOf w (clampInt lo hi r).1, (clampInt lo hi r).2) =
      ⟨((if r < lo then lo else if hi < r then hi else r) % (2 ^ w : Nat)).toNat, decide (r < lo ∨ hi < r), false⟩ := by
  unfold clampInt codeOf LaneOut.clamped
  split_ifs <;> simp [*]

theorem clampSample_eq (u : Bool) (r : Int) : clampSample u r =
    (codeOf 10 (clampInt (if u then 0 else -512) (if u then 1023 else 511) r).1,
      (clampInt (if u then 0 else -512) (if u then 1023 else 511) r).2) := by
  cases u with
  | true => simp only [clampSample, if_true]
  | false => simp only [clampSample, Bool.false_eq_true, if_false]

theorem clamped_clampSample (u : Bool) (r : Int) : LaneOut.clamped (clampSample u r) =
    ⟨((if r < (if u then 0 else -512) then (if u then 0 else -512)
        else if (if u then 1023 else 511) < r then (if u then 1023 else 511) else r) % 1024).toNat,
      decide (r < (if u then 0 else -512) ∨ (if u then 1023 else 511) < r), false⟩ := by
  rw [clampSample_eq, clamped_clampInt]
  rfl

/-- The number of a lane is in its format: clamping leaves the code. -/
theorem clamped_sampleOf (u : Bool) {c : Nat} (h : c < 1024) :
    LaneOut.clamped (clampSample u (sampleOf u c)) = .plain c := by
  obtain ⟨hlow, hhigh⟩ := sampleOf_range u h
  have hcode := codeOf_sampleOf u h
  rw [codeOf] at hcode
  rw [clamped_clampSample, if_neg (by omega), if_neg (by omega), decide_eq_false (by omega)]
  exact congrArg LaneOut.plain hcode

section
variable (u : Bool) {a b : Nat} (ha : a < 1024) (hb : b < 1024)
include ha hb

theorem plain_smaller : LaneOut.plain (if sampleOf u a ≤ sampleOf u b then a else b) =
    .clamped (clampSample u (min (sampleOf u a) (sampleOf u b))) := by
  split
  · next hle => rw [min_eq_left hle, clamped_sampleOf u ha]
  · next hgt => rw [min_eq_right (not_le.1 hgt).le, clamped_sampleOf u hb]

theorem plain_larger : LaneOut.plain (if sampleOf u a ≤ sampleOf u b then b else a) =
    .clamped (clampSample u (max (sampleOf u a) (sampleOf u b))) := by
  split
  · next hle => rw [max_eq_right hle, clamped_sampleOf u hb]
  · next hgt => rw [max_eq_left (not_le.1 hgt).le, clamped_sampleOf u ha]

/-- A quotient, by whether its divisor is 0. -/
theorem laneDiv_eq : laneDiv u (sampleOf u a) (sampleOf u b) = if b = 0 then
      ⟨(if 0 < sampleOf u a then (if u then 1023 else 511)
        else if sampleOf u a < 0 then (if u then 0 else -512) + 1024 else 0 : Int).toNat, false, true⟩
    else .clamped (clampSample u ((sampleOf u a).tdiv (sampleOf u b))) := by
  simp only [laneDiv, sampleOf_eq_zero u hb]
  split
  · obtain ⟨hlow, -⟩ := sampleOf_range u ha
    cases u with
    | true =>
      rw [if_pos rfl] at hlow
      simp only [if_true, not_lt.2 hlow, if_false]
      split <;> rfl
    | false =>
      simp only [Bool.false_eq_true, if_false]
      split_ifs <;> rfl
  · rfl

end

/-! Arithmetic shifts. -/

theorem testBit_sign {w c : Nat} (hw : 0 < w) (hc : c < 2 ^ w) : c.testBit (w - 1) = decide (2 ^ (w - 1) ≤ c) := by
  by_cases hle : 2 ^ (w - 1) ≤ c
  · rw [decide_eq_true hle]
    exact Nat.testBit_of_two_pow_le_and_two_pow_add_one_gt hle (by rwa [Nat.sub_add_cancel hw])
  · rw [decide_eq_false hle, Nat.testBit_lt_two_pow (not_le.1 hle)]

theorem toNat_sub_emod {c n m : Nat} (hc : c < n) (hn : n ≤ m) : (((c : Int) - n) % m).toNat = c + (m - n) := by
  rw [← Int.add_emod_right, Int.emod_eq_of_lt] <;> omega

/-- An arithmetic shift of `w` bits by `m` places or fewer fills the bits that it empties with the sign. -/
theorem codeOf_signedOf_div {w c m : Nat} (hw : 0 < w) (hc : c < 2 ^ w) (hm : m ≤ w) :
    codeOf w (signedOf w c / (2 ^ m : Nat)) = c / 2 ^ m + if c.testBit (w - 1) then 2 ^ w - 2 ^ (w - m) else 0 := by
  have hsmall : c / 2 ^ m < 2 ^ (w - m) := by
    rw [Nat.div_lt_iff_lt_mul (Nat.two_pow_pos m), ← Nat.pow_add, Nat.sub_add_cancel hm]
    exact hc
  have hle : 2 ^ (w - m) ≤ 2 ^ w := Nat.pow_le_pow_right (by decide) (by omega)
  rw [signedOf_of_lt hc, testBit_sign hw hc, codeOf]
  by_cases hneg : 2 ^ (w - 1) ≤ c
  · have hshift : ((c : Int) - (2 ^ w : Nat)) / (2 ^ m : Nat) = (c / 2 ^ m : Nat) - (2 ^ (w - m) : Nat) := by
      rw [show ((2 ^ w : Nat) : Int) = (2 ^ (w - m) : Nat) * (2 ^ m : Nat) by
        rw [← Int.natCast_mul, ← Nat.pow_add, Nat.sub_add_cancel hm],
        Int.sub_mul_ediv_right _ _ (by positivity), Int.natCast_ediv]
    rw [if_neg (not_lt.2 hneg), hshift, if_pos (decide_eq_true hneg), toNat_sub_emod hsmall hle]
  · rw [if_pos (not_le.1 hneg), if_neg (by simp [hneg]), ← Int.natCast_ediv, ← Int.natCast_mod, Int.toNat_natCast,
      Nat.mod_eq_of_lt (hsmall.trans_le hle), Nat.add_zero]

/-- The same by any number of places: `w` or more leave only the sign. -/
theorem codeOf_signedOf_shift {w c : Nat} (hw : 0 < w) (hc : c < 2 ^ w) (k : Nat) :
    codeOf w (signedOf w c / (2 ^ min k w : Nat)) = if w ≤ k then (if c.testBit (w - 1) then 2 ^ w - 1 else 0)
      else c / 2 ^ k + if c.testBit (w - 1) then 2 ^ w - 2 ^ (w - k) else 0 := by
  rw [codeOf_signedOf_div hw hc (Nat.min_le_right k w)]
  by_cases hlong : w ≤ k
  · rw [if_pos hlong, Nat.min_eq_right hlong, Nat.div_eq_of_lt hc, Nat.sub_self, Nat.pow_zero, Nat.zero_add]
  · rw [if_neg hlong, Nat.min_eq_left (not_le.1 hlong).le]

/-! The instructions. -/

section
variable {s : State} {h x mi : Nat} {f : FmtE} (hc : HoldsContext s h x) (hp : selectAllowed f.ep) (h0 : f.rsv = 0)
include hc hp h0

theorem rlaneShift_done {g : Nat → Nat → Nat} {k : Nat → Nat} (he : f.e = 0)
    (hg : ∀ n, g (laneOf 10 ((s.b.ctx h x).sreg f.ra.toNat) n) ((s.b.reg h f.rb).toNat % 256) = k n) :
    rlaneShift h mi f g s =
      .next (s.runnel h x ((s.b.ctx h x).writeSamples f.rd.toNat f.ep.toNat (fun n => .plain (k n)))) := by
  refine runnelInsn_ctx hc (by rw [he]; rfl) hp h0 ?_
  simp only [State.issued_reg, hg]

theorem execRsel_done (he : f.e = 0) : execRsel h f s =
    .next (s.runnel h x ((s.b.ctx h x).writeSamples f.rd.toNat 0 (fun n => .plain
      (if (s.b.ctx h x).selects f.ep.toNat n then laneOf 10 ((s.b.ctx h x).sreg f.ra.toNat) n
        else laneOf 10 ((s.b.ctx h x).sreg f.rb.toNat) n)))) := by
  have hlane (n : Nat) := apply_ite (fun k => laneOf 10 ((s.b.ctx h x).sreg k) n)
    ((s.b.ctx h x).selects f.ep.toNat n = true) f.ra.toNat f.rb.toNat
  exact runnelInsn_ctx hc (by rw [he]; rfl) hp h0 (by simp only [hlane])

end

end Sys2Proof.Machine

namespace Sys2Proof
open Machine

/-- Settles O57: each instruction from what its operation makes of the lanes. -/
theorem laneOperationResults : Obligations.LaneOperationResults := by
  unfold Obligations.LaneOperationResults
  intro s h x rd ra rb p hc hp v a b k done
  have ha : ∀ n, laneOf 10 ((s.b.ctx h x).sreg ra.toNat) n < 1024 := lane_lt _
  have hb : ∀ n, laneOf 10 ((s.b.ctx h x).sreg rb.toNat) n < 1024 := lane_lt _
  have hps := psel_ok hp
  refine ⟨fun u => ?numbers, ?rshl, ?rshr, ?rsar, ?rand, ?ror, ?rxor, fun hrb => ?rsmov, ?rsel⟩
  case numbers =>
    intro e lo hi num fit
    have he : (e == 1) = u := formatBit_beq u
    have hfit : ∀ r, LaneOut.clamped (clampSample u r) = fit r := clamped_clampSample u
    have hna : ∀ n, sampleOf u (laneOf 10 ((s.b.ctx h x).sreg ra.toNat) n) = num (a n) := sampleOf_lane u _
    have hnb : ∀ n, sampleOf u (laneOf 10 ((s.b.ctx h x).sreg rb.toNat) n) = num (b n) := sampleOf_lane u _
    refine ⟨?radd, ?rsub, fun hrb => ?rneg, fun hrb => ?rabs, ?rmin, ?rmax, ?rmulf, ?rdiv⟩
    case radd => exact show execRadd h _ s = _ from rlane_ok hc rfl hps rfl fun n => by simp only [he, hfit, hna, hnb]
    case rsub => exact show execRsub h _ s = _ from rlane_ok hc rfl hps rfl fun n => by simp only [he, hfit, hna, hnb]
    case rneg =>
      exact show execRneg h _ s = _ from rlane_ok hc (by rw [hrb]; rfl) hps rfl fun n => by simp only [he, hfit, hna]
    case rabs =>
      exact show execRabs h _ s = _ from rlane_ok hc (by rw [hrb]; rfl) hps rfl fun n => by simp only [he, hfit, hna]
    case rmin =>
      exact show execRmin h _ s = _ from rlane_ok hc rfl hps rfl fun n => by
        simp only [he]
        rw [plain_smaller u (ha n) (hb n), hfit, hna, hnb]
    case rmax =>
      exact show execRmax h _ s = _ from rlane_ok hc rfl hps rfl fun n => by
        simp only [he]
        rw [plain_larger u (ha n) (hb n), hfit, hna, hnb]
    case rmulf =>
      exact show execRmulf h _ s = _ from rlane_ok hc rfl hps rfl fun n => by simp only [he, hfit, hna, hnb]; rfl
    case rdiv =>
      exact show execRdiv h _ s = _ from rlane_ok hc rfl hps rfl fun n => by
        simp only [he]
        rw [laneDiv_eq u (ha n) (hb n), hfit, hna, hnb]
  case rshl => exact show execRshl h _ s = _ from rlaneShift_done hc hp rfl rfl fun _ => rfl
  case rshr => exact show execRshr h _ s = _ from rlaneShift_done hc hp rfl rfl fun _ => rfl
  case rsar =>
    exact show execRsar h _ s = _ from rlaneShift_done hc hp rfl rfl fun n => codeOf_signedOf_shift (by decide) (ha n) _
  case rand => exact show execRand h _ s = _ from rlane_ok hc rfl hps rfl fun _ => rfl
  case ror => exact show execRlaneRor h _ s = _ from rlane_ok hc rfl hps rfl fun _ => rfl
  case rxor => exact show execRxor h _ s = _ from rlane_ok hc rfl hps rfl fun _ => rfl
  case rsmov => exact show execRsmov h _ s = _ from rlane_ok hc (by rw [hrb]; rfl) hps rfl fun _ => rfl
  case rsel => exact show execRsel h _ s = _ from execRsel_done hc hp rfl rfl

end Sys2Proof
end

section
/-! Predicate operations (R222, Table 8.9): each writes the selected bits of its predicate with the result of a compare of
lanes or of a logical operation on predicates. -/

namespace Sys2Proof.Machine

section
variable {s : State} {h x mi : Nat} {f : FmtE} (hc : HoldsContext s h x)

theorem predBad_false {r : BitVec 5} (hr : r.toNat < 4) : predBad r = false := decide_eq_false (not_le.2 hr)

section
variable (hp : selectAllowed f.ep) (h0 : f.rsv = 0) (hrd : f.rd.toNat < 4)
include hc hp h0 hrd

/-- A compare writes what `g` makes of the lanes' numbers. -/
theorem rcompare_done {raw : Bool} {g : Int → Int → Bool} {q : Nat → Bool} (he : (raw && f.e != 0) = false)
    (hg : ∀ n, g (sampleOf (f.e == 1) (laneOf 10 ((s.b.ctx h x).sreg f.ra.toNat) n))
      (sampleOf (f.e == 1) (laneOf 10 ((s.b.ctx h x).sreg f.rb.toNat) n)) = q n) :
    rcompare h mi f raw g s = .next (s.runnel h x ((s.b.ctx h x).writePreds f.rd.toNat f.ep.toNat q)) :=
  runnelInsn_ctx hc (by rw [predBad_false hrd, he]; rfl) hp h0 (by simp only [hg])

theorem rpredOp_done {one : Bool} {g : Bool → Bool → Bool} (hra : f.ra.toNat < 4)
    (hrb : (if one then f.rb != 0 else predBad f.rb) = false) (he : f.e = 0) :
    rpredOp h mi f one g s = .next (s.runnel h x ((s.b.ctx h x).writePreds f.rd.toNat f.ep.toNat
      (fun n => g (((s.b.ctx h x).pred f.ra.toNat).testBit n) (((s.b.ctx h x).pred f.rb.toNat).testBit n)))) :=
  runnelInsn_ctx hc (by rw [predBad_false hrd, predBad_false hra, hrb, he]; rfl) hp h0 rfl

end

section
variable (he : f.e = 1)
include hc he

theorem rcompare_reserved {g : Int → Int → Bool} :
    rcompare h mi f true g s = .next (s.trapped h (wordE 0x32 mi f) trField 0) :=
  runnelInsn_reserved hc (by rw [he]; exact Bool.or_true _)

theorem rpredOp_reserved {one : Bool} {g : Bool → Bool → Bool} :
    rpredOp h mi f one g s = .next (s.trapped h (wordE 0x32 mi f) trField 0) :=
  runnelInsn_reserved hc (by rw [he]; exact Bool.or_true _)

end

end

end Sys2Proof.Machine

namespace Sys2Proof
open Machine

/-- Settles O58: each instruction from the bits that it writes, and the trap of each row that reserves E. -/
theorem predicateResults : Obligations.PredicateResults := by
  unfold Obligations.PredicateResults
  intro s h x rd ra rb p hc hp hrd v a b pa pb done fails
  have ha : ∀ n, laneOf 10 ((s.b.ctx h x).sreg ra.toNat) n < 1024 := lane_lt _
  have hb : ∀ n, laneOf 10 ((s.b.ctx h x).sreg rb.toNat) n < 1024 := lane_lt _
  have hdone {i : Instr} {g : Nat → Bool} (hi : exec i s = .next (s.runnel h x (v.writePreds rd.toNat p.toNat g))) :
      done i g :=
    ⟨_, hi, fun n hn => v.testBit_writePreds _ _ g hn, fun k hk => v.pred_writePreds_ne _ _ g hk, rfl⟩
  refine ⟨?ceq, ?cne, fun u => ?order, fun hra hrb => ⟨?pand, ?por, ?pxor⟩, fun hra hrb => ?pnot,
    ?ceqReserved, ?cneReserved, ?pandReserved, ?porReserved, ?pxorReserved, ?pnotReserved⟩
  case ceq =>
    exact hdone (show execCeq h _ s = _ from rcompare_done hc hp rfl hrd rfl fun n =>
      decide_eq_decide.2 (sampleOf_inj _ (ha n) (hb n)))
  case cne =>
    exact hdone (show execCne h _ s = _ from rcompare_done hc hp rfl hrd rfl fun n =>
      decide_eq_decide.2 (sampleOf_inj _ (ha n) (hb n)).not)
  case order =>
    intro e num
    have he : (e == 1) = u := formatBit_beq u
    have hna : ∀ n, sampleOf u (laneOf 10 ((s.b.ctx h x).sreg ra.toNat) n) = num (a n) := sampleOf_lane u _
    have hnb : ∀ n, sampleOf u (laneOf 10 ((s.b.ctx h x).sreg rb.toNat) n) = num (b n) := sampleOf_lane u _
    refine ⟨?clt, ?cle, ?cgt, ?cge⟩
    case clt =>
      exact hdone (show execClt h _ s = _ from rcompare_done hc hp rfl hrd rfl fun n => by simp only [he, hna, hnb])
    case cle =>
      exact hdone (show execCle h _ s = _ from rcompare_done hc hp rfl hrd rfl fun n => by simp only [he, hna, hnb])
    case cgt =>
      exact hdone (show execCgt h _ s = _ from rcompare_done hc hp rfl hrd rfl fun n => by simp only [he, hna, hnb])
    case cge =>
      exact hdone (show execCge h _ s = _ from rcompare_done hc hp rfl hrd rfl fun n => by simp only [he, hna, hnb])
  case pand => exact hdone (show execPand h _ s = _ from rpredOp_done hc hp rfl hrd hra (predBad_false hrb) rfl)
  case por => exact hdone (show execPor h _ s = _ from rpredOp_done hc hp rfl hrd hra (predBad_false hrb) rfl)
  case pxor => exact hdone (show execPxor h _ s = _ from rpredOp_done hc hp rfl hrd hra (predBad_false hrb) rfl)
  case pnot => exact hdone (show execPnot h _ s = _ from rpredOp_done hc hp rfl hrd hra (by rw [hrb]; rfl) rfl)
  case ceqReserved => exact show execCeq h _ s = _ from rcompare_reserved hc rfl
  case cneReserved => exact show execCne h _ s = _ from rcompare_reserved hc rfl
  case pandReserved => exact show execPand h _ s = _ from rpredOp_reserved hc rfl
  case porReserved => exact show execPor h _ s = _ from rpredOp_reserved hc rfl
  case pxorReserved => exact show execPxor h _ s = _ from rpredOp_reserved hc rfl
  case pnotReserved => exact show execPnot h _ s = _ from rpredOp_reserved hc rfl

end Sys2Proof
end

section
/-! Accumulator operations (R211, R223, Table 8.10): the number of an accumulator lane, what a clamped result makes of its
lane, and what each instruction leaves in the selected lanes. -/

namespace Sys2Proof.Machine

theorem acc_lane_lt (v n : Nat) : laneOf 32 v n < 2 ^ 32 := Nat.mod_lt _ (by decide)

theorem clamped_clampAcc (r : Int) : LaneOut.clamped (clampAcc r) =
    ⟨((if r < -2 ^ 31 then -2 ^ 31 else if 2 ^ 31 - 1 < r then 2 ^ 31 - 1 else r) % 2 ^ 32).toNat,
      decide (r < -2 ^ 31 ∨ 2 ^ 31 - 1 < r), false⟩ :=
  clamped_clampInt 32 (-2 ^ 31) (2 ^ 31 - 1) r

theorem accBad_false {r : BitVec 5} (hr : r.toNat < 8) : accBad r = false := decide_eq_false (not_le.2 hr)

section
variable {s : State} {h x mi : Nat} {f : FmtE} (hc : HoldsContext s h x) (hp : selectAllowed f.ep) (h0 : f.rsv = 0)
  (hrd : f.rd.toNat < 8)
include hc hp h0 hrd

/-- A product of lanes joins the accumulator; in a mixed row ra is read as U10 and rb as S10. -/
theorem rproduct_done {mixed : Bool} {g : Int → Int → Int} {k : Nat → LaneOut} (he : (mixed && f.e != 0) = false)
    (hg : ∀ n, LaneOut.clamped (clampAcc (g (signedOf 32 (laneOf 32 ((s.b.ctx h x).acc f.rd.toNat) n))
      (sampleOf (f.e == 1 || mixed) (laneOf 10 ((s.b.ctx h x).sreg f.ra.toNat) n) *
        sampleOf (f.e == 1) (laneOf 10 ((s.b.ctx h x).sreg f.rb.toNat) n)))) = k n) :
    rproduct h mi f mixed g s = .next (s.runnel h x ((s.b.ctx h x).writeAccs f.rd.toNat f.ep.toNat k)) :=
  runnelInsn_ctx hc (by rw [accBad_false hrd, he]; rfl) hp h0 (by simp only [hg])

theorem raccPair_done {g : Int → Int → Int} {k : Nat → LaneOut} (hra : f.ra.toNat < 8) (hrb : f.rb.toNat < 8)
    (he : f.e = 0) (hg : ∀ n, LaneOut.clamped (clampAcc (g (signedOf 32 (laneOf 32 ((s.b.ctx h x).acc f.ra.toNat) n))
      (signedOf 32 (laneOf 32 ((s.b.ctx h x).acc f.rb.toNat) n)))) = k n) :
    raccPair h mi f g s = .next (s.runnel h x ((s.b.ctx h x).writeAccs f.rd.toNat f.ep.toNat k)) :=
  runnelInsn_ctx hc (by rw [accBad_false hrd, accBad_false hra, accBad_false hrb, he]; rfl) hp h0 (by simp only [hg])

theorem raccShift_done {g : Nat → Nat → Nat} {k : Nat → Nat} (hra : f.ra.toNat < 8) (he : f.e = 0)
    (hg : ∀ n, g (laneOf 32 ((s.b.ctx h x).acc f.ra.toNat) n) ((s.b.reg h f.rb).toNat % 256) = k n) :
    raccShift h mi f g s =
      .next (s.runnel h x ((s.b.ctx h x).writeAccs f.rd.toNat f.ep.toNat (fun n => .plain (k n)))) :=
  runnelInsn_ctx hc (by rw [accBad_false hrd, accBad_false hra, he]; rfl) hp h0 (by simp only [State.issued_reg, hg])

theorem execRacc_done {k : Nat → LaneOut} (hrb : f.rb = 0)
    (hg : ∀ n, LaneOut.clamped (clampAcc (signedOf 32 (laneOf 32 ((s.b.ctx h x).acc f.rd.toNat) n) +
      sampleOf (f.e == 1) (laneOf 10 ((s.b.ctx h x).sreg f.ra.toNat) n) * 512)) = k n) :
    execRacc h f s = .next (s.runnel h x ((s.b.ctx h x).writeAccs f.rd.toNat f.ep.toNat k)) :=
  runnelInsn_ctx hc (by rw [accBad_false hrd, hrb]; rfl) hp h0 (by simp only [hg])

theorem execRaclr_done (hra : f.ra = 0) (hrb : f.rb = 0) (he : f.e = 0) : execRaclr h f s =
    .next (s.runnel h x ((s.b.ctx h x).writeAccs f.rd.toNat f.ep.toNat (fun _ => .plain 0))) :=
  runnelInsn_ctx hc (by rw [accBad_false hrd, hra, hrb, he]; rfl) hp h0 rfl

theorem execRaset_done (hrb : f.rb = 0) (he : f.e = 0) : execRaset h f s =
    .next (s.runnel h x ((s.b.ctx h x).writeAccs f.rd.toNat f.ep.toNat (fun _ => .plain (s.b.reg h f.ra).toNat))) :=
  runnelInsn_ctx hc (by rw [accBad_false hrd, hrb, he]; rfl) hp h0 (by simp only [State.issued_reg])

theorem execRamov_done (hra : f.ra.toNat < 8) (hrb : f.rb = 0) (he : f.e = 0) : execRamov h f s =
    .next (s.runnel h x ((s.b.ctx h x).writeAccs f.rd.toNat f.ep.toNat
      (fun n => .plain (laneOf 32 ((s.b.ctx h x).acc f.ra.toNat) n)))) :=
  runnelInsn_ctx hc (by rw [accBad_false hrd, accBad_false hra, hrb, he]; rfl) hp h0 rfl

end

end Sys2Proof.Machine

namespace Sys2Proof
open Machine

/-- Settles O59: each instruction from what its operation makes of the accumulator's lanes. -/
theorem accumulatorResults : Obligations.AccumulatorResults := by
  unfold Obligations.AccumulatorResults
  intro s h x rd ra rb p hc hp hrd v a b acc k done fit
  have ha : ∀ n, laneOf 10 ((s.b.ctx h x).sreg ra.toNat) n < 1024 := lane_lt _
  have hb : ∀ n, laneOf 10 ((s.b.ctx h x).sreg rb.toNat) n < 1024 := lane_lt _
  have hfit : ∀ r, LaneOut.clamped (clampAcc r) = fit r := clamped_clampAcc
  have hacc : ∀ r n, signedOf 32 (laneOf 32 ((s.b.ctx h x).acc r) n) = acc r n :=
    fun r n => signedOf_of_lt (acc_lane_lt _ n)
  refine ⟨fun u => ?formats, ?mixed, fun hra hrb => ?raclr, fun hrb => ?raset, fun hra hrb => ⟨?raadd, ?rasub⟩,
    fun hra => ⟨fun hrb => ?ramov, ?rashl, ?rashr, ?rasar⟩⟩
  case formats =>
    intro e num
    have he : (e == 1) = u := formatBit_beq u
    have hna : ∀ n, sampleOf u (laneOf 10 ((s.b.ctx h x).sreg ra.toNat) n) = num (a n) := sampleOf_lane u _
    have hnb : ∀ n, sampleOf u (laneOf 10 ((s.b.ctx h x).sreg rb.toNat) n) = num (b n) := sampleOf_lane u _
    refine ⟨?rmul, ?rmac, ?rmsu, fun hrb => ?racc⟩
    case rmul =>
      exact show execRmul h _ s = _ from rproduct_done hc hp rfl hrd rfl fun n => by
        simp only [he, Bool.or_false, hfit, hna, hnb]
    case rmac =>
      exact show execRmac h _ s = _ from rproduct_done hc hp rfl hrd rfl fun n => by
        simp only [he, Bool.or_false, hfit, hacc, hna, hnb]
    case rmsu =>
      exact show execRmsu h _ s = _ from rproduct_done hc hp rfl hrd rfl fun n => by
        simp only [he, Bool.or_false, hfit, hacc, hna, hnb]
    case racc =>
      exact show execRacc h _ s = _ from execRacc_done hc hp rfl hrd hrb fun n => by
        simp only [he, hfit, hacc, hna]; rfl
  case mixed =>
    intro s10
    have hna : ∀ n, sampleOf true (laneOf 10 ((s.b.ctx h x).sreg ra.toNat) n) = (a n : Int) :=
      fun n => sampleOf_true (ha n)
    have hnb : ∀ n, sampleOf false (laneOf 10 ((s.b.ctx h x).sreg rb.toNat) n) = s10 (b n) := fun n =>
      signedOf_of_lt (w := 10) (hb n)
    exact ⟨show execRmulus h _ s = _ from rproduct_done hc hp rfl hrd rfl fun n =>
        (hfit _).trans (congrArg fit (congrArg₂ (· * ·) (hna n) (hnb n))),
      show execRmacus h _ s = _ from rproduct_done hc hp rfl hrd rfl fun n =>
        (hfit _).trans (congrArg fit (congrArg₂ (· + ·) (hacc _ n) (congrArg₂ (· * ·) (hna n) (hnb n))))⟩
  case raclr => exact show execRaclr h _ s = _ from execRaclr_done hc hp rfl hrd hra hrb rfl
  case raset => exact show execRaset h _ s = _ from execRaset_done hc hp rfl hrd hrb rfl
  case raadd =>
    exact show execRaadd h _ s = _ from raccPair_done hc hp rfl hrd hra hrb rfl fun n => by simp only [hfit, hacc]
  case rasub =>
    exact show execRasub h _ s = _ from raccPair_done hc hp rfl hrd hra hrb rfl fun n => by simp only [hfit, hacc]
  case ramov => exact show execRamov h _ s = _ from execRamov_done hc hp rfl hrd hra hrb rfl
  case rashl => exact show execRashl h _ s = _ from raccShift_done hc hp rfl hrd hra rfl fun _ => rfl
  case rashr => exact show execRashr h _ s = _ from raccShift_done hc hp rfl hrd hra rfl fun _ => rfl
  case rasar =>
    exact show execRasar h _ s = _ from raccShift_done hc hp rfl hrd hra rfl fun n =>
      codeOf_signedOf_shift (by decide) (acc_lane_lt _ n) _

end Sys2Proof
end

section
/-! Contexts of threads (R213 to R219, R231): binding and freeing, control words, and the moves of the context image. -/

namespace Sys2Proof.Machine

@[simp] theorem State.issued_core (s : State) (h c : Nat) : (s.issued h).core c = s.b.core c := rfl
@[simp] theorem State.issued_cycleOf (s : State) (h k : Nat) : (s.issued h).cycleOf k = s.b.cycleOf k := rfl

@[simp] theorem Body.nextPc_bindContext (b : Body) (h x k : Nat) : (b.bindContext h x).nextPc k = b.nextPc k := by
  simp [Body.nextPc, Body.bindContext]

/-- A thread holds one of its core's two contexts. -/
theorem Body.contextOf_lt {b : Body} {h x : Nat} (hx : b.contextOf h = some x) : x < 2 := by
  unfold Body.contextOf at hx
  dsimp only at hx
  split_ifs at hx <;> cases hx <;> decide

/-- A word of a data-plane thread without a reserved field in use passes decode. -/
theorem runnelBad_none {h : Nat} {r : Bool} {f : FmtE} (hplane : h < 1024) (hr : r = false) (hp : selectAllowed f.ep)
    (h0 : f.rsv = 0) : runnelBad h false r f = none :=
  badWord_fine (by rw [decide_eq_false (not_le.2 hplane)]; rfl) (by rw [hr, psel_ok hp, h0]; rfl)

theorem selectAllowed_zero : selectAllowed 0 := by simp [selectAllowed]

section
variable {s : State} {h : Nat} (hi : Issues s h) (hplane : h < 1024)
include hi hplane

/-! RBIND (R213) and RFREE (R215). -/

section
variable (rd : BitVec 5)

theorem execRbind_held {x : Nat} (hx : s.b.contextOf h = some x) :
    execRbind h ⟨rd, 0, 0, 0, 0, 0⟩ s = .next (s.wrote h rd (BitVec.ofNat 32 x)) := by
  refine insn_done hi (runnelBad_none hplane rfl selectAllowed_zero rfl) ?_ rfl
  simp only [State.issued_contextOf, hx, Body.wordDone, State.issued_nextPc]

variable (hnone : s.b.contextOf h = none)
include hnone

theorem execRbind_first (hfree : (s.b.core (h / 8)).ctx0.owner = none) : execRbind h ⟨rd, 0, 0, 0, 0, 0⟩ s =
    .next (s.committed h (((s.issued h).bindContext h 0).setReg h rd 0) 1 (s.after h)) := by
  refine insn_done hi (runnelBad_none hplane rfl selectAllowed_zero rfl) ?_ rfl
  simp only [State.issued_contextOf, hnone, State.issued_core, coreOf, hfree, Option.isNone_none, if_true, Body.wordDone,
    Body.nextPc_bindContext, State.issued_nextPc]
  rfl

variable (htaken : (s.b.core (h / 8)).ctx0.owner ≠ none)
include htaken

theorem execRbind_second (hfree : (s.b.core (h / 8)).ctx1.owner = none) : execRbind h ⟨rd, 0, 0, 0, 0, 0⟩ s =
    .next (s.committed h (((s.issued h).bindContext h 1).setReg h rd 1) 1 (s.after h)) := by
  refine insn_done hi (runnelBad_none hplane rfl selectAllowed_zero rfl) ?_ rfl
  simp only [State.issued_contextOf, hnone, State.issued_core, coreOf, Option.isNone_iff_eq_none, htaken, hfree,
    Option.isNone_none, if_false, if_true, Body.wordDone, Body.nextPc_bindContext, State.issued_nextPc]
  rfl

theorem execRbind_waits (htaken1 : (s.b.core (h / 8)).ctx1.owner ≠ none) : execRbind h ⟨rd, 0, 0, 0, 0, 0⟩ s =
    .next { s with b := s.b.modHart h (fun y => { y with block := .rbind (s.b.cycleOf h) }) } := by
  refine insn_wait hi.1 (runnelBad_none hplane rfl selectAllowed_zero rfl) ?_
  simp only [State.issued_contextOf, hnone, State.issued_core, coreOf, Option.isNone_iff_eq_none, htaken, htaken1, if_false,
    State.issued_cycleOf]

end

theorem execRfree_done : execRfree h ⟨0, 0, 0, 0, 0, 0⟩ s = .next (s.committed h
    (if (s.b.contextOf h).isSome then (s.issued h).freeContexts h else s.issued h) 1 (s.after h)) := by
  refine insn_done hi (runnelBad_none hplane rfl selectAllowed_zero rfl) ?_ rfl
  simp only [State.issued_contextOf, State.issued_nextPc]
  rfl

end

/-! Control words (R218, Tables 8.5 and 8.6). -/

/-- RCS shows the context's number in bit 5. -/
theorem RCtx.rcs_eq (v : RCtx) {x : Nat} (hx : x < 2) : v.rcs x =
    v.rmode % 4 + (if v.satLanes ≠ 0 then 4 else 0) + (if v.dzLanes ≠ 0 then 8 else 0) + (if v.wsat then 16 else 0) +
      32 * x := by
  rw [RCtx.rcs, Nat.mod_eq_of_lt hx]

section
variable {s : State} {h x : Nat} (hc : HoldsContext s h x) {k : BitVec 5} (hk : k.toNat < 7)
include hc hk

theorem execRmfc_done (rd : BitVec 5) : execRmfc h ⟨rd, 0, k, 0, 0, 0⟩ s =
    .next (s.wrote h rd (BitVec.ofNat 32 ((s.b.ctx h x).control x k.toNat))) :=
  runnelInsn_word hc (by rw [decide_eq_false (not_le.2 hk)]; rfl) selectAllowed_zero rfl rfl

theorem execRmtc_done (ra : BitVec 5) : execRmtc h ⟨0, ra, k, 0, 0, 0⟩ s =
    .next (s.runnel h x ((s.b.ctx h x).setControl k.toNat (s.b.reg h ra).toNat)) :=
  runnelInsn_ctx hc (by rw [decide_eq_false (not_le.2 hk)]; rfl) selectAllowed_zero rfl (by simp only [State.issued_reg])

end

/-! The context image (R231). -/

/-- An aligned image in general data memory that the thread may reach passes the checks of R231. -/
theorem imagePlace_none {b : Body} {h a : Nat} {r w : Bool} (halign : a % 64 = 0) (hlow : a + 2432 ≤ 0x1E000)
    (hplace : b.place h a 2432 r w = some (.local a)) : b.imagePlace h a r w = none := by
  simp [Body.imagePlace, halign, hlow, hplace]

section
variable {s : State} {h x : Nat} (hc : HoldsContext s h x 152) {ra : BitVec 5} (halign : (s.b.reg h ra).toNat % 64 = 0)
  (hlow : (s.b.reg h ra).toNat + 2432 ≤ 0x1E000)
include hc halign hlow

theorem execRsave_done
    (hplace : s.b.place h (s.b.reg h ra).toNat 2432 false true = some (.local (s.b.reg h ra).toNat)) :
    execRsave h ⟨0, ra, 0, 0, 0, 0⟩ s = .next (s.committed h { s.issued h with
      mem.lmem := writeBytes s.b.mem.lmem (lmemAddr (h / 8) (s.b.reg h ra).toNat) ((s.b.ctx h x).image x) } 152
      (s.after h)) := by
  refine runnel_ok hc rfl rfl rfl ?_
  simp only [State.issued_reg, imagePlace_none halign hlow ((State.issued_place ..).trans hplace), State.issued_nextPc]
  rfl

theorem execRrestore_done
    (hplace : s.b.place h (s.b.reg h ra).toNat 2432 true false = some (.local (s.b.reg h ra).toNat)) :
    execRrestore h ⟨0, ra, 0, 0, 0, 0⟩ s = .next (s.committed h ((s.issued h).setCtx h x ((s.b.ctx h x).ofImage
      (readBytes s.b.mem.lmem (lmemAddr (h / 8) (s.b.reg h ra).toNat) 2432))) 152 (s.after h)) := by
  refine runnel_ok hc rfl rfl rfl ?_
  simp only [State.issued_reg, imagePlace_none halign hlow ((State.issued_place ..).trans hplace), State.issued_nextPc]
  rfl

end

end Sys2Proof.Machine

namespace Sys2Proof
open Machine

/-- Settles O54: RBIND by who owns the core's contexts, RFREE with a context and without, and the instructions of a thread
that holds one. -/
theorem runnelContextResults : Obligations.RunnelContextResults := by
  unfold Obligations.RunnelContextResults
  intro s h hi hplane c
  refine ⟨fun rd => ?rbind, fun hnone => ?rfreeNone, fun x hx => ⟨?rfree, ?rfence, fun rd => ?rmfc, fun ra => ?rmtc,
    fun ra halign hlow hroom => ?image⟩⟩
  case rbind =>
    exact ⟨fun x hx => execRbind_held hi hplane rd hx, execRbind_first hi hplane rd, execRbind_second hi hplane rd,
      execRbind_waits hi hplane rd⟩
  case rfreeNone => exact show execRfree h _ s = _ from (execRfree_done hi hplane).trans (by rw [hnone]; rfl)
  case rfree => exact show execRfree h _ s = _ from (execRfree_done hi hplane).trans (by rw [hx]; rfl)
  all_goals have hc : HoldsContext s h x := ⟨hi, hplane, hx⟩
  case rfence => exact show execRfence h _ s = _ from runnelInsn_ctx hc rfl selectAllowed_zero rfl rfl
  case rmfc =>
    have hget {k : BitVec 5} (hk : k.toNat < 7) :=
      show exec (.rmfc h ⟨rd, 0, k, 0, 0, 0⟩) s = _ from execRmfc_done hc hk rd
    intro get
    refine ⟨?_, hget (by decide), hget (by decide), hget (by decide), hget (by decide), hget (by decide),
      hget (by decide)⟩
    exact (hget (by decide)).trans (by rw [← RCtx.rcs_eq _ (Body.contextOf_lt hx)]; rfl)
  case rmtc =>
    have hput {k : BitVec 5} (hk : k.toNat < 7) :=
      show exec (.rmtc h ⟨0, ra, k, 0, 0, 0⟩) s = _ from execRmtc_done hc hk ra
    intro w put
    have hw : w % 2 ^ 32 = w := BitVec.toNat_mod_cancel _
    refine ⟨hput (by decide), (hput (by decide)).trans ?_, (hput (by decide)).trans ?_, hput (by decide), hput (by decide),
      hput (by decide), hput (by decide)⟩
    · rw [← hw]; rfl
    · rw [← hw]; rfl
  case image =>
    have hlong : HoldsContext s h x 152 := ⟨⟨hi.1, hroom⟩, hplane, hx⟩
    exact ⟨execRsave_done hlong halign hlow, execRrestore_done hlong halign hlow⟩

end Sys2Proof
end

section
/-! A block move across the end of general data memory (R225). The work slot of the first thread of a core begins where
general data memory ends, so that `Body.place` finds a block across that address in the thread's reach; `Body.blockTrap`
traps it, for it lies neither in the one nor in the other as a whole. -/

namespace Sys2Proof.Machine

/-- Whether a hart is in its trap handler after a command. -/
def inTrapAfter (h : Nat) : Host.Outcome State Fault Refusal → Option Bool
  | .next t => some (t.b.hart h).inTrap
  | _ => none

/-- Core commit neither enters nor leaves a trap handler. -/
theorem inTrap_coreCommit (b : Body) (tm : Time) {h : Nat} (hh : h < 1024) (cycles pc : Nat) (regs : SMap Word) :
    ((b.coreCommit tm h cycles pc regs).hart h).inTrap = (b.hart h).inTrap := by
  rw [Body.hart_coreCommit_thread b tm cycles pc regs hh]
  rfl

/-- Thread 0 runs an event-only item, holds context 0 of its core and has all of local memory in its region 0, to read; w2
holds an address 16 bytes below the end of general data memory. -/
def besideSlot : State :=
  let it : Item := { strayItem with src := .event, program := 0 }
  let b := { Body.reset with
    sys.base := .service
    isa := ⟨[(0, { Hart.reset with phase := .running, item := some it, regs := [(2, 0x1DFF0)] })],
      [(0, { CoreSt.reset with issuing := some 0, ctx0 := { RCtx.reset with owner := some 0 } })], [], []⟩ }
  { State.reset with b := (((b.fset clsMemregion 0x10000 FRegion.en 1).fset clsMemregion 0x10000 FRegion.base 0).fset
    clsMemregion 0x10000 FRegion.top 0xFFFFFFC0).fset clsMemregion 0x10000 FRegion.r 1 }

theorem besideSlot_holds : HoldsContext besideSlot 0 0 := by
  refine ⟨⟨⟨?_, ?_, .inl ?_⟩, ?_⟩, ?_, ?_⟩
  case refine_4 => unfold State.Room; decide
  all_goals decide

end Sys2Proof.Machine

namespace Sys2Proof
open Machine

/-- Refutes O60: it has every RLD whose block `Body.place` finds in local memory reach core commit. `besideSlot`'s thread 0
loads 40 bytes from 0x1DFF0, the last 16 of general data memory and the first 24 of its own work slot, and traps with
REGION (R225). -/
theorem not_transferResults : ¬ Obligations.TransferResults := by
  unfold Obligations.TransferResults
  rintro ⟨-, hblocks⟩
  obtain ⟨hload, -⟩ := hblocks besideSlot 0 0 0 2 0 0 0 besideSlot_holds (by simp [selectAllowed]) (by decide)
    (fun h => absurd h (by decide)) (by decide)
  obtain ⟨g, -, hcommit⟩ := hload (by decide)
  have htraps : inTrapAfter 0 (exec (.rld 0 0 ⟨0, 2, 0, 0, 0, 0⟩) besideSlot) = some true := by decide
  rw [hcommit] at htraps
  simp only [inTrapAfter, State.committed, inTrap_coreCommit _ _ (show 0 < 1024 by decide), Option.some.injEq,
    Body.setCtx, Body.hart_setCore] at htraps
  exact absurd htraps (by decide)

end Sys2Proof
end

section
/-! The shadow walker's count (R275): a block check notes the tick in which it reads its block and how many blocks of that
tick it has read, which SHADOW_RATE limits. -/

namespace Sys2Proof.Machine

/-- The shadow walk of an instance after a command. -/
def shadowAfter (n : Nat) : Host.Outcome State Fault Refusal → Option Shadow
  | .next t => some (t.b.shadow n)
  | _ => none

theorem Body.shadow_setShadow_self (b : Body) (n : Nat) (x : Shadow) : (b.setShadow n x).shadow n = x :=
  mapGet_mapPut_self ..

/-- Counting a completed walk leaves the walk as it is. -/
theorem shadow_countPass (b : Body) (n : Nat) (x : Shadow) (last : Prop) [Decidable last] (cls inst : Nat) (f : Fld)
    (k : Nat) : (if last then (b.setShadow n x).bump cls inst f k else b.setShadow n x).shadow n = x := by
  split
  · exact Body.shadow_setShadow_self ..
  · exact Body.shadow_setShadow_self ..

/-- The blocks that the walker of an instance has read in the present tick. -/
def Body.shadowDone (b : Body) (n : Nat) : Nat := if (b.shadow n).tick = b.work.tickSets then (b.shadow n).done else 0

/-- A walk whose count starts anew with each tick. -/
theorem shadow_countedAnew (b : Body) (n : Nat) :
    (if (b.shadow n).tick = b.work.tickSets then b.shadow n else { b.shadow n with tick := b.work.tickSets, done := 0 }) =
      { b.shadow n with tick := b.work.tickSets, done := b.shadowDone n } := by
  unfold Body.shadowDone
  split
  · next hsame => rw [← hsame]
  · rfl

/-- A block check advances the walk, with the present tick and one block more of that tick. -/
theorem shadowAfter_execShadowBlockCheck {s : State} {n : Nat} (hon : s.b.tableOn n = true)
    (hclear : s.b.tableClearing n = false) (hen : s.b.fget clsTable n FTable.shadowEn = 1)
    (hrate : s.b.shadowDone n < s.b.fget clsTable n FTable.shadowRate)
    (hruns : s.b.shadowHeld n (s.b.shadow n).next = false) :
    shadowAfter n (execShadowBlockCheck n s) = some
      { next := if ceilDiv (s.b.tableGeo n).entries 256 ≤ (s.b.shadow n).next + 1 then 0 else (s.b.shadow n).next + 1
        tick := s.b.work.tickSets
        done := s.b.shadowDone n + 1
        again := if s.b.blockDiffers n (s.b.shadow n).next then
          (s.b.shadow n).again ++ [((s.b.shadow n).next, s.b.work.tickSets)] else (s.b.shadow n).again } := by
  simp only [execShadowBlockCheck, onBody, shadow_countedAnew, hon, hclear, hen, hrate, hruns, shadowAfter, Bool.not_false,
    beq_self_eq_true, decide_true, Bool.and_self, if_true, shadow_countPass]

/-- Table 7 is on and has a shadow, and its walker has read no block when two boundaries have passed. -/
def unwalkedShadow : State :=
  let b := { Body.reset with sys.base := .service, work.tickSets := 2 }
  { State.reset with b := (b.fset clsTable 7 FTable.enable 1).fset clsTable 7 FTable.shadowEn 1 }

theorem unwalkedShadow_checks :
    unwalkedShadow.b.tableOn 7 = true ∧ unwalkedShadow.b.tableClearing 7 = false ∧
    unwalkedShadow.b.fget clsTable 7 FTable.shadowEn = 1 ∧
    unwalkedShadow.b.shadowDone 7 < unwalkedShadow.b.fget clsTable 7 FTable.shadowRate ∧
    unwalkedShadow.b.shadowHeld 7 (unwalkedShadow.b.shadow 7).next = false := by decide

end Sys2Proof.Machine

namespace Sys2Proof
open Machine

/-- Refutes O38: it has SHADOW_BLOCK_CHECK note the blocks read where the walk keeps its tick, and the tick where it keeps
the blocks read. After the first check of `unwalkedShadow` the walk holds tick 2 and one block (R275), and not tick 1 and two
blocks. -/
theorem not_tableCommands : ¬ Obligations.TableCommands := by
  unfold Obligations.TableCommands
  rintro ⟨-, -, -, hcheck, -⟩
  obtain ⟨hon, hclear, hen, hrate, hruns⟩ := unwalkedShadow_checks
  have hstated := congrArg (shadowAfter 7) (hcheck unwalkedShadow 7 hon hclear hen hrate hruns)
  have hwalk := (shadowAfter_execShadowBlockCheck hon hclear hen hrate hruns).symm.trans hstated
  simp only [shadowAfter, shadow_countPass, Option.some.injEq, Shadow.mk.injEq] at hwalk
  obtain ⟨-, htick, -, -⟩ := hwalk
  exact absurd htick (by decide)

end Sys2Proof
end

section
/-! The Basin's input queue and the frames of its emissions (R294, R296, R301): BASIN_APPLY where it runs the cuts that
waited and where it applies the head entry, SNAPSHOT_FRAME with a buffer for its frame and without. -/

namespace Sys2Proof.Machine
variable {s : State}

/-- With no emission in progress the cuts that wait go before any entry. -/
theorem execBasinApply_cuts (hidle : s.b.bas.emissions = []) (hcuts : s.b.bas.cuts ≠ []) :
    execBasinApply s = .next { s with b := (s.b.goCuts s.tm).settle s.tm } := by
  simp only [execBasinApply, onDev, hidle, hcuts, ne_eq, not_false_eq_true, and_self, if_true]

/-- With neither an emission nor a cut before it, the head entry is applied in the cycle after its own. -/
theorem execBasinApply_head {e : BasinEntry} {r : List BasinEntry} (hidle : s.b.bas.emissions = [])
    (hcuts : s.b.bas.cuts = []) (hruns : s.b.basinHeld 1 = false) (hqueue : s.b.bas.queue = e :: r) :
    let d := (Dev.mk s.tm s.b).waitCycle (max s.b.bas.ends (e.cyc + 1))
    execBasinApply s = .next { s with tm := d.tm, b := ((d.b.applyEntries d.tm 1).basinAdmit).settle d.tm } := by
  simp only [execBasinApply, onDev, hidle, hcuts, hruns, hqueue, ne_eq, not_true_eq_false, and_false, if_false,
    Bool.false_eq_true, not_false_eq_true, and_self, if_true]

/-- The emission after one more of its frames: the rest of its frames stand at the front, and the last frame counts the
emission and notes its tick. -/
def Body.frameSent (b : Body) (e : Emission) (fs : List (Nat × List Byte)) (rest : List Emission) : Body :=
  if fs = [] then
    (({ b with bas.emissions := rest }).bump clsBasin (listInst e.list.num) FList.emitted 1).fset clsBasin
      (listInst e.list.num) FList.lastTick e.tick
  else { b with bas.emissions := { e with frames := fs } :: rest }

theorem frameSent_more {b : Body} {e : Emission} {fs : List (Nat × List Byte)} {rest : List Emission} (hmore : fs ≠ []) :
    b.frameSent e fs rest = { b with bas.emissions := { e with frames := fs } :: rest } := if_neg hmore

theorem frameSent_last {b : Body} {e : Emission} {fs : List (Nat × List Byte)} {rest : List Emission} (hlast : fs = []) :
    b.frameSent e fs rest =
      (({ b with bas.emissions := rest }).bump clsBasin (listInst e.list.num) FList.emitted 1).fset clsBasin
        (listInst e.list.num) FList.lastTick e.tick := if_pos hlast

/-- The egress frame of a snapshot frame of `n` bytes in buffer `h`. -/
def snapEgFrame (e : Emission) (h n : Nat) : EgFrame :=
  ⟨0, h, n, snapDesc e h n, 0, false, e.list.port * 2 ^ 48 + e.list.cls * 2 ^ 56, none, false, none, .none, false, false⟩

theorem emitFrame_noBuffer {b : Body} {e : Emission} {data : List Byte}
    (hbuf : b.takeForced e.list.tent (data.length + 4) data = none) : b.emitFrame e data = none := by
  simp only [Body.emitFrame, hbuf]

theorem emitFrame_buffer {b b0 : Body} {e : Emission} {data : List Byte} {h : Nat}
    (hbuf : b.takeForced e.list.tent (data.length + 4) data = some (h, b0)) :
    b.emitFrame e data =
      some ((b0.egEnqueue (snapEgFrame e h (data.length + 4))).bump clsBasin 0 FBasin.snapFrames 1) := by
  simp only [Body.emitFrame, hbuf, snapEgFrame]

section
variable {e : Emission} {rest : List Emission} {c : Nat} {data : List Byte} {fs : List (Nat × List Byte)}
  (hemission : s.b.bas.emissions = e :: rest) (hframe : e.frames = (c, data) :: fs)
include hemission hframe

/-- Without a buffer only the time passes: the frame stays at the head of its emission. -/
theorem execSnapshotFrame_waits (hbuf : ((Dev.mk s.tm s.b).waitCycle c).b.emitFrame e data = none) :
    let d := (Dev.mk s.tm s.b).waitCycle c
    execSnapshotFrame s = .next { s with tm := d.tm, b := d.b } := by
  simp only [execSnapshotFrame, onDev, hemission, hframe, hbuf]

/-- With a buffer the frame is enqueued and leaves its emission, and the cut ends with the last emission. -/
theorem execSnapshotFrame_sends {b1 b2 : Body}
    (hbuf : ((Dev.mk s.tm s.b).waitCycle c).b.emitFrame e data = some b1) (hsent : b1.frameSent e fs rest = b2) :
    let d := (Dev.mk s.tm s.b).waitCycle c
    execSnapshotFrame s = .next { s with tm := d.tm, b := (b2.cutEnds d.tm).settle d.tm } := by
  subst hsent
  simp only [execSnapshotFrame, onDev, hemission, hframe, hbuf, Body.frameSent]

end

end Sys2Proof.Machine

namespace Sys2Proof
open Machine

/-- Settles O39: BASIN_APPLY at a cut and at an entry, SNAPSHOT_FRAME by whether a buffer is free and whether the frame is
the last of its emission. -/
theorem basinCommandsComplete : Obligations.BasinCommandsComplete := by
  unfold Obligations.BasinCommandsComplete
  refine ⟨fun s e r hidle hqueue hcuts hruns => ?apply, fun s hidle hcuts => ?cuts,
    fun s e rest c h data fs hemission hframe => ⟨fun hbuf => ?waits, fun b0 hbuf => ⟨fun hmore => ?more, fun hlast => ?last⟩⟩⟩
  case apply => exact execBasinApply_head hidle hcuts hruns hqueue
  case cuts => exact execBasinApply_cuts hidle hcuts
  case waits => exact execSnapshotFrame_waits hemission hframe (emitFrame_noBuffer hbuf)
  case more => exact execSnapshotFrame_sends hemission hframe (emitFrame_buffer hbuf) (frameSent_more hmore)
  case last => exact execSnapshotFrame_sends hemission hframe (emitFrame_buffer hbuf) (frameSent_last hlast)

end Sys2Proof
end

section
/-! The freeze of a DRAM channel (R345, R346): the capture in the channel's object, and what the freeze level and the
ports that go down with the Freeze overlay leave. -/

namespace Sys2Proof.Machine

/-! What ports that go down leave. -/

/-- `c` is `b` in its threads, memory and memory controller, in the DRAM objects, and in the freeze level. -/
structure KeptByPorts (b c : Body) : Prop where
  isa : c.isa = b.isa
  mem : c.mem = b.mem
  drm : c.drm = b.drm
  dram : ∀ i (f : Fld), i < 2 ^ 24 → f.lo < 2 ^ 16 → c.fget clsDram i f = b.fget clsDram i f
  level : c.fget clsIrq 36 FIrq.level = b.fget clsIrq 36 FIrq.level

theorem KeptByPorts.refl (b : Body) : KeptByPorts b b := ⟨rfl, rfl, rfl, fun _ _ _ _ => rfl, rfl⟩

theorem KeptByPorts.trans {a b c : Body} (h : KeptByPorts a b) (k : KeptByPorts b c) : KeptByPorts a c where
  isa := k.isa.trans h.isa
  mem := k.mem.trans h.mem
  drm := k.drm.trans h.drm
  dram i f hi hf := (k.dram i f hi hf).trans (h.dram i f hi hf)
  level := k.level.trans h.level

/-- A change of nothing but buffers, the network side, interrupt notes and outputs. -/
theorem KeptByPorts.beside_fields (b : Body) (work : Work) (net : Net) (sync : Sync) (outputs : List Output) :
    KeptByPorts b { b with work := work, net := net, sync := sync, outputs := outputs } :=
  ⟨rfl, rfl, rfl, fun _ _ _ _ => rfl, rfl⟩

/-- A write of a field of another class, or of another interrupt source. -/
theorem KeptByPorts.fset (b : Body) {k i : Nat} {f : Fld} (v : Nat) (hi : i < 2 ^ 24) (hf : f.lo < 2 ^ 16)
    (hdram : k ≠ clsDram) (hirq : k ≠ clsIrq ∨ i ≠ 36) : KeptByPorts b (b.fset k i f v) where
  isa := rfl
  mem := rfl
  drm := rfl
  dram _ _ hj hg := Body.fget_fset_ne b (fieldKey_ne hj hi hg hf (.inl hdram.symm)) v
  level := Body.fget_fset_ne b (fieldKey_ne (by decide) hi (by decide) hf
    (hirq.imp Ne.symm fun h => .inl h.symm)) v

theorem KeptByPorts.fsetPort (b : Body) {p : Nat} {f : Fld} (v : Nat) (hp : p < 65) (hf : f.lo < 2 ^ 16) :
    KeptByPorts b (b.fset clsPort p f v) := .fset b v (by omega) hf (by decide) (.inl (by decide))

theorem setLevel_keptByPorts (b : Body) {s : Nat} (v : Bool) (hs : s < 2 ^ 24) (hne : s ≠ 36) :
    KeptByPorts b (b.setLevel s v) := by
  have hlevel : KeptByPorts b (b.fset clsIrq s FIrq.level (if v then 1 else 0)) :=
    .fset b _ hs (by decide) (by decide) (.inr hne)
  unfold Body.setLevel
  dsimp only
  split
  · exact (hlevel.trans (.beside_fields ..)).trans (.fset _ 1 hs (by decide) (by decide) (.inr hne))
  · exact hlevel

theorem freeBuf_keptByPorts (b : Body) (h : Nat) (who : Owner) : KeptByPorts b (b.freeBuf h who).2 := by
  have hpool := handlePool_lt h
  obtain ⟨l, e⟩ | e | e := b.freeBuf_cases h who <;> rw [e]
  · exact .beside_fields ..
  · exact .fset b _ (by omega) (by decide) (by decide) (.inl (by decide))
  · exact .fset b _ (by omega) (by decide) (by decide) (.inl (by decide))

theorem spoilRx_keptByPorts (b : Body) {p : Nat} (hp : p < 65) : KeptByPorts b (b.spoilRx p) := by
  unfold Body.spoilRx
  split
  · dsimp only
    split
    · exact ((KeptByPorts.beside_fields ..).trans (freeBuf_keptByPorts ..)).trans (.fsetPort _ _ hp (by decide))
    · exact .beside_fields ..
  · exact .refl b

theorem cutFrame_keptByPorts (b : Body) {p : Nat} (hp : p < 65) : KeptByPorts b (b.cutFrame p) := by
  unfold Body.cutFrame
  split
  · exact ((KeptByPorts.beside_fields ..).trans (.fsetPort _ _ hp (by decide))).trans (.beside_fields ..)
  · exact .refl b

theorem linkLevel_keptByPorts (b : Body) {p : Nat} (hp : p < 65) : KeptByPorts b (b.linkLevel p) :=
  setLevel_keptByPorts b _ (by omega) (by omega)

theorem linkDown_keptByPorts (b : Body) {p : Nat} (hp : p < 65) : KeptByPorts b (b.linkDown p) := by
  have hshown : ∀ st, KeptByPorts b (b.fset clsPort p FPort.operState st) := fun st => .fsetPort b st hp (by decide)
  unfold Body.linkDown
  dsimp only
  split
  · have hdown : ∀ st, KeptByPorts b ((((b.fset clsPort p FPort.operState st).fset clsPort p FPort.operFec 0).fset
        clsPort p FPort.operSpeed 0).bump clsPort p FPort.linkDowns 1) := fun st =>
      (((hshown st).trans (.fsetPort _ _ hp (by decide))).trans (.fsetPort _ _ hp (by decide))).trans
        (.fsetPort _ _ hp (by decide))
    exact ((((hdown _).trans (spoilRx_keptByPorts _ hp)).trans (cutFrame_keptByPorts _ hp)).trans
      (.beside_fields ..)).trans (linkLevel_keptByPorts _ hp)
  · exact (hshown _).trans (linkLevel_keptByPorts _ hp)

theorem holdPorts_keptByPorts (b : Body) : KeptByPorts b b.holdPorts := by
  refine List.foldlRecOn (motive := KeptByPorts b) _ _ (.refl b) fun x hx p hp => ?_
  split
  · exact hx.trans (linkDown_keptByPorts x (List.mem_range.1 hp))
  · exact hx

/-! The freeze level. -/

theorem setLevel_parts (b : Body) (s : Nat) (v : Bool) :
    (b.setLevel s v).isa = b.isa ∧ (b.setLevel s v).mem = b.mem ∧ (b.setLevel s v).drm = b.drm := by
  unfold Body.setLevel
  dsimp only
  split <;> exact ⟨rfl, rfl, rfl⟩

/-- The freeze level written, the ports change nothing more of what a freeze touches. -/
theorem freezeChanged_keptByPorts (b : Body) (before : Bool) :
    KeptByPorts (b.setLevel 36 b.anyFrozen) (b.freezeChanged before) := by
  unfold Body.freezeChanged
  dsimp only
  split
  · exact (KeptByPorts.fset _ _ (by decide) (by decide) (by decide) (.inl (by decide))).trans (holdPorts_keptByPorts _)
  · exact .refl _

theorem fget_freezeChanged_dram (b : Body) (before : Bool) {i : Nat} {f : Fld} (hi : i < 2 ^ 24) (hf : f.lo < 2 ^ 16) :
    (b.freezeChanged before).fget clsDram i f = b.fget clsDram i f :=
  ((freezeChanged_keptByPorts b before).dram i f hi hf).trans
    (Body.fget_setLevel_ne b _ (by decide) hi hf (by decide))

theorem fget_freezeChanged_level (b : Body) (before : Bool) :
    (b.freezeChanged before).fget clsIrq 36 FIrq.level = if b.anyFrozen then 1 else 0 :=
  (freezeChanged_keptByPorts b before).level.trans (Body.fget_setLevel_level ..)

theorem freezeChanged_parts (b : Body) (before : Bool) : (b.freezeChanged before).isa = b.isa ∧
    (b.freezeChanged before).mem = b.mem ∧ (b.freezeChanged before).drm = b.drm := by
  obtain ⟨hisa, hmem, hdrm⟩ := setLevel_parts b 36 b.anyFrozen
  have h := freezeChanged_keptByPorts b before
  exact ⟨h.isa.trans hisa, h.mem.trans hmem, h.drm.trans hdrm⟩

/-! The capture. -/

/-- The body with a channel's capture written and the freeze counted, before the freeze level follows. -/
def Body.captured (b : Body) (tm : Time) (c : Nat) (f : FreezeInfo) : Body :=
  let i := chanInst c
  let line := f.addr / 64 * 64
  let x := [(FChan.frzCause, f.cause), (FChan.frzAddr, line), (FChan.frzTime, tm.now),
    (FChan.frzSyndrome, f.syndrome.toNat), (FChan.captureData, b.fresh.1), (FChan.frzPort, f.port),
    (FChan.frzSubch, b.lineSub line), (FChan.frzRank, b.lineRank line), (FChan.frzBg, lineBg line),
    (FChan.frzBa, lineBa line), (FChan.frzCol, lineCol line), (FChan.frzRow, lineRow line)].foldl
      (fun (y : Body) e => y.fset clsDram i e.1 e.2)
      ((b.fresh.2.fset clsDram i FChan.frozen 1).bump clsDram i FChan.freezes 1)
  x.bump clsDram i (if f.cause = 3 then FChan.caParity else FChan.uncorrectable) 1

variable (b : Body) (tm : Time) {c : Nat} (f : FreezeInfo)

theorem freezeChannel_eq : b.freezeChannel tm c f = (b.captured tm c f).freezeChanged b.anyFrozen := by
  unfold Body.freezeChannel Body.captured
  by_cases hca : f.cause = 3 <;> simp only [hca, if_true, if_false] <;> rfl

/-- The counter that a freeze raises lies apart from the capture. -/
theorem fget_captured_apart {g : Fld} (hca : g.lo ≠ FChan.caParity.lo) (hun : g.lo ≠ FChan.uncorrectable.lo)
    (x : Body) : (x.bump clsDram (chanInst c) (if f.cause = 3 then FChan.caParity else FChan.uncorrectable) 1).fget clsDram
      (chanInst c) g = x.fget clsDram (chanInst c) g := by
  split
  · exact Body.fget_bump_place x _ _ hca 1
  · exact Body.fget_bump_place x _ _ hun 1

theorem fget_captured : (b.captured tm c f).fget clsDram (chanInst c) FChan.frozen = 1 ∧
    (b.captured tm c f).fget clsDram (chanInst c) FChan.frzCause = f.cause % 2 ^ 3 ∧
    (b.captured tm c f).fget clsDram (chanInst c) FChan.frzAddr = f.addr / 64 * 64 % 2 ^ 64 ∧
    (b.captured tm c f).fget clsDram (chanInst c) FChan.frzTime = tm.now % 2 ^ 64 ∧
    (b.captured tm c f).fget clsDram (chanInst c) FChan.frzPort = f.port % 2 ^ 4 ∧
    (b.captured tm c f).fget clsDram (chanInst c) FChan.frzSyndrome = f.syndrome.toNat % 2 ^ 128 := by
  unfold Body.captured
  dsimp only [List.foldl]
  simp (disch := decide) only [fget_captured_apart, Body.fget_bump_place, Body.fget_fset_place, Body.fget_fset_self]
  exact ⟨rfl, rfl, rfl, rfl, rfl, rfl⟩

/-- A capture writes its own channel's object only. -/
theorem frozen_captured_ne {k : Nat} (hc : c < 8) (hk : k < 8) (hne : k ≠ c) :
    (b.captured tm c f).frozen k = b.frozen k := by
  have hset : ∀ (x : Body) (g : Fld) (v : Nat), g.lo < 2 ^ 16 →
      (x.fset clsDram (chanInst c) g v).fget clsDram (chanInst k) FChan.frozen =
        x.fget clsDram (chanInst k) FChan.frozen := fun x g v hg =>
    Body.fget_fset_ne x (fieldKey_ne (by unfold chanInst; omega) (by unfold chanInst; omega) (by decide) hg
      (.inr (.inl (by unfold chanInst; omega)))) v
  have hcount : (if f.cause = 3 then FChan.caParity else FChan.uncorrectable).lo < 2 ^ 16 := by split <;> decide
  unfold Body.frozen Body.captured
  dsimp only [List.foldl, Body.bump]
  simp (disch := decide) only [hset _ _ _ hcount, hset]
  rfl

theorem anyFrozen_captured (hc : c < 8) : (b.captured tm c f).anyFrozen = true := by
  obtain ⟨hfrozen, -⟩ := fget_captured b tm (c := c) f
  exact List.any_eq_true.2 ⟨c, List.mem_range.2 hc, beq_iff_eq.2 hfrozen⟩

theorem captured_parts : (b.captured tm c f).isa = b.isa ∧ (b.captured tm c f).mem = b.mem ∧
    (b.captured tm c f).drm = b.drm := by
  unfold Body.captured
  simp only [List.foldl, Body.bump_isa, Body.bump_mem, Body.bump_drm, Body.fset_isa, Body.fset_mem, Body.fset_drm]
  exact ⟨rfl, rfl, rfl⟩

end Sys2Proof.Machine

namespace Sys2Proof
open Machine

/-- Settles O42: the capture is written before the freeze level and the ports follow, and these leave the channels, the
threads and the memory (`KeptByPorts`). -/
theorem freezeCaptures : Obligations.FreezeCaptures := by
  unfold Obligations.FreezeCaptures
  intro b tm c f hc hcause hport haddr
  obtain ⟨hfrozen, hcap, hline, htime, hprt, hsyn⟩ := fget_captured b tm (c := c) f
  obtain ⟨hisa, hmem, hdrm⟩ := freezeChanged_parts (b.captured tm c f) b.anyFrozen
  obtain ⟨kisa, kmem, kdrm⟩ := captured_parts b tm (c := c) f
  have hi : 1 + c < 2 ^ 24 := by omega
  dsimp only
  rw [freezeChannel_eq]
  refine ⟨?_, ?_, ?_, ?_, ?_, ?_, fun k hk hne => ?_, ?_, hisa.trans kisa, hmem.trans kmem, hdrm.trans kdrm⟩
  · exact (fget_freezeChanged_dram _ _ hi (by decide)).trans hfrozen
  · exact ((fget_freezeChanged_dram _ _ hi (by decide)).trans hcap).trans (Nat.mod_eq_of_lt hcause)
  · exact ((fget_freezeChanged_dram _ _ hi (by decide)).trans hline).trans (Nat.mod_eq_of_lt (by omega))
  · exact (fget_freezeChanged_dram _ _ hi (by decide)).trans htime
  · exact ((fget_freezeChanged_dram _ _ hi (by decide)).trans hprt).trans (Nat.mod_eq_of_lt (by omega))
  · exact ((fget_freezeChanged_dram _ _ hi (by decide)).trans hsyn).trans (Nat.mod_eq_of_lt f.syndrome.isLt)
  · have hframe := frozen_captured_ne b tm f hc hk hne
    unfold Body.frozen at hframe ⊢
    rw [fget_freezeChanged_dram _ _ (by unfold chanInst; omega) (by decide), hframe]
  · rw [fget_freezeChanged_level, anyFrozen_captured b tm f hc, if_pos rfl]

end Sys2Proof
end

section
/-! The memory controller's commands (R336 to R347): what each does where its event can occur. -/

namespace Sys2Proof.Machine

section
variable {s : State} {ch : Nat}

/-- The devices take commands outside Cold and Dormant (R341). -/
theorem dramAwake_of_mode {b : Body} (hcold : b.sys.base ≠ .cold) (hdormant : b.sys.base ≠ .dormant) :
    b.dramAwake = true := by simp [Body.dramAwake, hcold, hdormant]

/-! SUBCHANNEL_COMMAND (R340, R341). -/

theorem execSubchannelCommand_refresh {sub rank : Nat} (hdue : 0 < mapGet 0 (bankKey ch sub rank) s.b.drm.due)
    (hawake : s.b.dramAwake = true) :
    let d := (Dev.mk s.tm s.b).waitCycle (mapGet 0 (rankKey ch rank) s.b.drm.rankBusy)
    execSubchannelCommand ch sub (.refresh rank) s =
      .next { s with tm := d.tm, b := d.b.issueRefresh d.tm ch sub rank } := by
  simp only [execSubchannelCommand, onDev, hdue, hawake, and_self, if_true]

/-- The request that none goes before gets its next command. -/
theorem execSubchannelCommand_access {sub i : Nat} {r : DramReq} (hruns : s.b.frozen ch = false)
    (hawake : s.b.dramAwake = true) (hr : (s.b.dramQueue ch)[i]? = some r) (hmay : s.b.mayChoose ch sub r = true)
    (hfirst : ∀ x, x ∈ s.b.dramQueue ch → s.b.mayChoose ch sub x = true → s.b.goesBefore ch x r = false) {d : Dev}
    (hd : (Dev.mk s.tm s.b).waitCycle (mapGet 0 (rankKey ch (s.b.lineRank r.addr)) s.b.drm.rankBusy) = d) {b : Body}
    (hnext : d.b.issueCmd d.tm ch i r = b) :
    execSubchannelCommand ch sub (.access i) s = .next { s with tm := d.tm, b := b } := by
  subst hd hnext
  have hnone : (s.b.dramQueue ch).any (fun x => s.b.mayChoose ch sub x && s.b.goesBefore ch x r) = false := by
    simpa using hfirst
  simp only [execSubchannelCommand, onDev, hr, hruns, hawake, hmay, hnone, Bool.not_false, Bool.and_self, if_true]

section
variable {b : Body} {tm : Time} {i : Nat} {r : DramReq}

theorem issueCmd_activates (hrow : b.openRow ch r.addr = none) : b.issueCmd tm ch i r =
    ({ b with drm.rows := mapPut (b.rowKey ch r.addr) (lineRow r.addr) b.drm.rows } : Body).noteLine tm ch 0 r.addr
      (lineRow r.addr) := by
  simp only [Body.issueCmd, Body.nextCmd, hrow]

theorem issueCmd_precharges {row : Nat} (hrow : b.openRow ch r.addr = some row) (hother : row ≠ lineRow r.addr) :
    b.issueCmd tm ch i r =
      ({ b with drm.rows := mapDel (b.rowKey ch r.addr) b.drm.rows } : Body).noteLine tm ch 3 r.addr 0 := by
  simp only [Body.issueCmd, Body.nextCmd, hrow, hother, if_false]

/-- With its row open a request has its column command, and is issued. -/
theorem issueCmd_accesses (hrow : b.openRow ch r.addr = some (lineRow r.addr)) (hwhole : r.modify = false) :
    b.issueCmd tm ch i r = (b.setDramQueue ch ((b.dramQueue ch).set i { r with issued := true })).noteLine tm ch
      (if r.write then 2 else 1) r.addr (lineCol r.addr) := by
  cases hw : r.write <;> simp [Body.issueCmd, Body.nextCmd, hrow, hwhole, hw]

/-- A read-modify-write reads first (R337). -/
theorem issueCmd_readsFirst (hrow : b.openRow ch r.addr = some (lineRow r.addr)) (hpart : r.modify = true) :
    b.issueCmd tm ch i r = (b.setDramQueue ch ((b.dramQueue ch).set i { r with modify := false })).noteLine tm ch 1
      r.addr (lineCol r.addr) := by
  simp [Body.issueCmd, Body.nextCmd, hrow, hpart]

end

/-! DRAM_REFRESH (R341), DQS_RETRAIN (R342), SCRUB_READ (R343). -/

section
variable {rank : Nat} (hthere : s.b.fget clsDram (1 + ch) FChan.present = 1)
include hthere

theorem execDramRefresh_eq (hrank : rank ≤ s.b.fget clsDram 0 FDram.ranksM1) (hawake : s.b.dramAwake = true) :
    let k := 2 * ch + rank % 2
    let d := (Dev.mk s.tm s.b.fresh.2).waitCycle
      (mapGet 0 k s.b.drm.refreshed + (if s.b.fresh.1 % 2 = 1 then 2925 else 5850))
    let k0 := 4 * ch + rank % 2
    let due0 := mapPut k0 (mapGet 0 k0 d.b.drm.due + 1) d.b.drm.due
    execDramRefresh ch rank s = .next { s with
      tm := d.tm
      b := { d.b with
        drm.due := mapPut (k0 + 2) (mapGet 0 (k0 + 2) due0 + 1) due0
        drm.refreshed := mapPut k d.tm.cycle d.b.drm.refreshed } } := by
  have hkey : bankKey ch 1 rank = 4 * ch + rank % 2 + 2 := by unfold bankKey; omega
  simp only [execDramRefresh, onDev, chanInst, hthere, hrank, hawake, and_self, if_true, refreshCycles,
    decide_eq_true_eq, List.foldl, hkey]
  rfl

theorem execDqsRetrain_eq (hrank : rank ≤ s.b.fget clsDram 0 FDram.ranksM1) (hruns : s.b.runs = true)
    (hopen : s.b.frozen ch = false) :
    let k := 2 * ch + rank % 2
    let d := (Dev.mk s.tm s.b.fresh.2).waitCycle (mapGet 0 k s.b.drm.retrained + 48000000)
    execDqsRetrain ch rank s = .next { s with
      tm := d.tm
      b := (({ d.b with
        drm.retrained := mapPut k d.tm.cycle d.b.drm.retrained
        drm.rankBusy := mapPut k (d.tm.cycle + s.b.fresh.1 % 451) d.b.drm.rankBusy } : Body).note d.tm ch 7 0 rank 0 0
          0).note d.tm ch 7 1 rank 0 0 0 } := by
  simp only [execDqsRetrain, onDev, chanInst, hthere, hrank, hruns, hopen, Bool.false_eq_true, not_false_eq_true,
    and_self, if_true, rankKey, retrainCycles, retrainBusy]

section
variable (hhours : 0 < s.b.fget clsDram 0 FDram.scrubHours) (hopen : s.b.frozen ch = false)
  (hawake : s.b.dramAwake = true) (hidle : s.b.scrubbing ch = false) (fixed : Bool)
include hhours hopen hawake hidle

theorem execScrubRead_within (hn : mapGet 0 ch s.b.drm.scrub ≠ 0) : execScrubRead ch fixed s = .next { s with
    b := s.b.dramSend 7 0 (s.b.channelLine ch (mapGet 0 ch s.b.drm.scrub)) 64 false (.scrub fixed) [] } := by
  simp only [execScrubRead, onDev, chanInst, hthere, hhours, hopen, hawake, hidle, Bool.false_eq_true,
    not_false_eq_true, and_self, if_true, hn, if_false]

/-- The first line of a pass waits for the pass to start. -/
theorem execScrubRead_starts (hn : mapGet 0 ch s.b.drm.scrub = 0) :
    let d := (Dev.mk s.tm s.b).waitCycle (mapGet 0 ch s.b.drm.scrubFrom)
    let b1 : Body := { d.b with drm.scrubFrom := mapPut ch (d.tm.cycle + d.b.scrubCycles) d.b.drm.scrubFrom }
    execScrubRead ch fixed s = .next { s with
      tm := d.tm
      b := b1.dramSend 7 0 (b1.channelLine ch (mapGet 0 ch s.b.drm.scrub)) 64 false (.scrub fixed) [] } := by
  simp only [execScrubRead, onDev, chanInst, hthere, hhours, hopen, hawake, hidle, Bool.false_eq_true,
    not_false_eq_true, and_self, if_true, hn]

end
end

/-! DRAM_COMPLETE (R337, R339, R344). -/

section
variable {i : Nat} {r : DramReq} (hr : (s.b.dramQueue ch)[i]? = some r) (hready : s.b.dramReady ch i r = true)

/-- A request whose column command is issued, that no earlier one of its port to its line precedes, may complete. -/
theorem dramReady_of_first {b : Body} (hissued : r.issued = true) (hopen : b.frozen ch = false)
    (hfirst : ∀ x, x ∈ (b.dramQueue ch).take i → x.port = r.port → x.addr ≠ r.addr) : b.dramReady ch i r = true := by
  have hnone : ((b.dramQueue ch).take i).any (fun x => x.port == r.port && x.addr == r.addr) = false := by
    simpa using hfirst
  simp only [Body.dramReady, hissued, hopen, hnone, Bool.not_false, Bool.and_self]

/-- Ending a request takes no arrival number and no time. -/
theorem dramEnds_stamp_clock (b : Body) (c i : Nat) (r : DramReq) :
    (b.dramEnds c i r).stamp = b.stamp ∧ (b.dramEnds c i r).clock = b.clock := by
  unfold Body.dramEnds Body.dramDone
  dsimp only
  split
  · exact ⟨rfl, rfl⟩
  · split <;> exact ⟨rfl, rfl⟩

include hr hready

/-- A read without an error, or a write. -/
theorem execDramComplete_good (hclean : r.use ≠ .scrub true) : execDramComplete ch i .good s =
    .next { s with b := ((s.b.dramEnds ch i r).dramAnswer ch r).admitDram } := by
  simp [execDramComplete, onBody, hr, hready, hclean]

/-- A scrub read that corrects the line. -/
theorem execDramComplete_scrubbed (hfixed : r.use = .scrub true) : execDramComplete ch i .good s =
    .next { s with b := (((s.b.dramEnds ch i r).dramFixed ch r).dramAnswer ch r).admitDram } := by
  simp [execDramComplete, onBody, hr, hready, hfixed]

theorem execDramComplete_corrected : execDramComplete ch i .corrected s =
    .next { s with b := (((s.b.dramEnds ch i r).dramFixed ch r).dramAnswer ch r).admitDram } := by
  simp [execDramComplete, onBody, hr, hready]

theorem execDramComplete_retries (hw : r.write = true) (htries : r.tries < 4) : execDramComplete ch i .writeCrc s =
    .next { s with
      b := (s.b.setDramQueue ch ((s.b.dramQueue ch).set i { r with tries := r.tries + 1, issued := false })).bump
        clsDram (1 + ch) FChan.wcrcRetries 1 } := by
  simp [execDramComplete, onBody, hr, hready, hw, htries, chanInst]

theorem execDramComplete_givesUp (hw : r.write = true) (htries : 4 ≤ r.tries) : execDramComplete ch i .writeCrc s =
    .next { s with
      b := s.b.fresh.2.freezeChannel s.tm ch ⟨2, r.port, r.addr, BitVec.ofNat 128 s.b.fresh.1⟩ } := by
  simp [execDramComplete, onBody, hr, hready, hw, htries]

theorem execDramComplete_uncorrectable : execDramComplete ch i .uncorrectable s = .next { s with
    b := s.b.fresh.2.freezeChannel s.tm ch ⟨r.cause, r.port, r.addr, BitVec.ofNat 128 s.b.fresh.1⟩ } := by
  simp [execDramComplete, onBody, hr, hready]

end

theorem cause_of_scrub {r : DramReq} {k : Bool} (hscrub : r.use = .scrub k) : r.cause = 4 := by
  simp only [DramReq.cause, hscrub]

theorem cause_of_access {r : DramReq} (hnot : ∀ k, r.use ≠ .scrub k) : r.cause = 1 := by
  unfold DramReq.cause
  split
  · exact absurd ‹_› (hnot _)
  · rfl

/-- The request that writes a corrected line back (R344). -/
def Body.writeBackOf (b : Body) (r : DramReq) : DramReq :=
  ⟨b.stamp, b.stamp, r.port, r.tent, r.addr, true, .writeBack, b.clock, false, false, 0, []⟩

/-- What a correction adds to the end of a request: the count, and of a read the write back. -/
theorem dramFixed_dramEnds (b : Body) (c i : Nat) (r : DramReq) :
    let b3 := (b.dramEnds c i r).bump clsDram (1 + c) FChan.corrected 1
    (b.dramEnds c i r).dramFixed c r = if r.write then b3
      else ({ b3 with stamp := b3.stamp + 1 } : Body).setDramQueue c (b3.dramQueue c ++ [b.writeBackOf r]) := by
  obtain ⟨hstamp, hclock⟩ := dramEnds_stamp_clock b c i r
  simp only [Body.dramFixed, Body.tick, Body.writeBackOf, Body.bump_stamp, Body.bump_clock, hstamp, hclock, chanInst]

/-! Requests (R336, R337), CHANNEL_FREEZE (R345) and CHANNEL_THAW (R347). -/

/-- Requests numbered with `tick` are numbered with the ordering counter as it stands. -/
theorem foldl_dramAsk_tick (ls : List Nat) (req : Nat → Nat → Nat → DramReq) (b1 : Body) :
    ls.foldl (fun (x : Body) l => x.tick.2.dramAsk (req x.tick.1 b1.tick.1 l)) b1.tick.2 =
      ls.foldl (fun (x : Body) l => ({ x with stamp := x.stamp + 1 } : Body).dramAsk (req x.stamp b1.stamp l))
        { b1 with stamp := b1.stamp + 1 } := rfl

theorem dramSend_eq (b : Body) (p t a n : Nat) (write : Bool) (use : DramUse) (data : List (Nat × Byte)) :
    let b1 := if b.dramCapacity < a + n then b.bump clsDram 0 FDram.outOfPop 1 else b
    b.dramSend p t a n write use data = (b.dramLines a n).foldl (fun (x : Body) l =>
      ({ x with stamp := x.stamp + 1 } : Body).dramAsk ⟨x.stamp, b1.stamp, p, t, l, write, use, b.clock,
        write && !decide (a ≤ l ∧ l + 64 ≤ a + n), false, 0,
        if write then data.filter (fun e => decide (e.1 / 64 * 64 = l)) else data⟩)
      { b1 with stamp := b1.stamp + 1 } := by
  intro b1
  rw [Body.dramSend]
  exact foldl_dramAsk_tick (b.dramLines a n) (fun num group l => ⟨num, group, p, t, l, write, use, b.clock,
    write && !decide (a ≤ l ∧ l + 64 ≤ a + n), false, 0,
    if write then data.filter (fun e => decide (e.1 / 64 * 64 = l)) else data⟩) b1

theorem execChannelFreeze_eq {f : FreezeInfo} (hthere : s.b.fget clsDram (1 + ch) FChan.present = 1)
    (hopen : s.b.frozen ch = false) :
    execChannelFreeze ch f s = .next { s with b := s.b.freezeChannel s.tm ch f } := by
  simp only [execChannelFreeze, onBody, chanInst, hthere, hopen, Bool.false_eq_true, not_false_eq_true, and_self,
    if_true]

/-- The thaw of a frozen channel answers OK, and the Basin's cuts go on. -/
theorem execChannelThaw_eq {retry : Option FreezeInfo} {b : Body} (hon : s.b.sys.base ≠ .cold)
    (hawake : s.b.asleep = false) (hch : ch < 8) (hthaw : s.b.thawChannel s.tm ch retry = (stOk, b)) :
    execChannelThaw .biv ch retry s = .next (s.answered (b.goCuts s.tm)) := by
  simp [execChannelThaw, onDev, Dev.access, Dev.accessIn, hon, hawake, hch, Body.thaw, hthaw, State.answered]

end

end Sys2Proof.Machine

namespace Sys2Proof
open Machine

/-- Settles O41: each command at its event, DRAM_COMPLETE by the error that it meets and by what asked for the line. -/
theorem dramCommandsComplete : Obligations.DramCommandsComplete := by
  unfold Obligations.DramCommandsComplete
  refine ⟨fun s ch sub rank => ?refresh,
    fun s ch sub i r hopen hcold hdormant hr hmay hfirst => ?access,
    fun s ch rank hthere => ⟨?interval, ?retrain, ?scrub⟩, fun s ch i r hr hissued hopen hfirst => ?complete,
    fun b ch => rfl, dramSend_eq,
    fun s ch f hthere hopen => execChannelFreeze_eq hthere hopen, fun s ch hon hawake hch hfrozen => ?thaw⟩
  case refresh => exact fun hdue hcold hdormant => execSubchannelCommand_refresh hdue (dramAwake_of_mode hcold hdormant)
  case access =>
    have hawake := dramAwake_of_mode hcold hdormant
    have hissue := @execSubchannelCommand_access s ch sub i r hopen hawake hr hmay hfirst _ rfl
    exact ⟨fun hrow => hissue (issueCmd_activates hrow),
      fun hrow => ⟨fun hwhole => hissue (issueCmd_accesses hrow hwhole),
        fun hpart => hissue (issueCmd_readsFirst hrow hpart)⟩,
      fun row hrow hother => hissue (issueCmd_precharges hrow hother)⟩
  case interval => exact fun hrank hcold hdormant => execDramRefresh_eq hthere hrank (dramAwake_of_mode hcold hdormant)
  case retrain => exact fun hrank hruns hopen => execDqsRetrain_eq hthere hrank hruns hopen
  case scrub =>
    intro hhours hopen hcold hdormant hidle fixed
    have hawake := dramAwake_of_mode hcold hdormant
    exact ⟨execScrubRead_within hthere hhours hopen hawake hidle fixed,
      execScrubRead_starts hthere hhours hopen hawake hidle fixed⟩
  case complete =>
    have hready := dramReady_of_first hissued hopen hfirst
    intro b1 b2 words ended b3 again b4
    have hended : ∀ b, ended b = .next { s with b := (b.dramAnswer ch r).admitDram } := fun b => by
      simp only [ended, Body.dramAnswer]
      cases r.use with
      | aperture write => cases write <;> rfl
      | _ => rfl
    have hfixed : b4 = (s.b.dramEnds ch i r).dramFixed ch r := (dramFixed_dramEnds s.b ch i r).symm
    simp only [hended, hfixed]
    refine ⟨execDramComplete_good hr hready, execDramComplete_scrubbed hr hready, execDramComplete_corrected hr hready,
      execDramComplete_retries hr hready, fun hnot => ?_, fun k hscrub => ?_, execDramComplete_givesUp hr hready⟩
    · exact cause_of_access hnot ▸ execDramComplete_uncorrectable hr hready
    · exact cause_of_scrub hscrub ▸ execDramComplete_uncorrectable hr hready
  case thaw =>
    refine ⟨execChannelThaw_eq hon hawake hch ?_, fun f => execChannelThaw_eq hon hawake hch ?_⟩ <;>
      simp only [Body.thawChannel, hfrozen, Bool.not_true, Bool.false_eq_true, if_false] <;> rfl

end Sys2Proof
end

section
/-! Opcodes of control, instruction memory, store, keys, modules and firmware (R419 to R423, R434, R445): what each does
with a message that passes the checks of R413. -/

namespace Sys2Proof.Machine

section
variable {s : State} {m : Msg} {op : Nat} {c : Caller} {au : Auth} {p : List Byte} {b : Body}

/-! What a performer says or does. -/

theorem replyParams_ok (hop : op ≠ 0x11) (ps : List Byte) : replyParams op stOk ps = ps := by simp [replyParams, hop]

/-- A performer that ends in OK is answered with its parameters. -/
theorem shesin_replied {f : Perform} (h : Received s m op c au p b) (hop : op ≠ 0x11) {ps : List Byte} {b1 : Body}
    (hf : f c au p ⟨s.tm, b⟩ = (some stOk, ps, ⟨s.tm, b1⟩)) :
    shesin op m f s = .next (s.replied c ⟨s.tm, b1⟩ ps) := by
  rw [shesin_ok f h ps _ hf, replyParams_ok hop]

/-- A performer that answers later is counted, and nothing is sent. -/
theorem shesin_waits {f : Perform} (h : Received s m op c au p b) {ps : List Byte} {b1 : Body}
    (hf : f c au p ⟨s.tm, b⟩ = (none, ps, ⟨s.tm, b1⟩)) :
    shesin op m f s = .next { s with b := (b1.bump clsDevice 0 FDevice.cmdPerformed 1).settle s.tm } := by
  obtain ⟨hserves, hfirst, path, l, hmsg, hgood, hop, -, hparams, hchecks⟩ := h
  simp [shesin, onDev, Dev.serve, hserves, hfirst, hmsg, hgood, hop, Dev.handle, hparams, hchecks, hf]

theorem shesin_said {f : Caller → Auth → List Byte → Dev → Nat × List Byte} (h : Received s m op c au p b)
    (hop : op ≠ 0x11) {ps : List Byte} (hf : f c au p ⟨s.tm, b⟩ = (stOk, ps)) :
    shesin op m (sayOnly f) s = .next (s.replied c ⟨s.tm, b⟩ ps) :=
  shesin_replied h hop (by simp only [sayOnly, hf])

theorem shesin_done {f : List Byte → Time → Body → Nat × Body} (h : Received s m op c au p b) (hop : op ≠ 0x11)
    {b1 : Body} (hf : f p s.tm b = (stOk, b1)) : shesin op m (doOnly f) s = .next (s.replied c ⟨s.tm, b1⟩ []) :=
  shesin_replied h hop (by simp only [doOnly, hf])

/-- A performer that returns no parameters is answered with its status, whichever it is. -/
theorem shesin_judged {f : Perform} (h : Received s m op c au p b) (hop : op ≠ 0x11) {st : Nat} {b1 : Body}
    (hf : f c au p ⟨s.tm, b⟩ = (some st, [], ⟨s.tm, b1⟩)) :
    shesin op m f s = .next (if st = stOk then s.replied c ⟨s.tm, b1⟩ [] else s.declined c st b1) := by
  by_cases hst : st = stOk
  · subst hst
    rw [if_pos rfl, shesin_replied h hop hf]
  · rw [if_neg hst, shesin_bad f h [] _ st hf hst hop rfl]

/-! Control (R419, R434, R445). -/

theorem execModeSet_ok {b1 : Body} (h : Received s m 0x20 c au p b) (hset : b.modeSet (byteAt p 0) = (some stOk, b1)) :
    execModeSet m s = .next (s.replied c ⟨s.tm, b1⟩ []) :=
  shesin_replied h (by decide) (by simp only [hset])

theorem execModeSet_sleeps {b1 : Body} (h : Received s m 0x20 c au p b) (hset : b.modeSet (byteAt p 0) = (none, b1)) :
    execModeSet m s = .next { s with
      b := ({ b1 with adm.sleep := some c }.bump clsDevice 0 FDevice.cmdPerformed 1).settle s.tm } :=
  shesin_waits h (ps := []) (by simp only [hset])

theorem execThaw_ok {b1 : Body} (h : Received s m 0x21 c au p b) (hch : byteAt p 0 ≤ 7)
    (hthere : byteAt p 0 < b.dramChannels) (hfrozen : b.frozen (byteAt p 0) = true)
    (hthaw : (b.fset clsDram (chanInst (byteAt p 0)) FChan.repair (byteAt p 1 % 2)).thawChannel s.tm (byteAt p 0) none =
      (stOk, b1)) : execThaw m s = .next (s.replied c ⟨s.tm, b1.goCuts s.tm⟩ []) :=
  shesin_done h (by decide) (by
    simp only [Nat.not_lt.2 hch, Nat.not_le.2 hthere, hfrozen, Bool.not_true, Bool.false_eq_true, if_false, Body.thaw,
      hthaw, if_true])

theorem execReset_ok (h : Received s m 0x22 c au p b) (hscope : b.scopeStatus (byteAt p 0) = stOk) :
    execReset m s = .next (s.replied c ⟨s.tm, b.askReset (byteAt p 0)⟩ []) :=
  shesin_done h (by decide) (by simp only [hscope, if_true])

/-! Instruction memory (R420). -/

theorem execLoadImem_ok (h : Received s m 0x30 c au p b)
    (hplace : imemStatus (byteAt p 0) (be16 p 2) ((p.length - 4) / 4) = stOk)
    (hidle : (b.inBench && b.coreAtWork (byteAt p 0)) = false) : execLoadImem m s = .next (s.replied c ⟨s.tm, { b with
      mem.imem := writeBytes b.mem.imem (imemAddr (byteAt p 0) (be16 p 2))
        ((paramWords ((p.length - 4) / 4) (p.drop 4)).flatMap (leBytes 4)) }⟩ []) :=
  shesin_done h (by decide) (by
    simp only [hplace, hidle, ne_eq, not_true_eq_false, Bool.false_eq_true, if_false])

theorem execReadImem_ok (h : Received s m 0x31 c au p b)
    (hplace : imemStatus (byteAt p 0) (be16 p 2) (be16 p 4) = stOk) : execReadImem m s =
      .next (s.replied c ⟨s.tm, b⟩ (wordParams ((List.range (be16 p 4)).map (fun k =>
        readLE b.mem.imem (imemAddr (byteAt p 0) (be16 p 2) + 4 * k) 4)))) :=
  shesin_said h (by decide) (by simp only [hplace])

/-! The store (R421, R453, R457, R458). -/

theorem execStoreSave_config (h : Received s m 0x40 c au p b) (harea : byteAt p 0 = 0) :
    let r := b.saveArea 0 (Dev.configSet ⟨s.tm, b⟩)
    execStoreSave m s = .next (if r.1 = stOk then s.replied c ⟨s.tm, r.2⟩ [] else s.declined c r.1 r.2) :=
  shesin_judged h (by decide) (by simp only [harea, if_true])

theorem execStoreSave_calib (h : Received s m 0x40 c au p b) (harea : byteAt p 0 = 1) :
    let r := b.saveArea 1 (.calib b.calibSet)
    execStoreSave m s = .next (if r.1 = stOk then s.replied c ⟨s.tm, r.2⟩ [] else s.declined c r.1 r.2) :=
  shesin_judged h (by decide) (by simp only [harea, one_ne_zero, if_false, if_true])

theorem execStoreRead_ok (h : Received s m 0x41 c au p b) (harea : byteAt p 0 < 3) (hlow : 1 ≤ be16 p 2)
    (hhigh : be16 p 2 ≤ 1024) (hfits : beNat ((p.drop 4).take 4) + be16 p 2 ≤ slotSize (byteAt p 0)) :
    execStoreRead m s = .next (s.replied c ⟨s.tm, b⟩ ((List.range (be16 p 2)).map (fun k =>
      (b.areaBytes (byteAt p 0)).getD (beNat ((p.drop 4).take 4) + k) 0xFF))) := by
  have harea3 : byteAt p 0 ≠ 3 := by omega
  have hin : ¬ (3 < byteAt p 0 ∨ be16 p 2 = 0 ∨ 1024 < be16 p 2 ∨
      slotSize (byteAt p 0) < beNat ((p.drop 4).take 4) + be16 p 2) := by omega
  exact shesin_said h (by decide) (by simp only [harea3, hin, if_false])

/-- A store write that finds the store idle and the energy in the bank starts. -/
theorem storeWrite_starts {area : Nat} {e : Bool} {x : StoreBody} {b1 : Body} (hidle : b.adm.job = none)
    (henergy : b.energyCheck area x.bytes.length = (true, b1)) :
    b.storeWrite area e x = (stOk, b1.startStore area e x) := by
  simp only [Body.storeWrite, hidle, henergy, Option.isSome_none, Bool.false_eq_true, if_false, if_true]

/-! Keys (R422). -/

theorem execSetKey_judged {key : List Byte} (h : Received s m 0x43 c au p b)
    (hk : byteAt p 0 = 0xFF ∨ byteAt p 0 < b.tents) (hkey : b.carriedKey p = some key) :
    let r := b.storeWrite 3 false (.keys (mapPut (byteAt p 0) key b.adm.keys))
    execSetKey m s = .next (if r.1 = stOk then s.replied c ⟨s.tm, r.2.installKey (byteAt p 0) key⟩ []
      else s.declined c r.1 r.2) := by
  have hthere : ¬ (byteAt p 0 ≠ 0xFF ∧ b.tents ≤ byteAt p 0) := by omega
  intro r
  have hjudged : execSetKey m s = .next (if r.1 = stOk
      then s.replied c ⟨s.tm, if r.1 = stOk then r.2.installKey (byteAt p 0) key else r.2⟩ []
      else s.declined c r.1 (if r.1 = stOk then r.2.installKey (byteAt p 0) key else r.2)) :=
    shesin_judged h (by decide) (by simp only [doOnly, hthere, if_false, hkey, r])
  by_cases hst : r.1 = stOk
  · simpa only [hst, if_true] using hjudged
  · simpa only [hst, if_false] using hjudged

/-! Modules and firmware (R423, R447, R449). -/

/-- A module that answers an access within its 256 bytes. -/
theorem moduleStatus_ok {l : List Byte} (hcage : byteAt p 0 ≤ 15) (hlow : 1 ≤ byteAt p 3) (hhigh : byteAt p 3 ≤ 128)
    (hfits : byteAt p 2 + byteAt p 3 ≤ 256) : moduleStatus p (.data l) = stOk := by
  have hin : ¬ (15 < byteAt p 0 ∨ byteAt p 3 = 0 ∨ 128 < byteAt p 3 ∨ 256 < byteAt p 2 + byteAt p 3) := by omega
  simp only [moduleStatus, hin, if_false]

theorem execModRead_ok {l : List Byte} (h : Received s m 0x50 c au p b) (hok : moduleStatus p (.data l) = stOk) :
    execModRead m (.data l) s =
      .next (s.replied c ⟨s.tm, b⟩ ((List.range (byteAt p 3)).map (fun k => l.getD k 0))) :=
  shesin_said h (by decide) (by simp only [hok, moduleBytes])

theorem execModWrite_ok {l : List Byte} (h : Received s m 0x51 c au p b) (hok : moduleStatus p (.data l) = stOk) :
    execModWrite m (.data l) s = .next (s.replied c
      ⟨s.tm, b.emit (.module (byteAt p 0) (byteAt p 1) (byteAt p 2) (p.drop 4))⟩ []) :=
  shesin_done h (by decide) (by simp only [hok, if_true])

theorem execFwWrite_ok (h : Received s m 0x60 c au p b) (hfits : beNat (p.take 4) + (p.drop 4).length ≤ fwSize)
    (hidle : b.adm.job = none) : execFwWrite m s = .next (s.replied c ⟨s.tm, { b with
      adm.fwImage := writeBytes b.adm.fwImage (fwOffset b.idleSlot + beNat (p.take 4)) (p.drop 4) }⟩ []) :=
  shesin_done h (by decide) (by
    simp only [Nat.not_lt.2 hfits, hidle, Option.isSome_none, Bool.false_eq_true, if_false])

/-- A verified image makes the base mode Update (R447). -/
theorem execFwActivate_good (h : Received s m 0x61 c au p b) (hidle : b.adm.fw = none)
    (hgood : imageGood (b.fwSlot b.idleSlot) = true) :
    let b1 := b.enterMode .update
    execFwActivate m s = .next (s.replied c ⟨s.tm, { b1 with
      sys := { b1.sys with prevBase := b.sys.base, handover := true }
      adm := { b1.adm with fw := some ⟨b.idleSlot, false, 0⟩ } }⟩ []) :=
  shesin_done h (by decide) (by
    simp only [hidle, hgood, Option.isSome_none, Bool.false_eq_true, if_false, if_true])

theorem execFwActivate_bad (h : Received s m 0x61 c au p b) (hidle : b.adm.fw = none)
    (hbad : imageGood (b.fwSlot b.idleSlot) = false) : execFwActivate m s = .next (s.declined c stAuthFail b) :=
  shesin_bad _ h [] ⟨s.tm, b⟩ stAuthFail (by
    simp only [doOnly, hidle, hbad, Option.isSome_none, Bool.false_eq_true, if_false]) (by decide) (by decide) rfl

/-- An image verifies under the fused hash of its key (R449). -/
theorem imageGood_iff (l : List Byte) : imageGood l = true ↔
    Config.sha384 (Config.imageKey l) = Config.fusedKeyHash ∧ Config.signatureGood (Config.imageKey l) l = true := by
  simp [imageGood]

end

end Sys2Proof.Machine

namespace Sys2Proof
open Machine

/-- Settles O24: each opcode by its performer; FW_ACTIVATE by whether the image verifies. -/
theorem shesinDeviceOpcodes : Obligations.ShesinDeviceOpcodes := by
  unfold Obligations.ShesinDeviceOpcodes
  refine ⟨fun s m c au p b => ⟨fun b1 h hset => execModeSet_ok h hset, fun b1 h hset => execModeSet_sleeps h hset,
      fun b1 h hch hthere hfrozen hthaw => execThaw_ok h hch hthere hfrozen hthaw,
      fun h hscope => execReset_ok h hscope,
      fun h hplace hidle => execLoadImem_ok h hplace hidle, fun h hplace => execReadImem_ok h hplace⟩,
    fun s m c au p b => ⟨fun h => ⟨fun harea => execStoreSave_config h harea, fun harea => execStoreSave_calib h harea⟩,
      fun h => execStoreRead_ok h, fun b1 h hwrite => shesin_done h (by decide) hwrite,
      fun area e x b1 hidle henergy => storeWrite_starts hidle henergy, fun key h => ?setKey,
      fun l h hcage hlow hhigh hfits => execModRead_ok h (moduleStatus_ok hcage hlow hhigh hfits),
      fun l h hcage hlow hhigh hfits => execModWrite_ok h (moduleStatus_ok hcage hlow hhigh hfits),
      fun h hfits hidle => execFwWrite_ok h hfits hidle, fun h hidle => ?activate⟩⟩
  case setKey => exact fun hk hkey => execSetKey_judged h hk hkey
  case activate =>
    by_cases hgood : imageGood (b.fwSlot b.idleSlot) = true
    · exact (execFwActivate_good h hidle hgood).trans
        (congrArg Host.Outcome.next (if_pos ((imageGood_iff _).1 hgood)).symm)
    · exact (execFwActivate_bad h hidle (Bool.not_eq_true _ ▸ hgood)).trans
        (congrArg Host.Outcome.next (if_neg (mt (imageGood_iff _).2 hgood)).symm)

end Sys2Proof
end

section
/-! Boot, Survey and the handover of firmware (R335, R447 to R453): what each command does where its event can occur. -/

namespace Sys2Proof.Machine

section
variable {s : State}

/-! Boot (R448, R449, R452). -/

section
variable {b : Body} {flash : Bool} {spent : List Nat}

theorem bootOutcome_memory (hlost : spent.any (fun m => decide (m < 0x100)) = true) :
    b.bootOutcome flash spent = (1, 0) := if_pos hlost

variable (hlost : spent.any (fun m => decide (m < 0x100)) = false)
include hlost

theorem bootOutcome_flash : b.bootOutcome false spent = (3, 0) := by
  simp only [Body.bootOutcome, hlost, Bool.false_eq_true, if_false, Bool.not_false, if_true]

theorem bootOutcome_image (hnone : b.bootChoice = none) : b.bootOutcome true spent = (2, 0) := by
  simp only [Body.bootOutcome, hlost, Bool.false_eq_true, if_false, Bool.not_true, hnone]

theorem bootOutcome_starts {k : Nat} (hk : b.bootChoice = some k) : b.bootOutcome true spent = (0, k) := by
  simp only [Body.bootOutcome, hlost, Bool.false_eq_true, if_false, Bool.not_true, hk]

end

section
variable {r : BootResult} (hboot : s.b.sys.base = .boot) (hfresh : s.b.fget clsPower 0 FPower.bootStatus = 0)
include hboot hfresh

/-- Boot that fails shows its code and stays. -/
theorem execBootComplete_fails {code : Nat}
    (hout : s.b.bootOutcome r.flash (s.b.repairColumns r.columns).2 = (code, 0)) (hcode : code ≠ 0) :
    execBootComplete r s = .next { s with
      b := ((s.b.repairColumns r.columns).1.fset clsPower 0 FPower.bootStatus code).fset clsPower 0 FPower.bootMs
        r.ms.toNat } := by
  simp only [execBootComplete, onBody, hboot, hfresh, hout, hcode, ne_eq, not_true_eq_false, not_false_eq_true, or_self,
    if_false, if_true]

/-- Boot that passes runs the image of slot `k`, retires the cores and clusters that no spare repairs and enters
Survey. -/
theorem execBootComplete_passes {k : Nat}
    (hout : s.b.bootOutcome r.flash (s.b.repairColumns r.columns).2 = (0, k)) :
    let p := s.b.repairColumns r.columns
    let b1 := (p.1.fset clsPower 0 FPower.bootStatus 0).fset clsPower 0 FPower.bootMs r.ms.toNat
    let b2 := (b1.fset clsPower 0 FPower.bootSlot k).runImage k
    let b3 := ((((b2.fset clsStore 2 FStore.valid 1).showStore 0).showStore 1).showStore 3).showStore 4
    let b4 := p.2.foldl (fun (x : Body) m =>
      if m < 0x200 then x.retireOne s.tm (m - 0x100) 1 else x.retireCluster s.tm (m - 0x200)) b3.bootCalib.loadKeys
    ∀ b, ({ b4 with adm.mailbox.ready := true } : Body).enterMode .survey = b →
      execBootComplete r s = .next { s with b := b } := by
  intro p b1 b2 b3 b4 b hb
  subst hb
  simp only [execBootComplete, onBody, hboot, hfresh, hout, ne_eq, not_true_eq_false, or_self, if_false, List.foldl,
    Body.retireMemory, b4, b3, b2, b1, p]

end

/-- Entry to Survey (R349, R444). -/
theorem enterMode_survey (b : Body) :
    let b1 := (b.setBase .survey).holdPorts.fset clsPower 0 FPower.modeTarget 0
    b.enterMode .survey = { b1 with
      adm.bootSet := false, adm.survey := ⟨[], none, false, false⟩
      drm.speedLimit := b1.fget clsDram 0 FDram.speedMax } := rfl

/-! The slot that Boot starts (R448, R449). -/

theorem bootChoice_active {b : Body} (hgood : imageGood (b.fwSlot b.adm.fwActive) = true) :
    b.bootChoice = some b.adm.fwActive := if_pos hgood

theorem bootChoice_other {b : Body} (hbad : imageGood (b.fwSlot b.adm.fwActive) = false)
    (hgood : imageGood (b.fwSlot (1 - b.adm.fwActive)) = true) : b.bootChoice = some (1 - b.adm.fwActive) := by
  simp only [Body.bootChoice, hbad, hgood, Bool.false_eq_true, if_false, if_true]

theorem bootChoice_none {b : Body} (hbad : imageGood (b.fwSlot b.adm.fwActive) = false)
    (hother : imageGood (b.fwSlot (1 - b.adm.fwActive)) = false) : b.bootChoice = none := by
  simp only [Body.bootChoice, hbad, hother, Bool.false_eq_true, if_false]

theorem fget_runImage_fwVersion (b : Body) (k : Nat) :
    (b.runImage k).fget clsDevice 0 FDevice.fwVersion = Config.fwVersionOf (b.fwSlot k) % 2 ^ 32 := by
  unfold Body.runImage
  exact (Body.fget_fset_self ..).trans (Nat.mod_mod _ _)

/-! The hold-up bank (R451). -/

/-- The body after row 1 with the bank's voltage sampled and row 7 noted. -/
def Body.bankSampled (b : Body) (mv : Nat) : Body :=
  { b.endRow1.sampleBank mv with sys.holdupChg := true, adm.survey.bank := true }

/-- What row 7 shows of a bank that is sampled: its capacitance, or that it was not measured. -/
def Body.bankMeasured (b : Body) (dt : Option Nat) : Body :=
  let lo := b.fget clsPower 0 FPower.measLoMv
  if lo ≤ b.fget clsPower 0 FPower.bankMv then b.fset clsPower 0 FPower.holdupMeasured 0
  else match dt.filter (fun us => decide (us ≤ 800000)) with
    | some us =>
      let uf := b.fget clsPower 0 FPower.chargeMa * us / (b.fget clsPower 0 FPower.measHiMv - lo)
      (b.fset clsPower 0 FPower.bankCapUf (if uf < 2 ^ 32 then uf else Config.counterOver 32 uf)).fset clsPower 0
        FPower.holdupMeasured 1
    | none => (b.fset clsPower 0 FPower.bankCapUf 0).fset clsPower 0 FPower.holdupMeasured 0

theorem execHoldupMeasureDone_eq {mv : Nat} {dt : Option Nat} (hsurvey : s.b.sys.base = .survey)
    (hrow : s.b.adm.survey.bank = false) {b : Body} (hb : (s.b.bankSampled mv).bankMeasured dt = b) :
    execHoldupMeasureDone mv dt s = .next { s with b := b } := by
  subst hb
  have hdue : ¬ (s.b.sys.base ≠ .survey ∨ s.b.adm.survey.bank = true) := by simp [hsurvey, hrow]
  simp only [execHoldupMeasureDone, onBody, hdue, if_false]
  rfl

theorem bankMeasured_charged {b : Body} {dt : Option Nat}
    (hlo : b.fget clsPower 0 FPower.measLoMv ≤ b.fget clsPower 0 FPower.bankMv) :
    b.bankMeasured dt = b.fset clsPower 0 FPower.holdupMeasured 0 := if_pos hlo

section
variable {b : Body} (hlo : b.fget clsPower 0 FPower.bankMv < b.fget clsPower 0 FPower.measLoMv)
include hlo

theorem bankMeasured_crossed {us : Nat} (hus : us ≤ 800000) :
    let uf := b.fget clsPower 0 FPower.chargeMa * us /
      (b.fget clsPower 0 FPower.measHiMv - b.fget clsPower 0 FPower.measLoMv)
    b.bankMeasured (some us) = (b.fset clsPower 0 FPower.bankCapUf
      (if uf < 2 ^ 32 then uf else Config.counterOver 32 uf)).fset clsPower 0 FPower.holdupMeasured 1 := by
  simp only [Body.bankMeasured, Nat.not_le.2 hlo, if_false, Option.filter, hus, decide_true, if_true]

/-- A bank whose voltage does not cross MEAS_HI_MV within 800 ms has no capacitance. -/
theorem bankMeasured_none {dt : Option Nat} (hdt : ∀ us, dt = some us → 800000 < us) :
    b.bankMeasured dt = (b.fset clsPower 0 FPower.bankCapUf 0).fset clsPower 0 FPower.holdupMeasured 0 := by
  have hnone : dt.filter (fun us => decide (us ≤ 800000)) = none :=
    Option.filter_eq_none_iff.2 fun us hus => by simpa using hdt us hus
  simp only [Body.bankMeasured, Nat.not_le.2 hlo, if_false, hnone]

end

/-! The saved configuration (R453). -/

theorem savedSet_of_slot {b : Body} {q : Nat} {e : Bool} {n : Nat} {sts : List Nat} {rs : List (ObjAddr × Nat)}
    (hslot : b.storeSlot 0 = some ⟨q, e, .config n sts rs⟩) : b.savedSet = some (n, sts, rs) := by
  simp only [Body.savedSet, hslot]

theorem execConfigRestore_eq {n : Nat} {sts : List Nat} {rs : List (ObjAddr × Nat)}
    (hsurvey : s.b.sys.base = .survey) (hauto : s.b.fget clsPower 0 FPower.autoRestore = 1)
    (hset : s.b.adm.bootSet = false) (hbank : s.b.adm.survey.bank = true) (hshown : s.b.adm.survey.shown = true)
    (hsaved : s.b.savedSet = some (n, sts, rs)) {d : Dev}
    (hd : (Dev.mk s.tm s.b.asStandby).restoreSet n sts rs = d) : execConfigRestore s = .next { s with
      tm := d.tm
      b := ({ d.b with sys := { d.b.sys with base := .survey, hold := s.b.sys.hold, row8 := false } } : Body).settle
        d.tm } := by
  have hdue : s.b.rowEightDue = true := by simp [Body.rowEightDue, hauto, hsaved, hset]
  simp only [execConfigRestore, onDev, hsaved, hsurvey, hdue, hbank, hshown, and_self, if_true, hd]

/-- With the saved N in force the tents and the records are restored. -/
theorem restoreSet_inForce {d : Dev} {n : Nat} {sts : List Nat} {rs : List (ObjAddr × Nat)} (hn : d.b.tents = n) :
    let e := rs.foldl Dev.restoreRecord ⟨d.tm, d.b.restoreTents sts⟩
    d.restoreSet n sts rs = ⟨e.tm, { e.b with adm.bootSet := true }⟩ := if_pos hn

/-- Another N is re-pitched to first. -/
theorem restoreSet_repitches {d : Dev} {n : Nat} {sts : List Nat} {rs : List (ObjAddr × Nat)} (hn : d.b.tents ≠ n)
    (hfree : d.b.pitchPending = false) :
    let w := (d.fieldWrite .biv clsTent 0x100 FTents.nNext n).2.2
    d.restoreSet n sts rs = ⟨w.tm, w.b.repitchWrite.2⟩ := by
  simp only [Dev.restoreSet, hn, hfree, Bool.false_eq_true, if_false]

/-! Survey (R335, R450). -/

/-- Row 1's bits of SURVEY_FAIL, judged at its end or by what the monitors and sensors show. -/
theorem endRow1_eq (b : Body) : b.endRow1 = { b with
    adm.survey.verdict :=
      some (b.adm.survey.verdict.getD ((if b.anyOut then 2 else 0) + (if b.anyHot then 4 else 0))) } := by
  unfold Body.endRow1
  split
  · rename_i v hv
    have hget : b.adm.survey.verdict.getD ((if b.anyOut then 2 else 0) + (if b.anyHot then 4 else 0)) = v := by
      rw [hv]
      rfl
    rw [hget, ← hv]
  · rename_i hv
    rw [hv]
    rfl

/-- What rows 2 to 6 show, after row 1. -/
theorem surveyRows_eq (b : Body) (r : SurveyResult) :
    let row1 := b.adm.survey.verdict.getD ((if b.anyOut then 2 else 0) + (if b.anyHot then 4 else 0))
    let d := Body.surveyDram { b with adm.survey.verdict := some row1 } r
    let b1 := ((d.2.surveyPorts r).fset clsSensor 0x100 FHostLink.pcieWidth r.pcieWidth.toNat).fset clsSensor 0x100
      FHostLink.pcieSpeed r.pcieSpeed.toNat
    { b1.fset clsPower 0 FPower.surveyFail ((if d.1 then 0 else 1) + b1.adm.survey.verdict.getD 0) with
      adm.survey.shown := true } = b.surveyRows r := by
  simp only [Body.surveyRows, endRow1_eq]

section
variable {r : SurveyResult} (hsurvey : s.b.sys.base = .survey)
include hsurvey

theorem execSurveyComplete_goesOn
    (hmore : (s.b.surveyRows r).adm.survey.bank = false ∨ (s.b.surveyRows r).rowEightDue = true) :
    execSurveyComplete r s = .next { s with b := s.b.surveyRows r } := by
  have hgoes : (!(s.b.surveyRows r).adm.survey.bank || (s.b.surveyRows r).rowEightDue) = true := by simpa using hmore
  simp only [execSurveyComplete, onBody, hsurvey, ne_eq, not_true_eq_false, if_false, hgoes, if_true]

/-- Survey ends in Standby, passed or failed. -/
theorem execSurveyComplete_ends (hbank : (s.b.surveyRows r).adm.survey.bank = true)
    (height : (s.b.surveyRows r).rowEightDue = false) : execSurveyComplete r s = .next { s with
      b := (((s.b.surveyRows r).fset clsPower 0 FPower.surveyOk
        (if (s.b.surveyRows r).fget clsPower 0 FPower.surveyFail = 0 then 1 else 0)).fset clsPower 0 FPower.surveyMs
          r.ms.toNat).enterMode .standby } := by
  simp only [execSurveyComplete, onBody, hsurvey, ne_eq, not_true_eq_false, if_false, hbank, height, Bool.not_true,
    Bool.or_self, Bool.false_eq_true]

end

/-! The handover of firmware (R447). -/

section
variable {f : Handover} (hfw : s.b.adm.fw = some f)
include hfw

theorem execFirmwareHandover_eq (hwaits : f.started = false) : execFirmwareHandover s = .next { s with
    b := { (s.b.resetCores s.tm).runImage f.slot with
      adm.fw := some ⟨f.slot, true, s.tm.now⟩
      adm.mailbox.ready := false } } := by
  simp only [execFirmwareHandover, onBody, hfw, hwaits, Bool.false_eq_true, if_false]

theorem execFwReadyTimeout_eq (hstarted : f.started = true) :
    let d := (Dev.mk s.tm s.b).waitUntil ((f.since + 2 * 10 ^ 9 * 2 ^ 16) % 2 ^ 64)
    execFwReadyTimeout s = .next { s with
      tm := d.tm
      b := (({ (d.b.resetCores d.tm).runImage (d.b.fget clsPower 0 FPower.bootSlot) with
        adm.fw := none, adm.mailbox.ready := true }.bump clsPower 0 FPower.fwRollbacks 1).leaveUpdate) } := by
  simp only [execFwReadyTimeout, onDev, hfw, hstarted, if_true, twoSeconds]

end
end

end Sys2Proof.Machine

namespace Sys2Proof
open Machine

/-- Settles O20: Boot by its outcome, the slot by the images that verify, rows 7 and 8 of Survey and its end, and the
handover by whether it has started. -/
theorem bootAndSurvey : Obligations.BootAndSurvey := by
  unfold Obligations.BootAndSurvey
  refine ⟨fun s r hboot hfresh => ?boot, fun b => ?slot, fun s mv dt hsurvey hrow => ?bank,
    fun s q e n sts rs hsurvey hauto hset hbank hshown hslot => ?restore, fun s r hsurvey => ?survey,
    fun s f hfw => ⟨fun hwaits => execFirmwareHandover_eq hfw hwaits,
      fun hstarted => execFwReadyTimeout_eq hfw hstarted⟩⟩
  case boot =>
    refine ⟨fun hlost => ?_, fun hlost hflash => ?_, fun hlost hflash hnone => ?_, fun k hlost hflash hk => ?_⟩
    · exact execBootComplete_fails hboot hfresh (bootOutcome_memory hlost) (by decide)
    · exact execBootComplete_fails hboot hfresh (by rw [hflash, bootOutcome_flash hlost]) (by decide)
    · exact execBootComplete_fails hboot hfresh (by rw [hflash, bootOutcome_image hlost hnone]) (by decide)
    · exact execBootComplete_passes hboot hfresh (by rw [hflash, bootOutcome_starts hlost hk]) _ (enterMode_survey _)
  case slot =>
    simp only [← imageGood_iff, Bool.not_eq_true]
    exact ⟨bootChoice_active, bootChoice_other, bootChoice_none, fget_runImage_fwVersion b⟩
  case bank =>
    exact ⟨fun hlo => execHoldupMeasureDone_eq hsurvey hrow (bankMeasured_charged hlo), fun hlo =>
      ⟨fun us hus => execHoldupMeasureDone_eq hsurvey hrow (bankMeasured_crossed hlo hus),
        fun hdt => execHoldupMeasureDone_eq hsurvey hrow (bankMeasured_none hlo hdt)⟩⟩
  case restore =>
    have hrow {d : Dev} :=
      execConfigRestore_eq hsurvey hauto hset hbank hshown (savedSet_of_slot hslot) (d := d)
    exact ⟨fun hn => hrow (restoreSet_inForce hn), fun hn hfree => hrow (restoreSet_repitches hn hfree)⟩
  case survey =>
    intro row1 b0 d b1 bad b2
    rw [show b2 = s.b.surveyRows r from surveyRows_eq s.b r]
    exact ⟨execSurveyComplete_goesOn hsurvey, execSurveyComplete_ends hsurvey⟩

end Sys2Proof
end

section
/-! The queue of waiting commands (assumption logs 2 and 3): a step takes the command in front of it, and no command touches
the rest. -/

namespace Sys2Proof.Machine

/-- A command's meaning answers a next state with the queue that it found. -/
def AnswersKeepingQueue (f : State → Host.Outcome State Fault Refusal) : Prop :=
  ∀ s, ∃ t, f s = .next t ∧ t.pending = s.pending

theorem fieldCommand_answers (au : Auth) (cls inst : Nat) (f : Fld) (v : Nat) :
    AnswersKeepingQueue (fieldCommand au cls inst f v) := fun _ => ⟨_, rfl, rfl⟩

theorem windowCommand_answers (w : Win) (op : Nat) : AnswersKeepingQueue (windowCommand w op) := fun s => by
  unfold windowCommand
  split
  · exact fieldCommand_answers _ _ _ _ _ s
  · exact ⟨s, rfl, rfl⟩

theorem execReqCancel_answers (w : Win) : AnswersKeepingQueue (execReqCancel w) := fun s => by
  unfold execReqCancel
  split
  · exact fieldCommand_answers _ _ _ _ _ s
  · exact ⟨s, rfl, rfl⟩

/-- But for the commands of a window that may not exist, every command is an effect on time and body. -/
theorem exec_answers (c : Instr) : AnswersKeepingQueue (exec c) := by
  cases c with
  | windowAcquire w | windowRelease w | windowP w | windowV w => exact windowCommand_answers w _
  | reqCancel w => exact execReqCancel_answers w
  | _ => exact fun _ => ⟨_, rfl, rfl⟩

theorem step_of_pending {s : State} {c : Instr} {rest : List Instr} (h : s.pending = c :: rest) :
    step s = exec c { s with pending := rest } := by
  rw [step, h]

end Sys2Proof.Machine

namespace Sys2Proof
open Machine

/-- Settles O3. -/
theorem stepRunsFront : Obligations.StepRunsFront := by
  unfold Obligations.StepRunsFront
  exact fun _ _ _ => step_of_pending

/-- Settles O5. -/
theorem everyCommandAnswers : Obligations.EveryCommandAnswers := by
  unfold Obligations.EveryCommandAnswers
  exact exec_answers

end Sys2Proof
end

section
/-! The replay window of a key's sender slot (R411). -/

namespace Sys2Proof.Machine

/-- Whether the window of slot `j` of key `k` holds a sequence number that lies `d` ahead of the highest: it is not ahead, and
it is 64 or more behind or its bit is set. -/
def Body.windowHolds (b : Body) (k j : Nat) (d : Int) : Prop :=
  d ≤ 0 ∧ (-64 < d → (mapGet 0 (4 * k + j) b.adm.windows).getLsbD (-d).toNat = true)

/-- The slot has seen no sequence number, or its window does not hold `seq`. -/
def Body.admitsSequence (b : Body) (k j seq : Nat) : Prop :=
  (b.fget clsDevice (0x100 + k) FKey.seen).testBit j = true →
    ¬ b.windowHolds k j (tickDiff seq (b.fget clsDevice (0x100 + k) (FKey.highSeq j)))

section
variable {b : Body} {k j seq : Nat}

/-- A sequence number that is accepted moves the window so that it holds that number. -/
theorem replayCheck_of_admits (h : b.admitsSequence k j seq) : ∃ (high : Nat) (win : BitVec 64),
    b.replayCheck k j seq = (true, b.setWindow k j high win) ∧ tickDiff seq high ≤ 0 ∧
      (-64 < tickDiff seq high → win.getLsbD (-(tickDiff seq high)).toNat = true) := by
  have hself : tickDiff seq seq = 0 := by
    unfold tickDiff signedOf
    omega
  unfold Body.admitsSequence Body.windowHolds at h
  unfold Body.replayCheck
  dsimp only
  split
  · exact ⟨seq, _, rfl, hself.le, by simp [hself]⟩
  · next hseen =>
    split
    · exact ⟨seq, _, rfl, hself.le, by simp only [hself]; split <;> simp⟩
    · next hahead =>
      obtain ⟨hnear, hclear⟩ := Classical.not_imp.1 fun himp => h (by simpa using hseen) ⟨not_lt.1 hahead, himp⟩
      rw [if_pos ⟨hnear, by simpa using hclear⟩]
      refine ⟨_, _, rfl, not_lt.1 hahead, fun _ => ?_⟩
      have hbit : (-(tickDiff seq (b.fget clsDevice (0x100 + k) (FKey.highSeq j)))).toNat < 64 := by omega
      rw [BitVec.getLsbD_or, BitVec.natCast_eq_ofNat, BitVec.getLsbD_ofNat, Nat.testBit_shiftLeft]
      simp [hbit]

theorem replayCheck_of_refuses (h : ¬ b.admitsSequence k j seq) :
    b.replayCheck k j seq = (false, b.bump clsDevice 0 FDevice.replays 1) := by
  obtain ⟨hseen, hholds⟩ := Classical.not_imp.1 h
  obtain ⟨hbehind, hbit⟩ := not_not.1 hholds
  unfold Body.replayCheck
  dsimp only
  rw [if_neg (by simp [hseen]), if_neg (not_lt.2 hbehind), if_neg]
  rintro ⟨hnear, hclear⟩
  exact Bool.false_ne_true (hclear.symm.trans (hbit hnear))

theorem replayCheck_accepts_iff : (b.replayCheck k j seq).1 = true ↔ b.admitsSequence k j seq := by
  by_cases h : b.admitsSequence k j seq
  · obtain ⟨_, _, hcheck, -⟩ := replayCheck_of_admits h
    simp [h, hcheck]
  · simp [h, replayCheck_of_refuses h]

end

/-! What a moved window shows. -/

section
variable (b : Body) {k j : Nat} (high : Nat) (win : BitVec 64)

theorem mapGet_windows_setWindow : mapGet 0 (4 * k + j) (b.setWindow k j high win).adm.windows = win := by
  simp [Body.setWindow]

theorem seen_setWindow (hj : j < 4) :
    ((b.setWindow k j high win).fget clsDevice (0x100 + k) FKey.seen).testBit j = true := by
  have hshown : (b.setWindow k j high win).fget clsDevice (0x100 + k) FKey.seen =
    (b.fget clsDevice (0x100 + k) FKey.seen ||| 2 ^ j) % 2 ^ 4 := Body.fget_fset_self ..
  rw [hshown, Nat.testBit_mod_two_pow, Nat.testBit_or, Nat.testBit_two_pow_self]
  simp [hj]

theorem highSeq_setWindow : (b.setWindow k j high win).fget clsDevice (0x100 + k) (FKey.highSeq j) = high % 2 ^ 32 := by
  have hkey : fieldKey clsDevice (0x100 + k) (FKey.highSeq j).lo ≠ fieldKey clsDevice (0x100 + k) FKey.seen.lo := by
    simp only [fieldKey, FKey.highSeq, FKey.seen]
    omega
  exact (Body.fget_fset_ne _ hkey _).trans (Body.fget_fset_self ..)

end

theorem tickDiff_mod (seq high : Nat) : tickDiff seq (high % 2 ^ 32) = tickDiff seq high := by
  simp [tickDiff]

end Sys2Proof.Machine

namespace Sys2Proof
open Machine

/-- Settles O26: an accepted number is in the window that it leaves. -/
theorem replayWindow : Obligations.ReplayWindow := by
  unfold Obligations.ReplayWindow
  intro b k j seq _ hj _ h seen
  simp only [replayCheck_accepts_iff, ← Bool.not_eq_true]
  refine ⟨fun hnew hseen => absurd hseen hnew, fun _ hahead _ hholds => ?ahead, fun hseen hfar hadmits => ?behind,
    fun hadmits => ?again, fun hrefuses => congrArg Prod.snd (replayCheck_of_refuses hrefuses)⟩
  case ahead => exact absurd hholds.1 (not_le.2 hahead)
  case behind => exact hadmits hseen ⟨hfar.trans (by decide), fun hnear => absurd hfar (not_le.2 hnear)⟩
  case again =>
    obtain ⟨high, win, hcheck, hbehind, hbit⟩ := replayCheck_of_admits hadmits
    rw [hcheck]
    refine fun hagain => hagain (seen_setWindow b high win hj) ?_
    rw [highSeq_setWindow b high win, tickDiff_mod, Body.windowHolds, mapGet_windows_setWindow]
    exact ⟨hbehind, hbit⟩

end Sys2Proof
end

section
/-! Shesin messages (R407, R413 to R417): what the object opcodes do with a message that passes the checks, and what becomes of
one that waits, is malformed or fails a check. -/

namespace Sys2Proof.Machine

/-! The opcodes ECHO, IDENTIFY, OBJ_READ, OBJ_WRITE and OBJ_MODIFY. -/

section
variable {s : State} {m : Msg} {c : Caller} {au : Auth} {p : List Byte} {b : Body}

/-- The parameters of OBJ_WRITE are never missing. -/
theorem replyParams_written (i : Nat) : replyParams 0x11 stOk (beBytes 2 i ++ [0, 0]) = beBytes 2 i ++ [0, 0] := by
  simp [replyParams]

theorem execEcho_eq (h : Received s m 0x01 c au p b) : execEcho m s = .next (s.replied c ⟨s.tm, b⟩ p) :=
  shesin_said h (by decide) rfl

theorem execIdentify_eq (h : Received s m 0x02 c au p b) :
    execIdentify m s = .next (s.replied c ⟨s.tm, b⟩ b.identity) :=
  shesin_said h (by decide) rfl

theorem execObjRead_ok {ws : List Nat} {d1 : Dev} (h : Received s m 0x10 c au p b) :
    let a := objAddress p
    1 ≤ a.2.2.2 → a.2.2.2 ≤ 1024 → (Dev.mk s.tm b).objRead au a.1 a.2.1 a.2.2.1 a.2.2.2 = (stOk, ws, d1) →
      execObjRead m s = .next (s.replied c d1 (wordParams ws)) := by
  intro a hlow hhigh hread
  have hcount : countOk a.2.2.2 1024 = true := decide_eq_true ⟨hlow, hhigh⟩
  refine (shesin_ok _ h (wordParams ws) d1 ?_).trans ?_
  · rw [if_pos hcount, hread]
  · rw [replyParams_ok (by decide)]

theorem execObjWrite_ok {i : Nat} {d1 : Dev} (h : Received s m 0x11 c au p b) :
    let a := objAddress p
    1 ≤ a.2.2.2 → a.2.2.2 ≤ 1024 →
      (Dev.mk s.tm b).objWrite au a.1 a.2.1 a.2.2.1 (paramWords a.2.2.2 (p.drop 8)) = (stOk, i, d1) →
      execObjWrite m s = .next (s.replied c d1 (beBytes 2 i ++ [0, 0])) := by
  intro a hlow hhigh hwrite
  have hcount : countOk a.2.2.2 1024 = true := decide_eq_true ⟨hlow, hhigh⟩
  refine (shesin_ok _ h (beBytes 2 i ++ [0, 0]) d1 ?_).trans ?_
  · rw [if_pos hcount, hwrite]
  · rw [replyParams_written]

theorem execObjModify_ok {old : Nat} {d1 : Dev} (h : Received s m 0x12 c au p b) :
    let a := objAddress p
    a.2.2.2 = 1 → (Dev.mk s.tm b).objModify au a.1 a.2.1 a.2.2.1 (beNat ((p.drop 8).take 4))
      (beNat ((p.drop 12).take 4)) = (stOk, old, d1) →
      execObjModify m s = .next (s.replied c d1 (beBytes 4 old)) := by
  intro a hone hmodify
  have hcount : countOk a.2.2.2 1 = true := decide_eq_true ⟨hone.ge, hone.le⟩
  refine (shesin_ok _ h (beBytes 4 old) d1 ?_).trans ?_
  · rw [if_pos hcount, hmodify]
  · rw [replyParams_ok (by decide)]

end

/-! Messages that are not performed. -/

section
variable {s : State} {op : Nat} {m : Msg} {f : Perform} {path : ReplyPath} {l : List Byte} (hserves : s.b.serves = true)
include hserves

omit hserves in
/-- A message behind another one waits. -/
theorem shesin_behind (hlater : s.b.firstCome m = false) :
    shesin op m f s = .next { s with b := s.b.settle s.tm } := by
  simp [shesin, onDev, Dev.serve, hlater]

variable (hfirst : s.b.firstCome m = true) (hmsg : s.b.messageAt m = some (some (path, l)))
include hfirst hmsg

/-- Any row discards a malformed message (step 1 of R413, assumption log 112). -/
theorem shesin_malformed (hbad : badMessage l = true) :
    shesin op m f s = .next { s with b := ((s.b.takeUp m).discardMsg m).settle s.tm } := by
  simp [shesin, onDev, Dev.serve, hserves, hfirst, hmsg, hbad]

/-- A message that fails a check of steps 2 to 9 is answered with the status of the check. -/
theorem shesin_refused {c : Caller} {st : Nat} {au : Auth} {b1 : Body} (hgood : badMessage l = false)
    (hop : opcodeOf l = op) (hcut : opcodeOf (l.take (be16 l 2)) = op)
    (hchecks : (s.b.takeUp m).checks path (l.take (be16 l 2)) = (c, st, au, b1)) (hst : st ≠ stOk) :
    shesin op m f s =
      .next { s with b := (b1.sendReply c st (if op = 0x11 then [0, 0, 0, 0] else [])).settle s.tm } := by
  simp [shesin, onDev, Dev.serve, hserves, hfirst, hmsg, hgood, hop, Dev.handle, hcut, hchecks, hst, replyParams]

end

end Sys2Proof.Machine

namespace Sys2Proof
open Machine

/-- Settles O23. -/
theorem shesinObjectOpcodes : Obligations.ShesinObjectOpcodes := by
  unfold Obligations.ShesinObjectOpcodes
  exact fun s m c au p b => ⟨execEcho_eq, execIdentify_eq, fun ws d1 => execObjRead_ok, fun i d1 => execObjWrite_ok,
    fun old d1 => execObjModify_ok⟩

/-- Settles O25: by whether the message is the first, is malformed, or fails a check. -/
theorem shesinRefusals : Obligations.ShesinRefusals := by
  unfold Obligations.ShesinRefusals
  exact fun op m f s path l hserves hmsg => ⟨shesin_behind, fun hfirst =>
    ⟨shesin_malformed hserves hfirst hmsg, fun c st au b1 => shesin_refused hserves hfirst hmsg⟩⟩

end Sys2Proof
end

section
/-! The Bivouac's interrupts, watchdogs, transmit records and mailbox (R400, R401, R405, R406): what each command does where its
event can occur. -/

namespace Sys2Proof.Machine

variable {s : State}

theorem execBivouacInterrupt_eq {j : Nat} (hj : j < 4) (hruns : s.b.bivRuns = true) (hreq : s.b.coreRequest j = true)
    (hie : s.b.fget clsDevice (1 + j) FBiv.ie = 1) (hout : (s.b.hart (1024 + j)).inTrap = false) :
    let x := s.b.hart (1024 + j)
    execBivouacInterrupt j s = .next { s with
      b := ((s.b.fset clsDevice (1 + j) FBiv.ipc x.pc).fset clsDevice (1 + j) FBiv.ie 0).setHart (1024 + j)
        { x with pc := s.b.fget clsDevice (1 + j) FBiv.ivec, block := .none } } := by
  simp [execBivouacInterrupt, onBody, bivHart, hj, hruns, hreq, hie, hout]

theorem execBivouacWatchdog_eq {j : Nat} (hj : j < 4) (hruns : s.b.bivRuns = true) :
    let d := (Dev.mk s.tm s.b).waitUntil
      ((mapGet 0 j s.b.adm.kicks + s.b.fget clsDevice (1 + j) FBiv.wdogUs * 1000 * 2 ^ 16) % 2 ^ 64)
    execBivouacWatchdog j s = .next { s with tm := d.tm, b := d.b.bivReset d.tm j } := by
  simp only [execBivouacWatchdog, onDev, hj, hruns, and_self, if_true]

/-! Transmit records (R405). -/

section
variable {x : Nat} {w : Word} (hx : x < 12) (hruns : s.b.bivRuns = true)

theorem bmemWord_setBmemWord (b : Body) (a : Nat) (w : Word) : (b.setBmemWord a w.toNat).bmemWord a = w.toNat :=
  (readLE_writeLE _ _ _ _).trans (Nat.mod_eq_of_lt w.isLt)

/-- Without GO a word is stored and nothing is sent. -/
theorem txRecordAct_still (b : Body) (hgo : w.getLsbD 14 = false) :
    (b.setBmemWord (txRecord x) w.toNat).txRecordAct x = b.setBmemWord (txRecord x) w.toNat := by
  unfold Body.txRecordAct
  simp only [bmemWord_setBmemWord, BitVec.testBit_toNat, hgo, Bool.false_eq_true, if_false]

/-- GO with LENGTH and PORT in their ranges sends the frame of the record's slot. -/
theorem txRecordAct_sends (b : Body) {st : Nat} {b1 : Body} (hgo : w.getLsbD 14 = true) (hlow : 60 ≤ w.toNat % 2 ^ 14)
    (hhigh : w.toNat % 2 ^ 14 ≤ 16379) (hport : bitsAt w.toNat 16 7 ≤ 64 ∨ w.getLsbD 15 = true)
    (hsend : (b.setBmemWord (txRecord x) w.toNat).sendBiv (w.getLsbD 15) (bitsAt w.toNat 16 7) (bitsAt w.toNat 23 3)
      (readBytes (b.setBmemWord (txRecord x) w.toNat).mem.bmem (slotMem (32 + x)) (w.toNat % 2 ^ 14)) = (st, b1)) :
    let b2 := b1.setBmemWord (txRecord x) (w.toNat - 2 ^ 14)
    (b.setBmemWord (txRecord x) w.toNat).txRecordAct x =
      b2.setBmemWord (txRecord x + 4) (b2.bmemWord (txRecord x + 4) / 2 ^ 16 * 2 ^ 16 + st) := by
  have hin : ¬ (w.toNat % 2 ^ 14 < 60 ∨ 16379 < w.toNat % 2 ^ 14 ∨ 64 < bitsAt w.toNat 16 7 ∧ ¬ w.getLsbD 15 = true) := by
    rcases hport with hport | hport
    · omega
    · simp only [hport, not_true_eq_false, and_false, or_false]
      omega
  unfold Body.txRecordAct
  simp only [bmemWord_setBmemWord, BitVec.testBit_toNat, hgo, if_true, hin, if_false, hsend]

include hx hruns

theorem execTxRecordGo_eq {b : Body} (hact : (s.b.setBmemWord (txRecord x) w.toNat).txRecordAct x = b) :
    execTxRecordGo x w s = .next { s with b := b.settle s.tm } := by
  simp only [execTxRecordGo, onBuf, onBody, hx, hruns, and_self, if_true, hact]

end

/-! The mailbox (R406). -/

/-- A word with GO and no reserved bit, in a mailbox that is not busy, joins those that wait. -/
theorem writeMailbox_go {b : Body} {w : Word} (hidle : b.adm.mailbox.busy = false) (hgo : w.getLsbD 0 = true)
    (hreserved : ∀ k, k < 32 → ((4 ≤ k ∧ k < 16) ∨ 29 ≤ k) → w.getLsbD k = false) :
    b.writeMailbox w.toNat = ({ b with
      adm.mailbox := { b.adm.mailbox with
        busy := true, done := b.adm.mailbox.done && !w.getLsbD 2
        source := bitsAt w.toNat 16 12, sourceEn := w.getLsbD 28 }
      adm.arrivals := b.adm.arrivals ++ [.mailbox] } : Body).fire 0 := by
  have hnone : (List.range 32).countP (fun k => w.getLsbD k && decide ((4 ≤ k ∧ k < 16) ∨ 29 ≤ k)) = 0 := by
    refine List.countP_eq_zero.2 fun k hk => ?_
    simpa only [Bool.and_eq_true, decide_eq_true_eq, not_and'] using
      fun hplace => Bool.eq_false_iff.1 (hreserved k (List.mem_range.1 hk) hplace)
  unfold Body.writeMailbox
  simp only [BitVec.testBit_toNat, hnone, hidle, hgo, if_true, Bool.not_false, Bool.and_self, Bool.or_true]

theorem execMailboxGo_eq {w : Word} {req : List Byte} (hin : s.b.hostIn = true) (hidle : s.b.adm.mailbox.busy = false)
    (hgo : w.getLsbD 0 = true)
    (hreserved : ∀ k, k < 32 → ((4 ≤ k ∧ k < 16) ∨ 29 ≤ k) → w.getLsbD k = false) :
    execMailboxGo w req s = .next { s with
      b := ({ s.b with
        mem.bmem := writeBytes s.b.mem.bmem 0x7F0000 (req.take 16384)
        adm.mailbox := { s.b.adm.mailbox with
          busy := true, done := s.b.adm.mailbox.done && !w.getLsbD 2
          source := bitsAt w.toNat 16 12, sourceEn := w.getLsbD 28 }
        adm.arrivals := s.b.adm.arrivals ++ [.mailbox] } : Body).fire 0 } := by
  simp only [execMailboxGo, onBody, hin, if_true]
  rw [writeMailbox_go (b := { s.b with mem.bmem := writeBytes s.b.mem.bmem 0x7F0000 (req.take 16384) }) hidle hgo hreserved]

end Sys2Proof.Machine

namespace Sys2Proof
open Machine

/-- Settles O27. -/
theorem bivouacCommands : Obligations.BivouacCommands := by
  unfold Obligations.BivouacCommands
  exact ⟨fun s j => execBivouacInterrupt_eq, fun s j => execBivouacWatchdog_eq,
    fun s x w hx hruns => ⟨fun hgo => execTxRecordGo_eq hx hruns (txRecordAct_still s.b hgo),
      fun st b1 hgo hlow hhigh hport hsend =>
        execTxRecordGo_eq hx hruns (txRecordAct_sends s.b hgo hlow hhigh hport hsend)⟩,
    fun s w req => execMailboxGo_eq⟩

end Sys2Proof
end

section
/-! Clock monitors (R430, R431) and the persistent store (R457 to R459): what each command does where its event can occur. -/

namespace Sys2Proof.Machine

variable {s : State}

/-! Lost and restored clocks. -/

section
variable {ck : ClockIn} (hon : s.b.sys.base ≠ .cold)
include hon

theorem execClockEdgeTimeout_eq (hmon : s.b.monitored ck = true) (hruns : s.b.isLost ck = false) :
    execClockEdgeTimeout ck s = .next { s with b := (s.b.loseClock ck).settle s.tm } := by
  simp [execClockEdgeTimeout, onBuf, onBody, hon, hmon, hruns]

theorem execClockRestored_eq (hlost : s.b.isLost ck = true) :
    execClockRestored ck s = .next { s with b := (s.b.restoreClock ck).settle s.tm } := by
  simp [execClockRestored, onBuf, onBody, hon, hlost]

section
variable {ppb : Int} (hmon : s.b.monitored ck = true) (hne : ck ≠ .sys) (hsys : s.b.isLost .sys = false)
include hmon hne hsys

/-- A window is judged against the reference of an input that is not SYSCLK_25. -/
theorem execClockFrequencyWindow_eq : execClockFrequencyWindow ck ppb s = .next { s with
    b := (if 1000000 < ppb.natAbs ∧ ¬ s.b.isLost ck then (s.b.showOffset ck ppb).loseClock ck
      else s.b.showOffset ck ppb).settle s.tm } := by
  simp [execClockFrequencyWindow, onBuf, onBody, hon, hmon, hne, hsys]

variable (hlow : -2 ^ 31 ≤ ppb) (hhigh : ppb < 2 ^ 31)
include hlow hhigh

omit hon hmon hne hsys in
theorem showOffset_of_held (b : Body) :
    b.showOffset ck ppb = b.fset clsClock 0 (offsetField ck) (codeOf 32 ppb) := by
  rw [Body.showOffset, if_pos ⟨hlow, hhigh⟩]

theorem execClockFrequencyWindow_near (hnear : ppb.natAbs ≤ 1000000) : execClockFrequencyWindow ck ppb s =
    .next { s with b := (s.b.fset clsClock 0 (offsetField ck) (codeOf 32 ppb)).settle s.tm } := by
  rw [execClockFrequencyWindow_eq hon hmon hne hsys, if_neg fun h => by omega, showOffset_of_held hlow hhigh]

theorem execClockFrequencyWindow_far (hfar : 1000000 < ppb.natAbs) (hruns : s.b.isLost ck = false) :
    execClockFrequencyWindow ck ppb s =
      .next { s with b := ((s.b.fset clsClock 0 (offsetField ck) (codeOf 32 ppb)).loseClock ck).settle s.tm } := by
  rw [execClockFrequencyWindow_eq hon hmon hne hsys, if_pos ⟨hfar, by simp [hruns]⟩, showOffset_of_held hlow hhigh]

end
end

/-! Store writes. -/

@[simp] theorem showStore_adm (b : Body) (area : Nat) : (b.showStore area).adm = b.adm := by
  unfold Body.showStore
  dsimp only
  split <;> rfl

@[simp] theorem factoryCalib_adm (b : Body) : b.factoryCalib.adm = b.adm :=
  List.foldlRecOn calibFields _ (motive := fun (x : Body) => x.adm = b.adm) rfl fun _ hx _ _ => hx

/-- The device once the header of a store write stands in its slot. -/
def Body.headedBy (b : Body) (j : StoreJob) : Body := if j.headed = true then b else b.programHeader j

/-- The older slot is erased, and an EMPTY set of area 1 or a checkpoint of area 4 has its effect. -/
def Body.storeWritten (b : Body) (area : Nat) (empty : Bool) : Body :=
  if area = 1 ∧ empty = true then (b.eraseOlder area).factoryCalib.fset clsPower 0 FPower.calibSource 0
  else if area = 4 then (b.eraseOlder area).bump clsPower 0 FPower.ckptDone 1
  else b.eraseOlder area

theorem headedBy_due (b : Body) (j : StoreJob) :
    (b.headedBy j).adm.holdDue = b.adm.holdDue ∧ (b.headedBy j).adm.ckptDue = b.adm.ckptDue := by
  unfold Body.headedBy
  split <;> simp [Body.programHeader]

theorem storeWritten_due (b : Body) (area : Nat) (empty : Bool) :
    (b.storeWritten area empty).adm.holdDue = b.adm.holdDue ∧ (b.storeWritten area empty).adm.ckptDue = b.adm.ckptDue := by
  unfold Body.storeWritten
  split
  · simp [Body.eraseOlder]
  · split <;> simp [Body.eraseOlder]

/-- The two effects in the order in which the row has them: no area has both. -/
theorem storeWritten_eq (b : Body) (area : Nat) (empty : Bool) :
    let b3 := if area = 1 ∧ empty = true then (b.eraseOlder area).factoryCalib.fset clsPower 0 FPower.calibSource 0
      else b.eraseOlder area
    b.storeWritten area empty = if area = 4 then b3.bump clsPower 0 FPower.ckptDone 1 else b3 := by
  unfold Body.storeWritten
  by_cases h : area = 1 ∧ empty = true
  · have hne : area ≠ 4 := by omega
    simp only [if_pos h, if_neg hne]
  · simp only [if_neg h]

section
variable {j : StoreJob} (hjob : s.b.adm.job = some j) (harea : j.area < 5) (hon : s.b.sys.base ≠ .cold)
include hjob harea hon

theorem execStoreWriteDone_header : execStoreWriteDone (16 + j.area) s = .next { s with b := s.b.headedBy j } := by
  have hin : ¬ (j.area ≠ (16 + j.area) % 16 ∨ 32 ≤ 16 + j.area ∨ s.b.sys.base = .cold) := by
    simp only [hon, or_false]
    omega
  simp only [execStoreWriteDone, onBody, hjob, hin, if_false, Nat.le_add_right, if_true]
  rfl

/-- With no checkpoint that waits for it a store write ends. -/
theorem execStoreWriteDone_ends (hhold : s.b.adm.holdDue = false) (hckpt : s.b.adm.ckptDue = false) :
    execStoreWriteDone j.area s = .next { s with b := (s.b.headedBy j).storeWritten j.area j.empty } := by
  have hin : ¬ (j.area ≠ j.area % 16 ∨ 32 ≤ j.area ∨ s.b.sys.base = .cold) := by
    simp only [hon, or_false]
    omega
  have hlow : ¬ 16 ≤ j.area := by omega
  obtain ⟨hhold1, hckpt1⟩ := storeWritten_due (s.b.headedBy j) j.area j.empty
  obtain ⟨hhold0, hckpt0⟩ := headedBy_due s.b j
  rw [hhold0, hhold] at hhold1
  rw [hckpt0, hckpt] at hckpt1
  rw [storeWritten_eq] at hhold1 hckpt1 ⊢
  simp only [execStoreWriteDone, onBody, hjob, hin, hlow, if_false]
  unfold Body.headedBy at *
  simp only [hhold1, hckpt1, Bool.false_eq_true, if_false]

end

/-! Checkpoints and the energy check. -/

theorem tryCheckpoint_starts {b : Body} (hidle : b.adm.job = none) (hopen : b.ckptHeld = false) :
    b.tryCheckpoint = { b with adm.ckptDue := false }.ckptReads.startStore 4 false b.ckptBody := by
  simp only [Body.tryCheckpoint, hidle, hopen, Option.isSome_none, Bool.or_self, Bool.false_eq_true, if_false]

/-- The period expires at `t`, and the checkpoint starts in `d`. -/
theorem execCounterCheckpoint_eq {t : Nat} {d : Dev} (hms : s.b.fget clsPower 0 FPower.ckptMs ≠ 0)
    (hcold : s.b.sys.base ≠ .cold) (hboot : s.b.sys.base ≠ .boot) (hawake : s.b.asleep = false)
    (hdue : s.b.adm.ckptDue = false)
    (ht : (s.b.adm.ckptAt + s.b.fget clsPower 0 FPower.ckptMs * 1000000 * 2 ^ 16) % 2 ^ 64 = t)
    (hd : (Dev.mk s.tm s.b).waitUntil t = d) (hidle : d.b.adm.job = none) (hopen : d.b.ckptHeld = false) :
    execCounterCheckpoint s = .next { s with
      tm := d.tm
      b := ({ d.b with adm.ckptAt := t, adm.ckptDue := false }.ckptReads.startStore 4 false d.b.ckptBody) } := by
  have hopen1 : ({ d.b with adm.ckptAt := t } : Body).ckptHeld = false := hopen
  have hstart := tryCheckpoint_starts (b := { d.b with adm.ckptAt := t }) hidle hopen1
  simp only [execCounterCheckpoint, onDev, hms, hcold, hboot, hawake, hdue, or_self, Bool.false_and, Bool.false_eq_true,
    if_false, ht, hd, hopen1, hstart]
  rfl

theorem energyCheck_eq (b : Body) (area n : Nat) :
    let cap := b.fget clsPower 0 FPower.bankCapUf
    let mv := b.fget clsPower 0 FPower.bankMv
    let lo := b.fget clsPower 0 FPower.bankMinMv
    let load := b.fget clsPower 0 FPower.holdLoadMw
    (b.energyCheck area n).1 = decide (load ≠ 0 ∧ cap ≠ 0 ∧ 3000 * (load * b.writeUs n) ≤
      cap * (if mv ≤ lo then 0 else mv * mv - lo * lo)) := by
  unfold Body.energyCheck
  dsimp only
  rw [apply_ite Prod.fst, Bool.if_true_left, Bool.or_false]

end Sys2Proof.Machine

namespace Sys2Proof
open Machine

/-- Settles O22. -/
theorem clockAndStore : Obligations.ClockAndStore := by
  unfold Obligations.ClockAndStore
  refine ⟨fun s hon => ⟨fun ck => execClockEdgeTimeout_eq hon, fun ck => execClockRestored_eq hon, rfl, rfl, fun g => rfl,
      fun ck ppb hmon hne hsys hlow hhigh => ⟨execClockFrequencyWindow_near hon hmon hne hsys hlow hhigh,
        execClockFrequencyWindow_far hon hmon hne hsys hlow hhigh⟩⟩,
    fun s j hjob harea hon hhold hckpt => ⟨execStoreWriteDone_header hjob harea hon,
      execStoreWriteDone_ends hjob harea hon hhold hckpt⟩,
    fun s hms hcold hboot hawake hdue => execCounterCheckpoint_eq hms hcold hboot hawake hdue rfl rfl, energyCheck_eq⟩

end Sys2Proof
end

section
/-! Drain, sleep, wake, Hold and the sensors (R446, R450, R454 to R456, R461, R465): what each command does where its event can
occur. -/

namespace Sys2Proof.Machine

section
variable {s : State}

/-! Drain and sleep (R446, R454, R455). -/

theorem execDrainSettle_eq (hdrain : s.b.sys.base = .drain) (hsettled : s.b.settled = true)
    (htarget : s.b.fget clsPower 0 FPower.modeTarget = 3) :
    execDrainSettle s = .next { s with b := s.b.enterMode .standby } := by
  simp [execDrainSettle, onBody, hdrain, hsettled, htarget]

section
variable {c : Caller} (hsleep : s.b.adm.sleep = some c) (hbase : s.b.sys.base = .standby)
include hsleep hbase

theorem execDormantEntry_sleeps (hopen : s.b.sys.hold = false) (hquiet : s.b.adm.fired = 0) :
    execDormantEntry s = .next { s with b := (s.b.enterMode .dormant).settle s.tm } := by
  simp [execDormantEntry, onBuf, onBody, hsleep, hbase, hopen, hquiet]

/-- A source that has fired, or Hold, is answered instead of sleeping. -/
theorem execDormantEntry_wakes (hwoken : s.b.adm.fired ≠ 0 ∨ s.b.sys.hold = true) :
    execDormantEntry s = .next { s with
      b := (({ s.b with adm.fired := 0, adm.sleep := none }.sendReply c stWokeBeforeSleep []).settle s.tm) } := by
  simp only [execDormantEntry, onBuf, onBody, hsleep, hbase, Option.isSome_some, and_self, if_true, hwoken, Body.replySleep]

end

theorem execWake_eq {k : Nat} (hbase : s.b.sys.base = .dormant) (hopen : s.b.sys.hold = false) (hk : k < 5)
    (hen : (s.b.fget clsPower 0 FPower.wakeEn).testBit k = true) (hfired : s.b.adm.fired.testBit k = true) :
    execWake k s = .next { s with
      b := ((({ s.b.fset clsPower 0 FPower.wakeCause s.b.adm.fired with adm.fired := 0 }.enterMode
        .standby).replySleep stOk).settle s.tm) } := by
  have hasleep : s.b.asleep = true := by simp [Body.asleep, hbase, hopen]
  simp only [execWake, onBuf, onBody, hasleep, hk, hen, hfired, and_self, if_true, Body.wake, Body.noteWake]

end

/-! Hold (R456, R465). -/

@[simp] theorem setLevel_sys (b : Body) (n : Nat) (v : Bool) : (b.setLevel n v).sys = b.sys := by
  unfold Body.setLevel
  dsimp only
  split <;> rfl

/-- The level of an interrupt source is no rail's. -/
theorem brownOut_setLevel (b : Body) {n : Nat} (v : Bool) (hn : n < 2 ^ 24) : (b.setLevel n v).brownOut = b.brownOut := by
  rw [Bool.eq_iff_iff, Body.brownOut, Body.brownOut, List.any_eq_true, List.any_eq_true]
  refine exists_congr fun i => and_congr_right fun hi => ?_
  have hi : i < 2 ^ 24 := (List.mem_range.1 hi).trans (by decide)
  rw [Body.fget_setLevel_ne b v hn hi (by decide) (by decide)]

/-- The state with which a device that is awake is in Hold. -/
def Body.inHold (b : Body) : Body := (b.overlay (fun x => { x with sys.hold := true })).bump clsPower 0 FPower.holds 1

section
variable {b : Body} (hcold : b.sys.base ≠ .cold) (hboot : b.sys.base ≠ .boot) (hopen : b.sys.hold = false)
include hcold hboot hopen

theorem enterHold_awake (hawake : b.asleep = false) : b.enterHold = b.inHold.holdCheckpoint := by
  simp [Body.enterHold, Body.inHold, hcold, hboot, hopen, hawake]

/-- From Dormant the device wakes first. -/
theorem enterHold_asleep (hasleep : b.asleep = true) :
    b.enterHold = (({ b.inHold.fset clsPower 0 FPower.wakeCause b.inHold.adm.fired with
      adm.fired := 0 }.replySleep stOk)).holdCheckpoint := by
  simp only [Body.enterHold, hcold, hboot, hopen, hasleep, Bool.false_eq_true, or_self, if_false, if_true, Body.noteWake,
    Body.inHold]

end

section
variable {s : State}

section
variable (hcold : s.b.sys.base ≠ .cold) (hboot : s.b.sys.base ≠ .boot)
include hcold hboot

theorem execPfail_eq {b : Body} (hlow : ({ s.b with sys.pfailLow := true } : Body).setLevel 0 true = b)
    (hopen : s.b.sys.hold = false) :
    (s.b.asleep = false → execPfail s = .next { s with b := b.inHold.holdCheckpoint }) ∧
    (s.b.asleep = true → execPfail s = .next { s with
      b := (({ b.inHold.fset clsPower 0 FPower.wakeCause b.inHold.adm.fired with
        adm.fired := 0 }.replySleep stOk)).holdCheckpoint }) := by
  have henters : execPfail s = .next { s with b := b.enterHold } := by
    simp only [execPfail, onBody, hcold, hboot, or_self, if_false, hlow]
  have hsys : b.sys = { s.b.sys with pfailLow := true } := by rw [← hlow, setLevel_sys]
  have hbase : b.sys.base = s.b.sys.base := by rw [hsys]
  have hhold : b.sys.hold = s.b.sys.hold := by rw [hsys]
  have hasleep : b.asleep = s.b.asleep := by rw [Body.asleep, Body.asleep, hbase, hhold]
  rw [henters]
  rw [← hbase] at hcold hboot
  rw [← hhold] at hopen
  rw [← hasleep]
  exact ⟨fun h => by rw [enterHold_awake hcold hboot hopen h], fun h => by rw [enterHold_asleep hcold hboot hopen h]⟩

/-- Instance 0x201 shows the level of PFAIL_N (assumption log 34). -/
theorem execSensorSample_pfail (raw : BitVec 16) : execSensorSample 0x201 raw s = .next { s with
    b := if raw = 0 then ({ s.b with sys.pfailLow := true } : Body).setLevel 0 true
      else ({ s.b with
        sys.pfailLow := false
        sys.clearSince := if s.b.sys.pfailLow then s.tm.now else s.b.sys.clearSince } : Body).setLevel 0 false } := by
  unfold execSensorSample onBody Body.pfailPin Body.pfailHigh
  by_cases hraw : raw = 0
  · simp [hcold, hboot, hraw]
  · have hhigh : raw.toNat ≠ 0 := fun h => hraw (BitVec.eq_of_toNat_eq h)
    simp only [hcold, hhigh, bne_iff_ne, ne_eq, not_false_eq_true, if_true, if_false, hraw]
    simp

end

/-- Hold lifts in `d`, once its condition has been clear for HOLD_RELEASE_MS. -/
theorem execHoldLift_eq {b0 : Body} {d : Dev} (hhold : s.b.sys.hold = true) (hrails : s.b.brownOut = false)
    (hhigh : s.b.pfailHigh s.tm = b0)
    (hd : (Dev.mk s.tm b0).waitUntil ((b0.sys.clearSince + b0.fget clsPower 0 FPower.holdReleaseMs * 1000000 * 2 ^ 16) %
      2 ^ 64) = d) :
    execHoldLift s = .next { s with
      tm := d.tm, b := ((d.b.overlay (fun x => { x with sys.hold := false })).wakeUp).settle d.tm } := by
  have hlifts : b0.sys.hold = true ∧ ¬ b0.brownOut = true := by
    rw [← hhigh, Body.pfailHigh, setLevel_sys, brownOut_setLevel _ _ (by decide)]
    exact ⟨hhold, Bool.eq_false_iff.1 hrails⟩
  simp only [execHoldLift, onDev, hhigh, if_pos hlifts, hd]

/-! Readings (R461). -/

section
variable {i : Nat} {raw : BitVec 16} (hon : s.b.sys.base ≠ .cold)
include hon

theorem execSensorSample_supply (hi : i < 12) :
    execSensorSample i raw s = .next { s with b := (s.b.readSupply s.tm i raw.toNat).rowSample i } := by
  simp only [execSensorSample, onBody, hon, hi, if_true, if_false]

theorem execSensorSample_temp (hlow : 0x20 ≤ i) (hhigh : i < 0x38) :
    execSensorSample i raw s = .next { s with b := (s.b.readTemp i raw.toNat).rowSample i } := by
  have hsensor : ¬ i < 12 := by omega
  simp only [execSensorSample, onBody, hon, hsensor, hlow, hhigh, and_self, if_true, if_false]

end
end

/-- A reading of a supply that its field holds. -/
theorem readSupply_held (b : Body) (tm : Time) {i raw : Nat} {v : Int}
    (hv : raw + signedOf 16 (b.fget clsSensor i FSupply.offsetMv) = v) (hlow : 0 ≤ v) (hhigh : v < 65536) :
    let mv := v.toNat
    let out := decide (mv < b.fget clsSensor i FSupply.lowMv ∨ b.fget clsSensor i FSupply.highMv < mv)
    let b1 := ((b.fset clsSensor i FSupply.mv mv).fset clsSensor i FSupply.minMv
      (min mv (b.fget clsSensor i FSupply.minMv))).fset clsSensor i FSupply.maxMv
        (max mv (b.fget clsSensor i FSupply.maxMv))
    let b2 := if out ∧ b.fget clsSensor i FSupply.out = 0 then b1.bump clsSensor i FSupply.excursions 1 else b1
    let b3 := b2.fset clsSensor i FSupply.out (if out then 1 else 0)
    let b4 := b3.setLevel 2 b3.anyOut
    b.readSupply tm i raw = if b4.brownOut then b4.enterHold
      else if b.brownOut then { b4 with sys.clearSince := tm.now } else b4 := by
  simp only [Body.readSupply, hv, hlow, hhigh, and_self, if_true]

/-- A reading of a temperature that its field holds. -/
theorem readTemp_held (b : Body) {i : Nat} {raw : BitVec 16} {t : Int}
    (ht : raw.toInt + signedOf 16 (b.fget clsSensor i FTemp.offset) = t) (hlow : -32768 ≤ t) (hhigh : t < 32768) :
    let crit := signedOf 16 (b.fget clsSensor i FTemp.crit)
    let was := b.fget clsSensor i FTemp.hot == 1
    let hot := decide (crit < t) || (was && decide (crit - 32 ≤ t))
    let b1 := (b.fset clsSensor i FTemp.temp (codeOf 16 t)).fset clsSensor i FTemp.maxF
      (codeOf 16 (max t (signedOf 16 (b.fget clsSensor i FTemp.maxF))))
    let b2 := if hot && !was then b1.bump clsSensor i FTemp.excursions 1 else b1
    let b3 := (b2.fset clsSensor i FTemp.hot (if hot then 1 else 0)).fset clsSensor i FTemp.warm
      (if signedOf 16 (b.fget clsSensor i FTemp.warn) < t then 1 else 0)
    b.readTemp i raw.toNat = b3.setLevel 1 b3.anyHot := by
  have hraw : signedOf 16 raw.toNat = raw.toInt := by
    rw [signedOf_eq_toInt 16 _ (by decide), BitVec.ofNat_toNat, BitVec.setWidth_eq]
  simp only [Body.readTemp, hraw, ht, hlow, hhigh, and_self, if_true]

/-! Row 1 of Survey (R450). -/

theorem rowSample_outside {b : Body} {i : Nat} (h : b.sys.base ≠ .survey) : b.rowSample i = b := if_pos (.inl h)

theorem rowSample_notes {b : Body} {i : Nat} (hsurvey : b.sys.base = .survey) (hnew : i ∉ b.adm.survey.sampled)
    (hmore : b.adm.survey.sampled.length ≠ 35) :
    b.rowSample i = { b with adm.survey.sampled := i :: b.adm.survey.sampled } := by
  simp [Body.rowSample, hsurvey, hnew, hmore]

end Sys2Proof.Machine

namespace Sys2Proof
open Machine

/-- Settles O21: drain, sleep and wake; Hold by whether the device sleeps; a sample by what it reads. -/
theorem powerModeCommands : Obligations.PowerModeCommands := by
  unfold Obligations.PowerModeCommands
  refine ⟨fun s => execDrainSettle_eq, fun s c hsleep hbase hopen =>
      ⟨execDormantEntry_sleeps hsleep hbase hopen, fun hfired => execDormantEntry_wakes hsleep hbase (.inl hfired)⟩,
    fun s c hsleep hbase hhold => execDormantEntry_wakes hsleep hbase (.inr hhold), fun s k => execWake_eq,
    fun s hcold hboot => execPfail_eq hcold hboot rfl, fun s hhold hrails => execHoldLift_eq hhold hrails rfl rfl,
    fun s raw hcold hboot => execSensorSample_pfail hcold hboot raw, fun s i raw hon hi => ?supply,
    fun s i raw hon hlow hhigh => ?temp, fun b i => ⟨rowSample_outside, rowSample_notes⟩⟩
  case supply =>
    exact fun hv0 hv1 => (execSensorSample_supply hon hi).trans
      (congrArg (fun b => Host.Outcome.next { s with b := b.rowSample i }) (readSupply_held s.b s.tm rfl hv0 hv1))
  case temp =>
    exact fun ht0 ht1 => (execSensorSample_temp hon hlow hhigh).trans
      (congrArg (fun b => Host.Outcome.next { s with b := b.rowSample i }) (readTemp_held s.b rfl ht0 ht1))

end Sys2Proof
end

section
/-! Writes of one field whose action is turned away (R416): the status is answered with INDEX 0, and nothing is written. -/

namespace Sys2Proof.Machine

theorem Dev.WritesAlone.fieldWrite_refused {d : Dev} {au : Auth} {cls inst : Nat} {f : Fld} {v : Nat} {l : List Fld}
    (h : d.WritesAlone au cls inst f v l) {st : Nat} {b : Body} (hanswered : d.b.adm.unanswered = false)
    (hthere : instExists d.b.nLogN cls inst = true) (hreach : d.b.reaches au cls inst true = true)
    (htick : isTick cls inst = false) (hlast : f.word ≤ lastWord cls inst)
    (hjudge : (d.wr au cls inst f v).judge = Verdict.fine) (hact : (d.wr au cls inst f v).act = (st, b)) (hst : st ≠ stOk) :
    d.fieldWrite au cls inst f v = (st, 0, d) := by
  have hwords : (f.lo + f.width - 1) / 32 + 1 - f.word = 1 := by
    have hin := h.inWordOf
    have hsingle := h.single
    simp only [Fld.inWordOf, decide_eq_true_eq] at hin
    omega
  have hcheck : (d.wr au cls inst f v).check = stOk := by rw [Wr.check, hjudge, h.inRange]; rfl
  have hwrite : (d.wr au cls inst f v).write = (st, { d with b := b }) := by
    simp [Wr.write, htick, hcheck, hact]
  have hwr : Wr.mk d au cls inst f.word (d.wordWith cls inst f.word f v) (wordsAt (f.word + 1) []) =
    d.wr au cls inst f v := rfl
  simp only [Dev.fieldWrite, hwords, List.range_one, List.map_cons, List.map_nil, Nat.add_zero, Dev.objWrite, hanswered,
    hthere, hreach, h.countReserved_eq, List.length_singleton, h.readOnly_eq, Dev.writeWords, Nat.not_lt.2 hlast,
    hwr, hwrite, htick]
  simp [hst]

/-- `s` after a write that an instance's rules turned away with the status `st` (R416). -/
def State.refused (s : State) (st : Nat) : State :=
  { s with b := ({ s.b with reply := ⟨st, 0, []⟩ } : Body).settle s.tm }

theorem fieldCommand_refused {s : State} {au : Auth} {cls inst : Nat} {f : Fld} {v : Nat} {l : List Fld} {st : Nat} {b : Body}
    (ha : Admits s au cls inst true) (h : (Dev.mk s.tm s.b).WritesAlone au cls inst f v l)
    (htick : isTick cls inst = false) (hlast : f.word ≤ lastWord cls inst)
    (hjudge : ((Dev.mk s.tm s.b).wr au cls inst f v).judge = Verdict.fine)
    (hact : ((Dev.mk s.tm s.b).wr au cls inst f v).act = (st, b)) (hst : st ≠ stOk) :
    fieldCommand au cls inst f v s = .next (s.refused st) := by
  have hrefused := h.fieldWrite_refused ha.answered ha.there ha.reach htick hlast hjudge hact hst
  simp only [fieldCommand, onDev, Dev.accessOf, accessIn_admitted ha, hrefused, Dev.answerWrite, State.refused]

end Sys2Proof.Machine
end

section
/-! Operations of a tent and what ends them (R379, R385 to R387, R389 to R392). -/

namespace Sys2Proof.Machine

/-! The word of TENT[t] that holds the operations. -/

/-- The WO bits of the operations. -/
def tentOps : List Fld :=
  [FTent.pitch, FTent.strike, FTent.freeze, FTent.unfreeze, FTent.save, FTent.restore, FTent.hostReset]

/-- The operation that a bit of TENT[t] asks for. -/
def Dev.tentAct (d : Dev) (t : Nat) (f : Fld) : Nat × Body :=
  if f = FTent.pitch then d.b.tentPitch t
  else if f = FTent.strike then d.b.tentStrike t
  else if f = FTent.freeze then d.b.tentFreeze t
  else if f = FTent.unfreeze then d.b.tentUnfreeze t
  else if f = FTent.save then d.b.tentSave d.tm t
  else if f = FTent.restore then d.b.tentRestore t
  else d.b.tentHostReset t

/-- The fields of word 0 of TENT[t]. -/
def tentWord : List Fld :=
  [FTent.state, FTent.pitch, FTent.strike, FTent.freeze, FTent.unfreeze, FTent.save, FTent.restore, FTent.hostReset,
    FTent.opBusy, FTent.saved, FTent.opStatus]

theorem fieldsOfWord_tent {t : Nat} (ht : t < 64) : fieldsOfWord clsTent t 0 = tentWord := by
  have hfields : fieldsOfInst clsTent t = FTent.all := if_pos ht
  rw [fieldsOfWord, hfields]
  rfl

section
variable {d : Dev} {au : Auth} {t : Nat} {f : Fld} (hf : f ∈ tentOps)
include hf

theorem word_of_tentOps : f.word = 0 ∧ f.acc = .wo ∧ f ∈ tentWord ∧ f.lo + f.width ≤ 32 * f.word + 32 ∧ f.width = 1 := by
  revert f
  decide

theorem beside_pasid : f.Beside tentWord [FTent.pasid, FTent.pasidEn] := by
  revert f
  decide

/-- A write of one operation's bit does that operation and no other. -/
theorem does_tentOps (h : d.WritesAlone au clsTent t f 1 tentWord) (hwo : d.b.accessOf au clsTent t f = .wo) {g : Fld}
    (hg : g ∈ tentOps) : (d.wr au clsTent t f 1).does g = decide (g = f) := by
  by_cases hgf : g = f
  · subst hgf
    rw [h.does_self hwo rfl, decide_eq_true rfl]
  · obtain ⟨-, hacc, hmem, -, -⟩ := word_of_tentOps hg
    rw [h.does_beside hgf (fun _ => hmem) (by rw [hacc]; decide), decide_eq_false hgf]

theorem act_tentOp (ht : t < 64) (h : d.WritesAlone au clsTent t f 1 tentWord)
    (hwo : d.b.accessOf au clsTent t f = .wo) : (d.wr au clsTent t f 1).act = d.tentAct t f := by
  have hacc : f.acc ≠ .rw := by
    rw [(word_of_tentOps hf).2.1]
    decide
  have hdoes (g : Fld) (hg : g ∈ tentOps) := does_tentOps hf h hwo hg
  rw [act_tent rfl]
  simp only [Wr.actTent, Dev.wr_inst, ht, if_true, h.setAll_eq hacc, Wr.tries, hdoes FTent.pitch (by decide),
    hdoes FTent.strike (by decide), hdoes FTent.freeze (by decide), hdoes FTent.unfreeze (by decide),
    hdoes FTent.save (by decide), hdoes FTent.restore (by decide), hdoes FTent.hostReset (by decide), Dev.wr_d]
  simp only [tentOps, List.mem_cons, List.not_mem_nil, or_false] at hf
  rcases hf with rfl | rfl | rfl | rfl | rfl | rfl | rfl <;>
    simp [Dev.tentAct, FTent.pitch, FTent.strike, FTent.freeze, FTent.unfreeze, FTent.save, FTent.restore, FTent.hostReset]

end

section
variable {s : State} {au : Auth} {t : Nat} {f : Fld} (ht : t < 64) (ha : Admits s au clsTent t true) (hf : f ∈ tentOps)
  (hwo : s.b.accessOf au clsTent t f = .wo)
include ht hf hwo

theorem writesAlone_tentOp : (Dev.mk s.tm s.b).WritesAlone au clsTent t f 1 tentWord := by
  obtain ⟨hword, -, hmem, hsingle, hwidth⟩ := word_of_tentOps hf
  exact writesAlone_of_noRw (hword ▸ fieldsOfWord_tent ht) ⟨hmem, hsingle, by decide⟩ (by rw [hwo]; rfl)
    (by rw [hwidth]; decide) (by decide)

theorem judge_tentOp : ((Dev.mk s.tm s.b).wr au clsTent t f 1).judge = Verdict.fine := by
  have h := writesAlone_tentOp (s := s) ht hf hwo
  have hpasid := h.hits_beside (beside_pasid hf)
  change Wr.judgeTent _ = _
  simp [Wr.judgeTent, ht, hpasid, Verdict.fine]

include ha

theorem tentCommand_done {b : Body} (hact : (Dev.mk s.tm s.b).tentAct t f = (stOk, b)) :
    tentCommand au t f s = .next (s.answered b) := by
  have h := writesAlone_tentOp (s := s) ht hf hwo
  rw [tentCommand, below, if_pos ht]
  exact fieldCommand_done ha h rfl ((word_of_tentOps hf).1 ▸ Nat.zero_le _) (judge_tentOp ht hf hwo)
    ((act_tentOp hf ht h hwo).trans hact)

theorem tentCommand_refused {st : Nat} {b : Body} (hact : (Dev.mk s.tm s.b).tentAct t f = (st, b)) (hst : st ≠ stOk) :
    tentCommand au t f s = .next (s.refused st) := by
  have h := writesAlone_tentOp (s := s) ht hf hwo
  rw [tentCommand, below, if_pos ht]
  exact fieldCommand_refused ha h rfl ((word_of_tentOps hf).1 ▸ Nat.zero_le _) (judge_tentOp ht hf hwo)
    ((act_tentOp hf ht h hwo).trans hact) hst

end

/-! What each operation does in a mode that allows it, with none in progress. -/

section
variable {b : Body} {t : Nat} (hmode : b.tentMode = true) (hidle : b.fget clsTent t FTent.opBusy = 0)
include hmode hidle

theorem tentCheck_ok {sts : List Nat} (hst : b.fget clsTent t FTent.state ∈ sts) : b.tentCheck t sts = stOk := by
  simp [Body.tentCheck, hmode, hidle, Body.tentState, hst]

omit hmode hidle in
theorem becomePitched_ok (hclash : ((b.fset clsTent t FTent.state 1).fset clsTent t FTent.saved 0).pasidClash = false) :
    b.becomePitched t = (stOk, (b.fset clsTent t FTent.state 1).fset clsTent t FTent.saved 0) := by
  simp only [Body.becomePitched, Body.setTent, hclash, Bool.false_eq_true, if_false]

theorem tentPitch_ok (hst : b.fget clsTent t FTent.state = 0)
    (hclash : ((b.fset clsTent t FTent.state 1).fset clsTent t FTent.saved 0).pasidClash = false) :
    b.tentPitch t = (stOk, ((b.fset clsTent t FTent.state 1).fset clsTent t FTent.saved 0).freshQueues t) := by
  have hcheck := tentCheck_ok hmode hidle (sts := [0]) (by simp [hst])
  simp [Body.tentPitch, hcheck, becomePitched_ok hclash, stOk, stNotInMode, stOutOfRange]

theorem tentUnfreeze_ok (hst : b.fget clsTent t FTent.state = 3)
    (hclash : ((b.fset clsTent t FTent.state 1).fset clsTent t FTent.saved 0).pasidClash = false) :
    b.tentUnfreeze t = (stOk, (b.fset clsTent t FTent.state 1).fset clsTent t FTent.saved 0) := by
  have hcheck := tentCheck_ok hmode hidle (sts := [3]) (by simp [hst])
  simp [Body.tentUnfreeze, hcheck, becomePitched_ok hclash, stOk, stNotInMode, stOutOfRange]

theorem tentFreeze_ok (hst : b.fget clsTent t FTent.state = 1) : b.tentFreeze t = (stOk, b.startFreeze t false) := by
  have hcheck := tentCheck_ok hmode hidle (sts := [1]) (by simp [hst])
  simp only [Body.tentFreeze, hcheck, if_true]

/-- A strike freezes the tent first, unless it is frozen and saved. -/
theorem tentStrike_freezes
    (hst : b.fget clsTent t FTent.state = 1 ∨ b.fget clsTent t FTent.state = 3 ∧ b.fget clsTent t FTent.saved = 0) :
    b.tentStrike t = (stOk, b.startFreeze t true) := by
  have hcheck := tentCheck_ok hmode hidle (sts := [1, 3]) (by simp only [List.mem_cons]; omega)
  have hunsaved : ¬ (b.fget clsTent t FTent.state = 3 ∧ b.fget clsTent t FTent.saved = 1) := by omega
  simp only [Body.tentStrike, hcheck, ne_eq, not_true_eq_false, if_false, Body.tentState, hunsaved]

theorem tentStrike_settles (hst : b.fget clsTent t FTent.state = 3) (hsaved : b.fget clsTent t FTent.saved = 1) :
    b.tentStrike t = (stOk, (b.handOff t).settleStrike t) := by
  have hcheck := tentCheck_ok hmode hidle (sts := [1, 3]) (by simp [hst])
  simp only [Body.tentStrike, hcheck, ne_eq, not_true_eq_false, if_false, Body.tentState, hst, hsaved, and_self, if_true]

/-- The state in which an image that fits is being written. -/
def Body.saveStarted (b : Body) (tm : Time) (t : Nat) : Body :=
  let b1 := (b.imageReads t).foldl (fun (x : Body) r => x.dramPost r.1 0 r.2.1 r.2.2 false) (b.fset clsTent t FTent.opBusy 1)
  { b1 with host.saving := mapPut t (b.tentImage tm t) b1.host.saving }

theorem tentSave_fits {tm : Time} (hst : b.fget clsTent t FTent.state = 3)
    (hfits : (b.tentImage tm t).length ≤ b.fget clsTent t FTent.imageLimit) :
    b.tentSave tm t = (stOk, b.saveStarted tm t) := by
  have hcheck := tentCheck_ok hmode hidle (sts := [3]) (by simp [hst])
  simp [Body.tentSave, hcheck, Nat.not_lt.2 hfits, stOk, stNotInMode, Body.saveStarted, Body.setTent]

theorem tentSave_tooLong {tm : Time} (hst : b.fget clsTent t FTent.state = 3)
    (hlong : ¬ (b.tentImage tm t).length ≤ b.fget clsTent t FTent.imageLimit) :
    b.tentSave tm t = (stOutOfRange, b) := by
  have hcheck := tentCheck_ok hmode hidle (sts := [3]) (by simp [hst])
  simp [Body.tentSave, hcheck, Nat.not_le.1 hlong, stOk, stNotInMode]

theorem tentRestore_ok (hst : b.fget clsTent t FTent.state = 0) :
    let b1 := (b.fset clsTent t FTent.opBusy 1).fset clsTent t FTent.saved 0
    b.tentRestore t = (stOk, { b1 with host.restoring := mapPut t (b.generation t) b1.host.restoring }) := by
  have hcheck := tentCheck_ok hmode hidle (sts := [0]) (by simp [hst])
  simp only [Body.tentRestore, hcheck, ne_eq, not_true_eq_false, if_false, Body.setTent]

theorem tentHostReset_ok (hst : b.fget clsTent t FTent.state = 1 ∨ b.fget clsTent t FTent.state = 2 ∨
    b.fget clsTent t FTent.state = 3) : b.tentHostReset t = (stOk, b.hostReset t) := by
  have hcheck := tentCheck_ok hmode hidle (sts := [1, 2, 3]) (by simp only [List.mem_cons]; omega)
  simp only [Body.tentHostReset, hcheck, if_true]

end

/-- HOST_RESET may be written by the tent's host too (R385, R396). -/
theorem accessOf_hostReset (b : Body) (au : Auth) (t : Nat) : b.accessOf au clsTent t FTent.hostReset = .wo := by
  cases au with
  | biv => rfl
  | host u => simp [Body.accessOf, clsTent, FTent.hostReset]

/-! What ends a freeze, a strike, a save or a restore. -/

section
variable {s : State} {t : Nat}

section
variable {f : Freezing} (hf : mapFind t s.b.host.freezes = some f) (hjudged : f.judged = true)
include hf hjudged

theorem execTentFrozen_eq (hfreeze : f.strike = false) (hclear : s.b.fget clsTent t FTent.blockers = 0) :
    execTentFrozen t s = .next { s with b := ((s.b.endFreeze t).setTent t FTent.state 3).opEnds t stOk } := by
  simp [execTentFrozen, onBody, Body.tentFrozenNow, hf, hjudged, hfreeze, hclear]

theorem execFreezeTimeout_eq (hblocked : s.b.fget clsTent t FTent.blockers ≠ 0)
    (hover : s.b.fget clsTent t FTent.freezeTicks ≤ f.ticks) : execFreezeTimeout t s = .next { s with
      b := (((s.b.endFreeze t).setTent t FTent.state 1).opEnds t stBusy).bump clsTent t FTent.freezeFails 1 } := by
  simp [execFreezeTimeout, onBody, Body.freezeFails, hf, hjudged, hblocked, hover]

theorem execStrikeSettle_eq (hstrike : f.strike = true) (hclear : s.b.fget clsTent t FTent.blockers = 0) :
    execStrikeSettle t s = .next { s with b := (s.b.settleStrike t).settle s.tm } := by
  simp [execStrikeSettle, onBuf, onBody, Body.strikeSettles, hf, hjudged, hstrike, hclear]

end

theorem execSaveDone_eq {l : List Byte} (hl : mapFind t s.b.host.saving = some l)
    (hopen : ∀ r, r ∈ s.b.imageReads t → s.b.dramHeld r.2.1 r.2.2 = false) :
    let b1 := { s.b with host.saving := mapDel t s.b.host.saving }.hostWrite t (s.b.fget clsTent t FTent.imageAddr) l
    execSaveDone t s = .next { s with
      b := ((b1.setTent t FTent.imageBytes l.length).setTent t FTent.saved 1).opEnds t stOk } := by
  have hnone : (s.b.imageReads t).any (fun r => s.b.dramHeld r.2.1 r.2.2) = false :=
    List.any_eq_false.2 fun r hr => by simp [hopen r hr]
  simp only [execSaveDone, onBody, Body.saveEnds, hl, hnone, Bool.false_eq_true, if_false]

section
variable {bytes : List Byte} {gen : Nat} (hgen : mapFind t s.b.host.restoring = some gen)
include hgen

theorem execRestoreDone_current (hsame : gen = s.b.generation t) : execRestoreDone t bytes s = .next { s with
    b := (match imageOf s.b.tents bytes with
      | some img => if s.b.imageCheck bytes = stOk then (s.b.restoreImage t img).getD s.b
        else s.b.restoreFails t (s.b.imageCheck bytes)
      | none => s.b.restoreFails t (s.b.imageCheck bytes)).settle s.tm } := by
  simp only [execRestoreDone, onBuf, onBody, Body.restoreEnds, hgen, hsame, ne_eq, not_true_eq_false,
    if_false] <;> rfl

/-- A read of an earlier GENERATION is discarded, and the image is read again (R386, assumption log 130). -/
theorem execRestoreDone_stale (hother : gen ≠ s.b.generation t) : execRestoreDone t bytes s = .next { s with
    b := ({ s.b.bump clsTent t FTent.genStale 1 with
      host.restoring := mapPut t (s.b.generation t) s.b.host.restoring }.settle s.tm) } := by
  simp only [execRestoreDone, onBuf, onBody, Body.restoreEnds, hgen, ne_eq, hother, not_false_eq_true, if_true, Body.stale]

end
end

end Sys2Proof.Machine

namespace Sys2Proof
open Machine

/-- Settles O18: each operation from the write of its bit, and each end from what is in progress. -/
theorem tentOperations : Obligations.TentOperations := by
  unfold Obligations.TentOperations
  refine ⟨fun s t ht ha hmode hidle => ?operations, fun s t => ?ends⟩
  case operations =>
    intro st up down img
    have hbiv {f : Fld} {b : Body} (hf : f ∈ tentOps) (hact : (Dev.mk s.tm s.b).tentAct t f = (stOk, b)) :
        tentCommand .biv t f s = .next (s.answered b) :=
      tentCommand_done ht ha hf (word_of_tentOps hf).2.1 hact
    refine ⟨fun h0 hclash => hbiv (by decide) (tentPitch_ok hmode hidle h0 hclash),
      fun h3 hclash => hbiv (by decide) (tentUnfreeze_ok hmode hidle h3 hclash),
      fun h1 => hbiv (by decide) (tentFreeze_ok hmode hidle h1),
      fun h1 => hbiv (by decide) (tentStrike_freezes hmode hidle (.inl h1)),
      fun h3 hsaved => hbiv (by decide) (tentStrike_settles hmode hidle h3 hsaved),
      fun h3 hunsaved => hbiv (by decide) (tentStrike_freezes hmode hidle (.inr ⟨h3, hunsaved⟩)), fun h3 => ?save,
      fun h0 => hbiv (by decide) (tentRestore_ok hmode hidle h0),
      fun au hau hst => tentCommand_done ht hau (by decide) (accessOf_hostReset s.b au t)
        (tentHostReset_ok hmode hidle hst)⟩
    by_cases hfits : img.length ≤ s.b.fget clsTent t FTent.imageLimit
    · exact (hbiv (f := FTent.save) (by decide) (tentSave_fits hmode hidle h3 hfits)).trans
        (congrArg Host.Outcome.next (if_pos hfits).symm)
    · have hlong := tentSave_tooLong hmode hidle h3 hfits
      exact (tentCommand_refused (f := FTent.save) ht ha (by decide) rfl hlong (by decide)).trans
        (congrArg Host.Outcome.next (if_neg hfits).symm)
  case ends =>
    exact ⟨fun f hf hjudged =>
        ⟨execTentFrozen_eq hf hjudged, execFreezeTimeout_eq hf hjudged, execStrikeSettle_eq hf hjudged⟩,
      fun l hl hopen => execSaveDone_eq hl hopen,
      fun bytes gen hgen => ⟨execRestoreDone_current hgen, execRestoreDone_stale hgen⟩⟩

end Sys2Proof
end

section
/-! Doorbell rings, completions by a host and the router (R363 to R371, R380): what each does where its access is admitted. -/

namespace Sys2Proof.Machine

/-! Writes of RING and COMPLETE (R363, R368). -/

/-- The fields of word 0 of a source. -/
def irqWord : List Fld :=
  [FIrq.enable, FIrq.sense, FIrq.pending, FIrq.inService, FIrq.level, FIrq.ring, FIrq.complete, FIrq.targetKind,
    FIrq.targetTent]

theorem fieldsOfInst_irq {n : Nat} (hn : n < 4096) : fieldsOfInst clsIrq n = FIrq.all := if_pos hn

theorem fieldsOfWord_irq {n : Nat} (hn : n < 4096) : fieldsOfWord clsIrq n 0 = irqWord := by
  rw [fieldsOfWord, fieldsOfInst_irq hn]
  rfl

@[simp] theorem Dev.wr_au (d : Dev) (au : Auth) (cls inst : Nat) (f : Fld) (v : Nat) : (d.wr au cls inst f v).au = au := rfl

section
variable {s : State} {au : Auth} {n : Nat} {f : Fld} (hn : n < 4096) (hf : f = FIrq.ring ∨ f = FIrq.complete)
  (hwo : s.b.accessOf au clsIrq n f = .wo) (hfits : s.Fits clsIrq n 0)
include hn hf hwo hfits

theorem writesAlone_irq : (Dev.mk s.tm s.b).WritesAlone au clsIrq n f 1 irqWord := by
  have hwritable : (s.b.accessOf au clsIrq n f).writable = true := by rw [hwo]; rfl
  rcases hf with rfl | rfl
  · exact writesAlone_of_fits (fieldsOfWord_irq hn) (by decide) hwritable (by decide) (by decide) hfits
  · exact writesAlone_of_fits (fieldsOfWord_irq hn) (by decide) hwritable (by decide) (by decide) hfits

theorem judge_irq : ((Dev.mk s.tm s.b).wr au clsIrq n f 1).judge = Verdict.fine := by
  have h := writesAlone_irq hn hf hwo hfits
  have htarget : ((Dev.mk s.tm s.b).wr au clsIrq n f 1).hits [FIrq.targetKind, FIrq.targetTent, FIrq.target] = false := by
    rcases hf with rfl | rfl
    · exact h.hits_beside (by decide)
    · exact h.hits_beside (by decide)
  change Wr.judgeIrq _ = _
  simp [Wr.judgeIrq, htarget, Verdict.fine]

theorem fieldCommand_irq {b : Body} (ha : Admits s au clsIrq n true)
    (hact : ((Dev.mk s.tm s.b).wr au clsIrq n f 1).actIrq = b) :
    fieldCommand au clsIrq (below 4096 n) f 1 s = .next (s.answered b) := by
  have h := writesAlone_irq hn hf hwo hfits
  have hlast : f.word ≤ lastWord clsIrq n := by rcases hf with rfl | rfl <;> exact Nat.zero_le _
  rw [below, if_pos hn]
  exact fieldCommand_done ha h rfl hlast (judge_irq hn hf hwo hfits) (congrArg (Prod.mk stOk) hact)

end

section
variable {s : State} {au : Auth} {n : Nat} (hn : n < 4096) (ha : Admits s au clsIrq n true) (hfits : s.Fits clsIrq n 0)
include hn ha hfits

theorem execDoorbellRing_eq (hwo : s.b.accessOf au clsIrq n FIrq.ring = .wo) :
    execDoorbellRing au n s = .next (s.answered (s.b.ringWrite n)) := by
  have h := writesAlone_irq hn (.inl rfl) hwo hfits
  have hcomplete := h.does_beside (g := FIrq.complete) (by decide) (by decide) (by decide)
  refine fieldCommand_irq hn (.inl rfl) hwo hfits ha ?_
  simp [Wr.actIrq, hn, Wr.acts, when, hcomplete, h.does_self hwo rfl, h.setAll_eq (by decide)]

omit hn ha hfits in
/-- Every authority may write COMPLETE of an instance that it reaches (R371). -/
theorem accessOf_complete (b : Body) (au : Auth) (n : Nat) : b.accessOf au clsIrq n FIrq.complete = .wo := by
  cases au with
  | biv => rfl
  | host t => simp [Body.accessOf, clsIrq, FIrq.complete]

theorem execHostComplete_eq : execHostComplete au n s = .next (s.answered (s.b.hostComplete au n)) := by
  have hwo := accessOf_complete s.b au n
  have h := writesAlone_irq hn (.inr rfl) hwo hfits
  have hring := h.does_beside (g := FIrq.ring) (by decide) (by decide) (by decide)
  refine fieldCommand_irq hn (.inr rfl) hwo hfits ha ?_
  simp [Wr.actIrq, hn, Wr.acts, when, hring, h.does_self hwo rfl, h.setAll_eq (by decide)]

end

section
variable {b : Body} {au : Auth} {n : Nat}

/-- The caller is the Bivouac or the host of the source's tent (assumption log 83). -/
def Body.completesFor (b : Body) (au : Auth) (n : Nat) : Prop := ∀ t, au = .host t → b.fget clsIrq n FIrq.targetTent = t

theorem hostComplete_own (hkind : b.fget clsIrq n FIrq.targetKind = 2) (hserved : b.fget clsIrq n FIrq.inService = 1)
    (hmine : b.completesFor au n) : b.hostComplete au n = b.irqComplete n := by
  cases au with
  | biv => simp [Body.hostComplete, hkind, hserved]
  | host t => simp [Body.hostComplete, hkind, hserved, hmine t rfl]

theorem hostComplete_bad (h : b.fget clsIrq n FIrq.targetKind ≠ 2 ∨ b.fget clsIrq n FIrq.inService ≠ 1 ∨
    ¬ b.completesFor au n) : b.hostComplete au n = b.bump clsIrq n FIrq.badComplete 1 := by
  refine if_neg fun ⟨hkind, hserved, hmine⟩ => ?_
  rcases h with h | h | h
  · exact h hkind
  · exact h hserved
  · cases au with
    | biv => exact h fun t ht => by cases ht
    | host t => exact h fun u hu => Auth.host.inj hu ▸ of_decide_eq_true hmine

end

/-! The router (R364, R366, R369). -/

theorem execRouterDeliver_eq {s : State} {d e : Dev} (hd : (Dev.mk s.tm s.b).pastRings = d)
    (he : (Dev.mk d.tm d.b.routerCycle).wait 1 = e) :
    execRouterDeliver s = .next { s with tm := e.tm, b := e.b } := by
  simp only [execRouterDeliver, onDev, hd, he]

theorem irqFrom_ring (b : Body) (n : Nat) : (b.ring n).sync.irqFrom = b.clock + 1 := by
  unfold Body.ring
  dsimp only
  split <;> rfl

theorem irqFrom_setLevel {b : Body} {n : Nat} (hidle : b.irqIdle n = true) :
    (b.setLevel n true).sync.irqFrom = b.clock + 1 := by
  rw [Body.setLevel, hidle]
  rfl

section
variable (b : Body) (n : Nat)

theorem irqDeliverable_iff : b.irqDeliverable n = true ↔ b.fget clsIrq n FIrq.pending = 1 ∧
    b.fget clsIrq n FIrq.enable = 1 ∧ (b.fget clsIrq n FIrq.targetKind = 0 →
      b.fget clsIrq (0x10000 + b.fget clsIrq n FIrq.target) FIrqDev.holds ≠ 1 ∧
      b.fget clsIrq (0x10000 + b.fget clsIrq n FIrq.target) FIrqDev.request ≠ 1) := by
  by_cases hkind : b.fget clsIrq n FIrq.targetKind = 0
  · simp [Body.irqDeliverable, Body.irqWaits, Body.coreHolds, Body.coreRequest, irqCore, hkind, and_assoc]
  · simp [Body.irqDeliverable, Body.irqWaits, hkind]

theorem sendVector_eq (v : Nat) : b.sendVector v =
    let e := mapGet 0 v b.host.msix
    if v ∈ b.host.unmasked ∧ b.host.functionMask = false then
      (if b.hostOut then { b with outputs := b.outputs ++ [.msix v (bitsAt e 0 64) (bitsAt e 64 32)] }
        else { b with host.held := b.host.held ++ [.msix v (bitsAt e 0 64) (bitsAt e 64 32)] })
    else if v ∈ b.host.pba then b else { b with host.pba := b.host.pba ++ [v] } := by
  have hopen : (!b.vectorMasked v) = true ↔ v ∈ b.host.unmasked ∧ b.host.functionMask = false := by
    simp [Body.vectorMasked, and_comm]
  simp only [Body.sendVector, hopen, List.contains_iff_mem, Body.sendMessageOf, Body.emit]

variable {b n}

theorem irqDeliver_core (hkind : b.fget clsIrq n FIrq.targetKind = 0) :
    b.irqDeliver n = b.fset clsIrq (0x10000 + b.fget clsIrq n FIrq.target) FIrqDev.request 1 := by
  simp only [Body.irqDeliver, hkind, irqCore]

theorem irqDeliver_queue (hkind : b.fget clsIrq n FIrq.targetKind = 1) :
    b.irqDeliver n = (b.irqServe n).setFlags (b.irqQueue n) 0x40 := by
  simp only [Body.irqDeliver, hkind]

theorem irqDeliver_vector (hkind : 2 ≤ b.fget clsIrq n FIrq.targetKind) :
    b.irqDeliver n = (b.irqServe n).sendVector (b.irqVector n) := by
  unfold Body.irqDeliver
  split
  · next h => omega
  · next h => omega
  · rfl

end

end Sys2Proof.Machine

namespace Sys2Proof
open Machine

/-- Settles O11: rings and completions from the write of their bit, and the router by the kind of the target. -/
theorem interruptAccesses : Obligations.InterruptAccesses := by
  unfold Obligations.InterruptAccesses
  refine ⟨fun s au n hn ha hfits => ⟨execDoorbellRing_eq hn ha hfits, ?complete⟩, fun s => execRouterDeliver_eq rfl rfl,
    fun b n => ⟨irqFrom_ring b n, irqFrom_setLevel⟩, fun b n => ⟨irqDeliverable_iff b n, irqDeliver_core, irqDeliver_queue,
      fun hkind => (irqDeliver_vector hkind).trans (sendVector_eq _ _)⟩⟩
  case complete =>
    have hanswer {b : Body} (h : s.b.hostComplete au n = b) : execHostComplete au n s = .next (s.answered b) :=
      h ▸ execHostComplete_eq hn ha hfits
    exact ⟨fun hkind hserved hmine => hanswer (hostComplete_own hkind hserved hmine),
      fun hbad => hanswer (hostComplete_bad hbad)⟩

end Sys2Proof
end

section
/-! Doorbells, TX and RX rings and vectors (R380, R382 to R386): what each command does where its event can occur. -/

namespace Sys2Proof.Machine

/-! Doorbells (R382). -/

section
variable {s : State} {t rel : Nat} (hin : s.b.hostIn = true) (hreached : s.b.tentReached t = true)
  (hrel : rel < 4096 / s.b.tents)
include hin hreached hrel

theorem execHostDoorbell_ok {v : BitVec 64} (hok : s.b.doorbellCheck t (s.b.ringAbs t rel) true v.toNat = stOk) :
    let r := s.b.ringAbs t rel
    let b1 := s.b.fset clsTent (ringObj r) FHostRing.tail (v.toNat % 2 ^ 32)
    execHostDoorbell t rel true v s = .next { s with
      b := if b1.rg r FHostRing.creditEn = 1 ∧ 2 ≤ b1.rg r FHostRing.kind ∧ s.b.ringLeft r < b1.ringLeft r then
          b1.setFlags (queueBase s.b.nLogN t + b1.rg r FHostRing.creditQueue % (1048576 / s.b.tents)) 8
        else b1 } := by
  simp only [execHostDoorbell, onBody, hin, Body.doorbell, hreached, hrel, hok, decide_true, Bool.and_self, if_true]
  rfl

theorem execHostDoorbell_refused {v : BitVec 64} {whole : Bool}
    (hbad : s.b.doorbellCheck t (s.b.ringAbs t rel) whole v.toNat ≠ stOk) :
    let r := s.b.ringAbs t rel
    execHostDoorbell t rel whole v s = .next { s with
      b := (s.b.fset clsTent (ringObj r) FHostRing.doorbellStatus (s.b.doorbellCheck t r whole v.toNat)).bump clsTent
        (ringObj r) FHostRing.doorbellErrors 1 } := by
  simp only [execHostDoorbell, onBody, hin, Body.doorbell, hreached, hrel, hbad, decide_true, Bool.and_self, if_true,
    if_false]

end

/-! TX rings (R383, R386). -/

/-- The entry in turn of ring `r` as its service begins. -/
def Body.txEntry (b : Body) (r entry : Nat) : TxEnt :=
  ⟨r, b.txNextOf r, b.generation (b.ringTent r), entry, 0, .known 0x30⟩

theorem execTxRingServe_eq {s : State} {e : BitVec 128} {b : Body} (hin : s.b.hostIn = true)
    (hb : s.b.txServe e.toNat = b) : execTxRingServe e s = .next { s with b := b.settle s.tm } := by
  simp only [execTxRingServe, onBuf, onBody, hin, if_true, hb]

section
variable {b : Body} {entry r : Nat}
  (hroom : (b.inputQueue 65).length + (b.host.tx.filter (fun x => decide (x.stage = .reading))).length < 256)
  (hturn : b.txTurnRing = some r)
include hroom hturn

/-- The service of the ring in turn, by what step 1 says of its entry. -/
theorem txServe_turn : b.txServe entry =
    let b0 := { b with host.txTurn := r + 1 }
    match b.txEntryReason r entry with
    | some k => b0.txTake r { b.txEntry r entry with stage := .known k }
    | none =>
      if b.chargeFits (.host (b.ringTent r)) (poolSize (b.rg r FHostRing.pool)) then
        match b0.takeBuf (b.rg r FHostRing.pool) (.host (b.ringTent r)) (.host (b.ringTent r)) [] with
        | some (h, b1) => b1.txTake r { b.txEntry r entry with buffer := h, stage := .reading }
        | none => b0
      else (b0.bump clsPool (0x200 + b.ringTent r) FPoolTent.hostRefused 1).txTake r (b.txEntry r entry) := by
  simp only [Body.txServe, not_le.mpr hroom, if_false, hturn]
  rfl

theorem txServe_bad {k : Nat} (hbad : b.txEntryReason r entry = some k) : b.txServe entry =
    ({ b with host.txTurn := r + 1 }).txTake r { b.txEntry r entry with stage := .known k } := by
  simp only [txServe_turn hroom hturn, hbad]

theorem txServe_overShare (hgood : b.txEntryReason r entry = none)
    (hfull : b.chargeFits (.host (b.ringTent r)) (poolSize (b.rg r FHostRing.pool)) = false) : b.txServe entry =
    (({ b with host.txTurn := r + 1 }).bump clsPool (0x200 + b.ringTent r) FPoolTent.hostRefused 1).txTake r
      (b.txEntry r entry) := by
  simp only [txServe_turn hroom hturn, hgood, hfull, Bool.false_eq_true, if_false]

theorem txServe_taken {h : Nat} {b1 : Body} (hgood : b.txEntryReason r entry = none)
    (hfits : b.chargeFits (.host (b.ringTent r)) (poolSize (b.rg r FHostRing.pool)) = true)
    (htake : ({ b with host.txTurn := r + 1 }).takeBuf (b.rg r FHostRing.pool) (.host (b.ringTent r))
      (.host (b.ringTent r)) [] = some (h, b1)) :
    b.txServe entry = b1.txTake r { b.txEntry r entry with buffer := h, stage := .reading } := by
  simp only [txServe_turn hroom hturn, hgood, hfits, htake, if_true]

end

section
variable {s : State} {ring : Nat} {x : TxEnt}

section
variable (hx : s.b.host.tx.find? (fun x => x.ring == ring && decide (x.stage = .reading)) = some x)
include hx

theorem execTxDmaComplete_stale (d : Option (List Byte)) (hgen : x.gen ≠ s.b.generation (s.b.ringTent ring)) :
    execTxDmaComplete ring d s =
      .next { s with b := (((s.b.releaseBuf x.buffer).txDrop x).stale (s.b.ringTent ring)).settle s.tm } := by
  simp only [execTxDmaComplete, onBuf, onBody, hx, hgen, ne_eq, not_false_eq_true, if_true]

variable (hgen : x.gen = s.b.generation (s.b.ringTent ring))
include hgen

theorem execTxDmaComplete_failed : execTxDmaComplete ring none s =
    .next { s with b := ((s.b.releaseBuf x.buffer).txStage x (.known 0x31)).settle s.tm } := by
  simp only [execTxDmaComplete, onBuf, onBody, hx, hgen, ne_eq, not_true_eq_false, if_false]

theorem execTxDmaComplete_read (l : List Byte) :
    let t := s.b.ringTent ring
    let n := entryLength x.entry
    let b1 := s.b.putBuf x.buffer (frameBytes l n 0 n)
    execTxDmaComplete ring (some l) s = .next { s with
      b := ((((b1.handoff x.buffer (.host t) .rx).2).toIntake ⟨x.buffer, n + 4, 65, 0, some ring, t, none⟩).txStage x
        .inside).settle s.tm } := by
  simp only [execTxDmaComplete, onBuf, onBody, hx, hgen, ne_eq, not_true_eq_false, if_false]

end

theorem matchOutcomes_of_none {b : Body} (hnone : b.work.outcomes.find? (fun o => o.1 == ring) = none) :
    b.matchOutcomes ring = b := by
  simp only [Body.matchOutcomes, hnone]

theorem execTxOutcomeWriteback_known {k : Nat} (hout : s.b.hostOut = true)
    (hnone : s.b.work.outcomes.find? (fun o => o.1 == ring) = none)
    (hx : s.b.host.tx.find? (fun x => x.ring == ring) = some x) (hstage : x.stage = .known k)
    (hgen : x.gen = s.b.generation (s.b.ringTent ring)) :
    let t := s.b.ringTent ring
    let b1 := ((s.b.txDrop x).hostWrite t (s.b.ringEntry ring x.index + 12) (leBytes 2 (reasonStatus k) ++ leBytes 1 k))
    let b2 := (b1.bumpWrap clsTent (ringObj ring) FHostRing.head 1).bump clsTent (ringObj ring) FHostRing.entries 1
    execTxOutcomeWriteback ring s =
      .next { s with b := if k = 0 then b2 else b2.bump clsTent t FTent.txNotAccepted 1 } := by
  simp only [execTxOutcomeWriteback, onBody, hout, matchOutcomes_of_none hnone, Body.txWriteback, hx, hstage, hgen, ne_eq,
    not_true_eq_false, if_true, if_false]
  rfl

end

/-! RX rings (R384). -/

section
variable {s : State} {t c r : Nat} {e : BitVec 128} {f : EgFrame} (hout : s.b.hostOut = true)
  (hf : s.b.rxHead t c = some f) (hr : s.b.rxRing t c = some r)
  (hready : ¬ (s.b.ringLeft r = 0 ∨ s.b.unjudged f = true ∨ s.b.bufHeld f.buffer = true))
include hout hf hr hready

theorem execRxRingDeliver_tooLong (hlong : entryLength e.toNat < (s.b.handBytes f).length) :
    execRxRingDeliver t c e s = .next { s with
      b := ((s.b.writeOutcome t r (s.b.rg r FHostRing.head) 0x32).ringDone r).settle s.tm } := by
  simp only [execRxRingDeliver, onBuf, onBody, hout, Body.rxDeliver, hf, hr, hready, hlong, if_true, if_false]

theorem execRxRingDeliver_fits (hfits : (s.b.handBytes f).length ≤ entryLength e.toNat) :
    let i := s.b.rg r FHostRing.head
    let n := (s.b.handBytes f).length
    let en := e.toNat
    let b1 := (s.b.bufRead f.buffer 0 f.length).hostWrite t (bitsAt en 0 64) (s.b.handBytes f)
    let b2 := b1.hostWrite t (b1.ringEntry r i + 8)
      (leBytes 2 (n + bitsAt en 78 2 * 2 ^ 14) ++ leBytes 2 (bitsAt en 80 16) ++ leBytes 2 stOk ++ leBytes 1 0)
    let b3 := (b2.ringDone r).setEgQueue 65 c ((b2.egQueue 65 c).filter (fun g => decide (g.num ≠ f.num)))
    execRxRingDeliver t c e s = .next { s with b := ((b3.freeBuf f.buffer .egress).2).settle s.tm } := by
  simp only [execRxRingDeliver, onBuf, onBody, hout, Body.rxDeliver, hf, hr, hready, not_lt.mpr hfits, if_true, if_false]

end

/-! Vectors (R380). -/

section
variable {s : State} {v : Nat} (hv : v < 2048) (hmasked : v ∉ s.b.host.unmasked)
include hv hmasked

/-- A masked vector that is unmasked goes out where it is pending and the function is not masked. -/
theorem execVectorUnmask_eq :
    let b1 := { s.b with host.unmasked := v :: s.b.host.unmasked }
    execVectorUnmask v s = .next { s with
      b := if v ∈ s.b.host.pba ∧ s.b.host.functionMask = false then
          { b1 with host.pba := s.b.host.pba.filter (fun x => decide (x ≠ v)) }.sendMessageOf v
        else b1 } := by
  simp [execVectorUnmask, onBody, hv, Body.unmaskVector, hmasked, Body.vectorMasked]

end

/-- A message goes out, or waits while PCIE_OUT cannot send. -/
theorem sendMessageOf_eq (b : Body) (v : Nat) :
    let e := mapGet 0 v b.host.msix
    b.sendMessageOf v = { b with
      outputs := if b.hostOut then b.outputs ++ [.msix v (bitsAt e 0 64) (bitsAt e 64 32)] else b.outputs
      host.held := if b.hostOut then b.host.held else b.host.held ++ [.msix v (bitsAt e 0 64) (bitsAt e 64 32)] } := by
  by_cases hout : b.hostOut = true
  · simp only [Body.sendMessageOf, hout, if_true, Body.emit]
  · simp only [Body.sendMessageOf, hout, if_false, Bool.false_eq_true]

end Sys2Proof.Machine

namespace Sys2Proof
open Machine

/-- Settles O16: each command by its own lemma; a vector by whether it is pending and the function mask is clear. -/
theorem hostRingCommands : Obligations.HostRingCommands := by
  unfold Obligations.HostRingCommands
  refine ⟨fun s t rel v hin hreached hrel => ⟨execHostDoorbell_ok hin hreached hrel,
      fun whole => execHostDoorbell_refused hin hreached hrel⟩, ?serve, ?complete, fun s ring x k => execTxOutcomeWriteback_known,
    ?deliver, ?unmask⟩
  case serve =>
    exact fun s e r hin hroom hturn => ⟨fun k hbad => execTxRingServe_eq hin (txServe_bad hroom hturn hbad),
      fun hgood hfull => execTxRingServe_eq hin (txServe_overShare hroom hturn hgood hfull),
      fun h b1 hgood hfits htake => execTxRingServe_eq hin (txServe_taken hroom hturn hgood hfits htake)⟩
  case complete =>
    exact fun s ring x hx => ⟨execTxDmaComplete_stale hx, fun hgen => ⟨execTxDmaComplete_failed hx hgen,
      execTxDmaComplete_read hx hgen⟩⟩
  case deliver =>
    intro s t c e f r hout hf hr hleft hjudged hheld
    have hready : ¬ (s.b.ringLeft r = 0 ∨ s.b.unjudged f = true ∨ s.b.bufHeld f.buffer = true) := by
      simp [hleft, hjudged, hheld]
    exact ⟨execRxRingDeliver_tooLong hout hf hr hready, execRxRingDeliver_fits hout hf hr hready⟩
  case unmask =>
    intro s v hv hmasked
    refine ⟨fun hstays => (execVectorUnmask_eq hv hmasked).trans ?_, fun hpending hopen =>
      (execVectorUnmask_eq hv hmasked).trans ?_⟩
    · have hquiet : ¬ (v ∈ s.b.host.pba ∧ s.b.host.functionMask = false) := by
        rcases hstays with h | h <;> simp [h]
      rw [if_neg hquiet]
    · rw [if_pos ⟨hpending, hopen⟩, sendMessageOf_eq]
      rfl

end Sys2Proof
end

section
/-! Window pages, BAR4 and apertures of a host (R376 to R378, R380). -/

namespace Sys2Proof.Machine

/-! A tent's window page (R376, R377). -/

section
variable {s : State} {t off : Nat} (hin : s.b.hostIn = true) (ht : t < 64) (hoff : off < 0x100000)
include hin ht hoff

/-- The page of a tent out of reach reads all ones and ignores writes. -/
theorem execWindowAccess_unreached (hfar : s.b.tentReached t = false) (w : Option Word) :
    execWindowAccess t off w s = .next { s with
      tm := ((Dev.mk s.tm s.b).allOnes w.isSome 1).tm, b := ((Dev.mk s.tm s.b).allOnes w.isSome 1).b } := by
  simp only [execWindowAccess, onDev, hin, hfar, ht.ne, not_lt.mpr ht.le, not_le.mpr hoff, not_true_eq_false, or_self,
    if_false, Bool.false_eq_true, not_false_eq_true, if_true]

section
variable (hnear : s.b.tentReached t = true)
include hnear

theorem execWindowAccess_read {d : Dev} (hd : (Dev.mk s.tm s.b).pageRead t off = d) :
    execWindowAccess t off none s = .next { s with tm := d.tm, b := d.b.settle d.tm } := by
  simp only [execWindowAccess, onDev, hin, hnear, ht.ne, not_lt.mpr ht.le, not_le.mpr hoff, not_true_eq_false, or_self,
    if_false, hd]

theorem execWindowAccess_write {w : Word} {d : Dev} (hd : (Dev.mk s.tm s.b).pageWrite t off w.toNat = d) :
    execWindowAccess t off (some w) s = .next { s with tm := d.tm, b := d.b.settle d.tm } := by
  simp only [execWindowAccess, onDev, hin, hnear, ht.ne, not_lt.mpr ht.le, not_le.mpr hoff, not_true_eq_false, or_self,
    if_false, hd]

end

end

/-! The words of a page, by offset. -/

section
variable {d : Dev} {t off : Nat}

theorem pageWrite_addr (v : Nat) (hoff : off / 4 = 0) :
    d.pageWrite t off v = { d with b.host.winAddr := mapPut t v d.b.host.winAddr } := if_pos hoff

theorem pageWrite_off (v : Nat) (hoff : off / 4 = 1) :
    d.pageWrite t off v = { d with b.host.winOff := mapPut t (v % 2 ^ 16) d.b.host.winOff } := by
  simp [Dev.pageWrite, hoff]

theorem pageWrite_data (v : Nat) (hoff : off / 4 = 2) (hawake : d.b.asleep = false) :
    d.pageWrite t off v = d.windowWrite t v := by
  simp [Dev.pageWrite, hoff, hawake]

theorem pageWrite_doorbell (v : Nat) (hlo : 0x10000 ≤ off) (hhi : off < 0x18000) :
    d.pageWrite t off v = { d with b := d.b.doorbell t ((off - 0x10000) / 8) false v } := by
  have hpast : off / 4 ≠ 0 ∧ off / 4 ≠ 1 ∧ off / 4 ≠ 2 := by omega
  simp only [Dev.pageWrite, hpast, hlo, hhi, and_self, if_true, if_false]

theorem pageRead_addr (hoff : off / 4 = 0) : d.pageRead t off =
    { d with b := { d.b with reply := ⟨stOk, 0, [BitVec.ofNat 32 (mapGet 0 t d.b.host.winAddr)]⟩ } } := if_pos hoff

theorem pageRead_status (hoff : off / 4 = 3) : d.pageRead t off =
    { d with b := { d.b with reply := ⟨stOk, 0, [BitVec.ofNat 32 (mapGet 0 t d.b.host.winStatus)]⟩ } } := by
  simp [Dev.pageRead, hoff, Body.answerWords]

theorem pageRead_data (hoff : off / 4 = 2) (hawake : d.b.asleep = false) : d.pageRead t off = d.windowRead t := by
  simp [Dev.pageRead, hoff, hawake]

/-- What WIN_ADDR and WIN_OFF name: class, instance and word. -/
theorem winObject_eq (b : Body) (t : Nat) : b.winObject t = (mapGet 0 t b.host.winAddr / 2 ^ 24 % 256,
    mapGet 0 t b.host.winAddr % 2 ^ 24, mapGet 0 t b.host.winOff) := rfl

theorem windowRead_ok {ws : List Nat} {d1 : Dev} (hread : d.objRead (.host t) (mapGet 0 t d.b.host.winAddr / 2 ^ 24 % 256)
      (mapGet 0 t d.b.host.winAddr % 2 ^ 24) (mapGet 0 t d.b.host.winOff) 1 = (stOk, ws, d1)) :
    d.windowRead t = { d1 with b := { d1.b with
      reply := ⟨stOk, 0, [BitVec.ofNat 32 (ws.headD 0)]⟩
      host.winStatus := mapPut t stOk d1.b.host.winStatus } } := by
  simp only [Dev.windowRead, winObject_eq, hread, if_true, Body.answerWords, Dev.windowStatus]

theorem windowWrite_eq {v st i : Nat} {d1 : Dev} (hwrite : d.objWrite (.host t)
      (mapGet 0 t d.b.host.winAddr / 2 ^ 24 % 256) (mapGet 0 t d.b.host.winAddr % 2 ^ 24) (mapGet 0 t d.b.host.winOff) [v] =
        (st, i, d1)) :
    d.windowWrite t v = { d1 with b := { d1.b with
      reply := ⟨st, i, []⟩
      host.winStatus := mapPut t st d1.b.host.winStatus } } := by
  simp only [Dev.windowWrite, winObject_eq, hwrite, Dev.answerWrite, Dev.windowStatus]

end

/-! BAR4 (R376, R380): word `k` of the table entry of vector `v`. -/

section
variable {s : State} {b : Body} {v k : Nat} (hv : v < 2048) (hk : k < 4)
include hv hk

theorem execWindowAccess_table (hin : s.b.hostIn = true) (w : Option Word) :
    execWindowAccess 64 (16 * v + 4 * k) w s = .next { s with
      tm := ((Dev.mk s.tm s.b).bar4 (16 * v + 4 * k) w).tm
      b := ((Dev.mk s.tm s.b).bar4 (16 * v + 4 * k) w).b } := by
  have hoff : ¬ 0x100000 ≤ 16 * v + 4 * k := by omega
  simp only [execWindowAccess, onDev, hin, hoff, lt_self_iff_false, not_true_eq_false, or_self, if_false, if_true]

/-- The offset names the vector and the word of its entry. -/
theorem tableOffset : 16 * v + 4 * k < 0x8000 ∧ (16 * v + 4 * k) / 16 = v ∧ (16 * v + 4 * k) / 4 % 4 = k := by omega

theorem bar4Word_table : b.bar4Word (16 * v + 4 * k) =
    if k = 3 then (if v ∈ b.host.unmasked then 0 else 1) else bitsAt (mapGet 0 v b.host.msix) (32 * k) 32 := by
  obtain ⟨hlow, hvector, hword⟩ := tableOffset hv hk
  simp [Body.bar4Word, hlow, hvector, hword, bit]

theorem bar4Write_table (w : Word) (hk3 : k < 3) :
    let e := mapGet 0 v b.host.msix
    b.bar4Write (16 * v + 4 * k) w.toNat = { b with
      host.msix := mapPut v (e - bitsAt e (32 * k) 32 * 2 ^ (32 * k) + w.toNat * 2 ^ (32 * k)) b.host.msix } := by
  obtain ⟨hlow, hvector, hword⟩ := tableOffset hv hk
  simp only [Body.bar4Write, hlow, hvector, hword, hk3.ne, if_true, if_false, Nat.mod_eq_of_lt w.isLt]

theorem bar4Write_mask (w : Word) (hk3 : k = 3) (hmask : w.toNat % 2 = 1) :
    b.bar4Write (16 * v + 4 * k) w.toNat =
      { b with host.unmasked := b.host.unmasked.filter (fun y => decide (y ≠ v)) } := by
  obtain ⟨hlow, hvector, hword⟩ := tableOffset hv hk
  have hbit : w.toNat.testBit 0 = true := by simp [Nat.testBit_zero, hmask]
  simp only [Body.bar4Write, hlow, hvector, hword.trans hk3, hbit, if_true]

end

/-! Apertures (R378). -/

section
variable {s : State} {t off n a : Nat} (hin : s.b.hostIn = true) (hnear : s.b.tentReached t = true) (ht : t < 64)
  (hawake : s.b.asleep = false) (hn : 0 < n) (hoff : off + n ≤ 2 ^ 28)
  (ha : s.b.fget clsTent t FTent.apertureBase + off = a)
include hin hnear ht hawake hn hoff ha

/-- A read of the aperture of a tent within reach, by whether a region grants it and whether the channel is frozen. -/
theorem execApertureAccess_read :
    execApertureAccess t off n none s = .next { s with
      b := if s.b.regionGrants (1028 + t) 1 a n true false = true then
        if s.b.dramHeld a n = true then s.b.apertureWaits t a n none
        else (s.b.dramPost 5 t a n false).answerWords stOk (wordsOf (s.b.dramBytes a n))
      else s.b.apertureDenied t false } := by
  have hinside : ¬ 268435456 < off + n := not_lt.mpr hoff
  by_cases hgrant : s.b.regionGrants (1028 + t) 1 a n true false = true <;>
    by_cases hheld : s.b.dramHeld a n = true <;>
    simp [execApertureAccess, onDev, hin, hnear, not_le.mpr ht, hawake, hn.ne', hinside, hgrant, hheld, ha,
      Body.dramRead]

/-- A write of `l` to it. -/
theorem execApertureAccess_write {l : List Byte} (hl : l.length = n) :
    execApertureAccess t off n (some l) s = .next { s with
      b := if s.b.regionGrants (1028 + t) 1 a n false true = true then
        if s.b.dramHeld a n = true then s.b.apertureWaits t a n (some l)
        else ((s.b.dramPut a l).dramSend 5 t a n true .posted (atAddr a l)).answer stOk
      else s.b.apertureDenied t true } := by
  have hinside : ¬ 268435456 < off + n := not_lt.mpr hoff
  by_cases hgrant : s.b.regionGrants (1028 + t) 1 a n false true = true <;>
    by_cases hheld : s.b.dramHeld a n = true <;>
    simp [execApertureAccess, onDev, hin, hnear, not_le.mpr ht, hawake, hn.ne', hinside, hgrant, hheld, ha, hl,
      Body.dramWrite]

end

end Sys2Proof.Machine

namespace Sys2Proof
open Machine

/-- Settles O17: a page by the offset, BAR4 by the word of the entry, an aperture by what grants and holds the access. -/
theorem hostAccesses : Obligations.HostAccesses := by
  unfold Obligations.HostAccesses
  refine ⟨fun s t off hin ht hoff => ⟨fun hfar => ⟨execWindowAccess_unreached hin ht hoff hfar none,
    fun w => execWindowAccess_unreached hin ht hoff hfar (some w)⟩, fun hnear => ?page⟩, ?table, ?aperture⟩
  case page =>
    have hread {d : Dev} := execWindowAccess_read hin ht hoff hnear (d := d)
    have hwrite {w : Word} {d : Dev} := execWindowAccess_write hin ht hoff hnear (w := w) (d := d)
    exact ⟨fun w h => hwrite (pageWrite_addr w.toNat h), fun w h => hwrite (pageWrite_off w.toNat h),
      fun h => hread (pageRead_addr h), fun h => hread (pageRead_status h),
      fun h hawake => ⟨fun ws d1 hok => hread ((pageRead_data h hawake).trans (windowRead_ok hok)),
        fun w st i d1 hans => hwrite ((pageWrite_data w.toNat h hawake).trans (windowWrite_eq hans))⟩,
      fun w hlo hhi => hwrite (pageWrite_doorbell w.toNat hlo hhi)⟩
  case table =>
    intro s v k hin hv hk
    refine ⟨(execWindowAccess_table hv hk hin none).trans ?_, fun w =>
      ⟨fun hk3 => (execWindowAccess_table hv hk hin (some w)).trans ?_,
        fun hk3 hmask => (execWindowAccess_table hv hk hin (some w)).trans ?_⟩⟩
    · simp only [Dev.bar4, bar4Word_table hv hk, Body.answerWords]
    · simp only [Dev.bar4, bar4Write_table hv hk w hk3]
    · simp only [Dev.bar4, bar4Write_mask hv hk w hk3 hmask]
  case aperture =>
    intro s t off n l hin hnear ht hawake hn hoff hl
    have hread := execApertureAccess_read hin hnear ht hawake hn hoff rfl
    have hwrite := execApertureAccess_write hin hnear ht hawake hn hoff rfl hl
    refine ⟨fun hgrant => ⟨fun hheld => ?_, fun hheld => ?_⟩, fun hgrant => ?_, fun hgrant => ⟨fun hheld => ?_, fun hheld => ?_⟩,
      fun hgrant => ?_⟩
    · rw [if_pos hgrant, if_neg (ne_true_of_eq_false hheld)] at hread
      exact hread
    · rw [if_pos hgrant, if_pos hheld] at hread
      exact hread
    · rw [if_neg (ne_true_of_eq_false hgrant)] at hread
      exact hread
    · rw [if_pos hgrant, if_neg (ne_true_of_eq_false hheld)] at hwrite
      exact hwrite
    · rw [if_pos hgrant, if_pos hheld] at hwrite
      exact hwrite
    · rw [if_neg (ne_true_of_eq_false hgrant)] at hwrite
      exact hwrite

end Sys2Proof
end

section
/-! Lock windows, grants and long holds (R353 to R356, R361, R362, R372): what each does where its access is admitted or its
event can occur. -/

namespace Sys2Proof.Machine

/-! The word of a window that holds REQ_ISSUE and REQ_CANCEL. -/

/-- The fields of that word in a tent's window, which has no REQ_TENT, and in a Bivouac core's. -/
def tentWinWord : List Fld :=
  [FWindow.reqOp, FWindow.reqPrio, FWindow.reqTask, FWindow.reqIssue, FWindow.reqCancel, FWindow.reqBusy, FWindow.reqNum]
def bivWinWord : List Fld :=
  [FWindow.reqOp, FWindow.reqPrio, FWindow.reqTask, FWindow.reqIssue, FWindow.reqCancel, FWindow.reqBusy, FWindow.reqTent,
    FWindow.reqNum]
def winWord : Win → List Fld
  | .tent _ => tentWinWord
  | .biv _ => bivWinWord

theorem winWord_mem (w : Win) : winWord w ∈ [tentWinWord, bivWinWord] := by
  cases w <;> simp [winWord]

/-- The bits that a window's requests are written to. -/
def winReqs : List Fld := [FWindow.reqIssue, FWindow.reqCancel]

theorem place_of_winReqs : ∀ l ∈ [tentWinWord, bivWinWord], ∀ f ∈ winReqs,
    f ∈ l ∧ f.lo + f.width ≤ 32 * f.word + 32 ∧ l.Pairwise Fld.Apart := by decide

theorem beside_winReqs : ∀ l ∈ [tentWinWord, bivWinWord], ∀ f ∈ winReqs, f.Beside l [FWindow.reqNum, FWindow.reqQueue] := by
  decide

theorem beside_reqTent : ∀ f ∈ winReqs, f.Beside bivWinWord [FWindow.reqTent] := by decide

theorem acc_of_winWord : ∀ l ∈ [tentWinWord, bivWinWord], ∀ g ∈ l, (g.acc == .w1c) = false := by decide

theorem word_of_winReqs : ∀ f ∈ winReqs, f.word = 16 ∧ f.acc = .wo ∧ f.width = 1 := by decide

theorem tents_le (b : Body) : b.tents ≤ 64 := Nat.pow_le_pow_right (by decide) (Nat.le_of_lt_succ b.sys.nLog.isLt)

/-- Where the instance of a window lies. -/
theorem winInst_of_exists {b : Body} {w : Win} (hw : b.winExists w = true) :
    (∃ t, w = .tent t ∧ t < 64) ∨ ∃ j, w = .biv j ∧ j < 4 := by
  cases w with
  | tent t => exact .inl ⟨t, rfl, (of_decide_eq_true hw).trans_le (tents_le b)⟩
  | biv j => exact .inr ⟨j, rfl, of_decide_eq_true hw⟩

theorem fieldsOfInst_window {b : Body} {w : Win} (hw : b.winExists w = true) : fieldsOfInst clsLock (winInst w) =
    match w with
    | .tent _ => FLockTent.all ++ FWindow.all.filter (fun f => decide (f ≠ FWindow.reqTent))
    | .biv _ => FWindow.all := by
  rcases winInst_of_exists hw with ⟨t, rfl, ht⟩ | ⟨j, rfl, hj⟩
  · have hlow : ¬ 0x10000 + t < 0x4000 ∧ ¬ 0x10000 + t < 0x10000 ∧ 0x10000 + t < 0x20000 := by omega
    simp only [fieldsOfInst, clsLock, winInst, hlow, if_true, if_false]
  · have hhigh : ¬ 0x20000 + j < 0x4000 ∧ ¬ 0x20000 + j < 0x10000 ∧ ¬ 0x20000 + j < 0x20000 := by omega
    simp only [fieldsOfInst, clsLock, winInst, hhigh, if_false]

theorem fieldsOfWord_window {b : Body} {w : Win} (hw : b.winExists w = true) :
    fieldsOfWord clsLock (winInst w) 16 = winWord w := by
  rw [fieldsOfWord, fieldsOfInst_window hw]
  cases w <;> rfl

theorem lastWord_window {b : Body} {w : Win} (hw : b.winExists w = true) : 16 ≤ lastWord clsLock (winInst w) := by
  have hlast : lastWord clsLock (winInst w) =
      (fieldsOfInst clsLock (winInst w)).foldl (fun m f => max m ((f.lo + f.width - 1) / 32)) 0 := rfl
  rw [hlast, fieldsOfInst_window hw]
  cases w with
  | tent t => exact (by decide : 16 ≤ (FLockTent.all ++ FWindow.all.filter (fun f => decide (f ≠ FWindow.reqTent))).foldl
      (fun m f => max m ((f.lo + f.width - 1) / 32)) 0)
  | biv j => exact (by decide : 16 ≤ FWindow.all.foldl (fun m f => max m ((f.lo + f.width - 1) / 32)) 0)

/-- The window of an instance. -/
theorem winOf_winInst {b : Body} {w : Win} (hw : b.winExists w = true) :
    (if winInst w < 0x20000 then Win.tent (winInst w - 0x10000) else .biv (winInst w - 0x20000)) = w := by
  rcases winInst_of_exists hw with ⟨t, rfl, ht⟩ | ⟨j, rfl, hj⟩
  · have hlow : 0x10000 + t < 0x20000 := by omega
    simp only [winInst, hlow, if_true, Nat.add_sub_cancel_left]
  · have hhigh : ¬ 0x20000 + j < 0x20000 := by omega
    simp only [winInst, hhigh, if_false, Nat.add_sub_cancel_left]

theorem accessOf_lock (b : Body) (au : Auth) (i : Nat) (f : Fld) : b.accessOf au clsLock i f = f.acc := by
  cases au <;> rfl

theorem winInst_high (w : Win) : ¬ winInst w < 0x4000 ∧ ¬ winInst w < 0x10000 := by
  cases w <;> simp only [winInst] <;> omega

/-- A write of a window's word that names no tent, number or queue beyond the share meets no rule of LOCK. -/
theorem judgeLock_window {x : Wr} (hhigh : ¬ x.inst < 0x4000 ∧ ¬ x.inst < 0x10000)
    (htent : (x.hit FWindow.reqTent && decide (0x20000 ≤ x.inst)) = false) (hnum : x.hit FWindow.reqNum = false)
    (hqueue : x.hit FWindow.reqQueue = false) : x.judgeLock = Verdict.fine := by
  simp only [Wr.judgeLock, hhigh, if_false, htent, hnum, hqueue, Bool.not_false, Bool.true_or, Bool.and_self]
  rfl

/-- What the word does, where it changes no RW field and clears no bit. -/
theorem actLock_window {x : Wr} {w : Win} (hhigh : ¬ x.inst < 0x4000 ∧ ¬ x.inst < 0x10000)
    (hwin : (if x.inst < 0x20000 then Win.tent (x.inst - 0x10000) else .biv (x.inst - 0x20000)) = w)
    (hsame : x.clearBits x.setAll = x.d.b) : x.actLock = x.tries FWindow.reqCancel (fun b => (stOk, b.winCancel w))
      (x.tries FWindow.reqIssue (fun b => b.winIssue x.d.tm w) (stOk, x.d.b)) := by
  simp only [Wr.actLock, hhigh, if_false, hwin, hsame]

section
variable {s : State} {w : Win} {f : Fld} (hw : s.b.winExists w = true)
  (hfits : s.Fits clsLock (winInst w) FWindow.reqIssue.word) (hf : f ∈ winReqs)
include hw hfits hf

theorem writesAlone_window : (Dev.mk s.tm s.b).WritesAlone (winAuth w) clsLock (winInst w) f 1 (winWord w) := by
  obtain ⟨hword, hacc, hwidth⟩ := word_of_winReqs f hf
  refine writesAlone_of_fits (hword ▸ fieldsOfWord_window hw) (place_of_winReqs _ (winWord_mem w) f hf) ?_ ?_ ?_
    (hword ▸ hfits)
  · rw [accessOf_lock, hacc]
    rfl
  · rw [hwidth]
    decide
  · rw [hacc]
    exact fun h => absurd h (by decide)

theorem hit_reqTent_window : (((Dev.mk s.tm s.b).wr (winAuth w) clsLock (winInst w) f 1).hit FWindow.reqTent &&
    decide (0x20000 ≤ winInst w)) = false := by
  have h := writesAlone_window hw hfits hf
  rcases winInst_of_exists hw with ⟨t, rfl, ht⟩ | ⟨j, rfl, hj⟩
  · have hlow : ¬ 0x20000 ≤ 0x10000 + t := by omega
    simp only [winInst, hlow, decide_false, Bool.and_false]
  · rw [Wr.hit, h.hits_beside (beside_reqTent f hf), Bool.false_and]

theorem judge_window : ((Dev.mk s.tm s.b).wr (winAuth w) clsLock (winInst w) f 1).judge = Verdict.fine := by
  have h := writesAlone_window hw hfits hf
  have hbeside := beside_winReqs _ (winWord_mem w) f hf
  have hmiss {g : Fld} (hg : g ∈ [FWindow.reqNum, FWindow.reqQueue]) := h.hit_beside (hbeside g hg).1 (hbeside g hg).2
  exact judgeLock_window (winInst_high w) (hit_reqTent_window hw hfits hf) (hmiss (by decide)) (hmiss (by decide))

/-- No field of the word is W1C. -/
theorem clearBits_window (b : Body) : ((Dev.mk s.tm s.b).wr (winAuth w) clsLock (winInst w) f 1).clearBits b = b := by
  have h := writesAlone_window hw hfits hf
  simp only [Wr.clearBits, Dev.wr_fields, h.fields, Dev.wr_acc, accessOf_lock]
  exact List.foldlRecOn _ _ (motive := fun x => x = b) rfl fun x hx g hg => by
    rw [acc_of_winWord _ (winWord_mem w) g hg]
    exact hx

theorem act_window : ((Dev.mk s.tm s.b).wr (winAuth w) clsLock (winInst w) f 1).act =
    ((Dev.mk s.tm s.b).wr (winAuth w) clsLock (winInst w) f 1).tries FWindow.reqCancel (fun b => (stOk, b.winCancel w))
      (((Dev.mk s.tm s.b).wr (winAuth w) clsLock (winInst w) f 1).tries FWindow.reqIssue (fun b => b.winIssue s.tm w)
        (stOk, s.b)) := by
  have h := writesAlone_window hw hfits hf
  have hset := h.setAll_eq (by rw [(word_of_winReqs f hf).2.1]; decide)
  exact actLock_window (winInst_high w) (winOf_winInst hw) (by rw [hset, clearBits_window hw hfits hf]; rfl)

end

section
variable {s : State} {w : Win} (hw : s.b.winExists w = true) (hfits : s.Fits clsLock (winInst w) FWindow.reqIssue.word)
include hw hfits

theorem act_reqIssue :
    ((Dev.mk s.tm s.b).wr (winAuth w) clsLock (winInst w) FWindow.reqIssue 1).act = s.b.winIssue s.tm w := by
  have hf : FWindow.reqIssue ∈ winReqs := by decide
  have h := writesAlone_window hw hfits hf
  have hcancel := h.does_beside (g := FWindow.reqCancel) (by decide)
    (fun _ => (place_of_winReqs _ (winWord_mem w) FWindow.reqCancel (by decide)).1) (by decide)
  rw [act_window hw hfits hf]
  simp [Wr.tries, hcancel, h.does_self (accessOf_lock _ _ _ _) rfl]

theorem act_reqCancel :
    ((Dev.mk s.tm s.b).wr (winAuth w) clsLock (winInst w) FWindow.reqCancel 1).act = (stOk, s.b.winCancel w) := by
  have hf : FWindow.reqCancel ∈ winReqs := by decide
  have h := writesAlone_window hw hfits hf
  have hissue := h.does_beside (g := FWindow.reqIssue) (by decide)
    (fun _ => (place_of_winReqs _ (winWord_mem w) FWindow.reqIssue (by decide)).1) (by decide)
  rw [act_window hw hfits hf]
  simp [Wr.tries, hissue, h.does_self (accessOf_lock _ _ _ _) rfl]

variable (ha : Admits s (winAuth w) clsLock (winInst w) true)
include ha

theorem execReqCancel_eq : execReqCancel w s = .next (s.answered (s.b.winCancel w)) := by
  have hf : FWindow.reqCancel ∈ winReqs := by decide
  rw [execReqCancel, if_pos hw]
  exact fieldCommand_done ha (writesAlone_window hw hfits hf) rfl (lastWord_window hw) (judge_window hw hfits hf)
    (act_reqCancel hw hfits)

variable {op : Nat} (hop : s.b.fget clsLock (winInst w) FWindow.reqOp = op)
include hop

theorem windowCommand_done {b : Body} (hissue : s.b.winIssue s.tm w = (stOk, b)) :
    windowCommand w op s = .next (s.answered b) := by
  have hf : FWindow.reqIssue ∈ winReqs := by decide
  rw [windowCommand, if_pos (by simp [hw, hop])]
  exact fieldCommand_done ha (writesAlone_window hw hfits hf) rfl (lastWord_window hw) (judge_window hw hfits hf)
    ((act_reqIssue hw hfits).trans hissue)

theorem windowCommand_refused {st : Nat} {b : Body} (hissue : s.b.winIssue s.tm w = (st, b)) (hst : st ≠ stOk) :
    windowCommand w op s = .next (s.refused st) := by
  have hf : FWindow.reqIssue ∈ winReqs := by decide
  rw [windowCommand, if_pos (by simp [hw, hop])]
  exact fieldCommand_refused ha (writesAlone_window hw hfits hf) rfl (lastWord_window hw) (judge_window hw hfits hf)
    ((act_reqIssue hw hfits).trans hissue) hst

end

/-! What a write of REQ_ISSUE answers (R372). -/

/-- The request of a window names a lock or semaphore, and a queue where it asks for a task, of its tent. -/
def Body.winInShare (b : Body) (w : Win) : Prop :=
  b.winTent w < b.tents ∧
    b.fget clsLock (winInst w) FWindow.reqNum < lockTotal (decide (2 ≤ b.fget clsLock (winInst w) FWindow.reqOp)) / b.tents ∧
    (b.fget clsLock (winInst w) FWindow.reqTask = 1 → b.fget clsLock (winInst w) FWindow.reqQueue < 1048576 / b.tents)

section
variable {b : Body} {tm : Time} {w : Win}

theorem winIssue_busy (hbusy : b.fget clsLock (winInst w) FWindow.reqBusy = 1) : b.winIssue tm w = (stBusy, b) := by
  simp only [Body.winIssue, hbusy, if_true]

theorem winInShare_iff : b.winInShare w ↔ ¬ (b.tents ≤ b.winTent w ∨
    lockTotal (decide (2 ≤ b.fget clsLock (winInst w) FWindow.reqOp)) / b.tents ≤ b.fget clsLock (winInst w) FWindow.reqNum ∨
    (b.fget clsLock (winInst w) FWindow.reqTask = 1 ∧
      1048576 / b.tents ≤ b.fget clsLock (winInst w) FWindow.reqQueue)) := by
  simp only [Body.winInShare, not_or, not_le, not_and]

theorem winIssue_sent (hfree : b.fget clsLock (winInst w) FWindow.reqBusy ≠ 1) (hshare : b.winInShare w) :
    b.winIssue tm w = (stOk, b.winPerform tm w) := by
  simp only [Body.winIssue, hfree, winInShare_iff.1 hshare, if_false]

theorem winIssue_outOfShare (hfree : b.fget clsLock (winInst w) FWindow.reqBusy ≠ 1) (hshare : ¬ b.winInShare w) :
    b.winIssue tm w = (stOk, b.fset clsLock (winInst w) FWindow.reqStatus stOutOfRange) := by
  simp only [Body.winIssue, hfree, not_not.1 (mt winInShare_iff.2 hshare), if_false, if_true]

end

/-! Writes of a map come in any order, but for those of one key, of which the last counts. -/

theorem mapPut_mapPut_self {α : Type} (k : Nat) (v x : α) (m : SMap α) : mapPut k v (mapPut k x m) = mapPut k v m := by
  induction m with
  | nil => simp [mapPut]
  | cons e r ih =>
    obtain ⟨j, y⟩ := e
    rcases lt_trichotomy k j with h | rfl | h
    · simp [mapPut, h]
    · simp [mapPut]
    · simp [mapPut, h.not_gt, h.ne, ih]

theorem mapPut_comm_of_lt {α : Type} {k j : Nat} (h : k < j) (v x : α) (m : SMap α) :
    mapPut k v (mapPut j x m) = mapPut j x (mapPut k v m) := by
  induction m with
  | nil => simp [mapPut, h, h.not_gt, h.ne]
  | cons e r ih =>
    obtain ⟨i, y⟩ := e
    rcases lt_trichotomy i k with hi | rfl | hi
    · have hij := hi.trans h
      simp [mapPut, hi.not_gt, hi.ne, hij.not_gt, hij.ne, ih]
    · simp [mapPut, h.not_gt, h.ne]
    · rcases lt_trichotomy j i with hj | rfl | hj
      · simp [mapPut, hi, hj, h, h.not_gt, h.ne]
      · simp [mapPut, h, h.not_gt, h.ne]
      · simp [mapPut, hi, hj.not_gt, hj.ne, h.not_gt, h.ne]

theorem mapPut_comm {α : Type} {k j : Nat} (hkj : k ≠ j) (v x : α) (m : SMap α) :
    mapPut k v (mapPut j x m) = mapPut j x (mapPut k v m) := by
  rcases hkj.lt_or_gt with h | h
  · exact mapPut_comm_of_lt h v x m
  · exact (mapPut_comm_of_lt h x v m).symm

/-! Bodies that differ in REQ_BUSY of one window at most. -/

/-- `b` with the window of instance `i` free for a request. -/
def Body.idle (b : Body) (i : Nat) : Body := b.fset clsLock i FWindow.reqBusy 0

/-- `b` and `b'` differ in REQ_BUSY of the window of instance `i` at most. -/
def AlikeBut (i : Nat) (b b' : Body) : Prop := b.idle i = b'.idle i

/-- Two operations of the lock unit answer the same and leave bodies alike. -/
def AlikeAnswers {α : Type} (i : Nat) (r r' : α × Body) : Prop := r.1 = r'.1 ∧ AlikeBut i r.2 r'.2

theorem alikeBut_fset_reqBusy (b : Body) (i v : Nat) : AlikeBut i (b.fset clsLock i FWindow.reqBusy v) b := by
  simp only [AlikeBut, Body.idle, Body.fset, mapPut_mapPut_self]

theorem fget_idle (b : Body) (i c j : Nat) {f : Fld} (hf : f.lo % 65536 ≠ 521) : (b.idle i).fget c j f = b.fget c j f := by
  refine Body.fget_fset_ne b ?_ 0
  simp only [fieldKey, FWindow.reqBusy]
  omega

theorem isReady_idle (b : Body) (i q : Nat) : (b.idle i).isReady q = b.isReady q := by
  simp only [Body.isReady, Body.flags, fget_idle b i clsQueue q (f := FQueue.mask) (by decide),
    fget_idle b i clsQueue q (f := FQueue.flags) (by decide), fget_idle b i clsQueue q (f := FQueue.inService) (by decide),
    fget_idle b i clsQueue q (f := FQueue.concurrencyM1) (by decide)]
  rfl

section
variable {i : Nat} {b b' : Body} (h : AlikeBut i b b')
include h

namespace AlikeBut

theorem idle_eq : b.idle i = b'.idle i := h

theorem map (g : Body → Body) (hg : ∀ x, (g x).idle i = g (x.idle i)) : AlikeBut i (g b) (g b') :=
  (hg b).trans ((congrArg g h.idle_eq).trans (hg b').symm)

theorem sync : b.sync = b'.sync := (congrArg Body.sync h.idle_eq :)
theorem sys : b.sys = b'.sys := (congrArg Body.sys h.idle_eq :)

/-- Every field at another place reads the same. -/
theorem fget (c j : Nat) {f : Fld} (hf : f.lo % 65536 ≠ 521) : b.fget c j f = b'.fget c j f := by
  rw [← fget_idle b i c j hf, h.idle_eq, fget_idle b' i c j hf]

theorem fset (c j : Nat) (f : Fld) (v : Nat) : AlikeBut i (b.fset c j f v) (b'.fset c j f v) := by
  by_cases hkey : fieldKey c j f.lo = fieldKey clsLock i FWindow.reqBusy.lo
  · have hidle (x : Body) : (x.fset c j f v).idle i = x.idle i := by
      simp only [Body.idle, Body.fset, hkey, mapPut_mapPut_self]
    rw [AlikeBut, hidle, hidle, h]
  · refine h.map (fun x => x.fset c j f v) fun x => ?_
    simp only [Body.idle, Body.fset, mapPut_comm (Ne.symm hkey)]

theorem bump (c j : Nat) {f : Fld} (hf : f.lo % 65536 ≠ 521) (k : Nat) : AlikeBut i (b.bump c j f k) (b'.bump c j f k) := by
  rw [Body.bump, Body.bump, h.fget c j hf]
  exact h.fset c j f _

theorem drop (c j : Nat) {f : Fld} (hf : f.lo % 65536 ≠ 521) (k : Nat) : AlikeBut i (b.drop c j f k) (b'.drop c j f k) := by
  rw [Body.drop, Body.drop, h.fget c j hf]
  exact h.fset c j f _

theorem lock (n : Nat) : b.lock n = b'.lock n := by rw [Body.lock, Body.lock, h.sync]
theorem sem (n : Nat) : b.sem n = b'.sem n := by rw [Body.sem, Body.sem, h.sync]
theorem setLock (n : Nat) (l : LockSt) : AlikeBut i (b.setLock n l) (b'.setLock n l) :=
  h.map (fun x => x.setLock n l) fun _ => rfl
theorem setSem (n : Nat) (l : SemSt) : AlikeBut i (b.setSem n l) (b'.setSem n l) :=
  h.map (fun x => x.setSem n l) fun _ => rfl

theorem lockTurn (c : Nat) : AlikeAnswers i (b.lockTurn c) (b'.lockTurn c) :=
  ⟨by rw [Body.lockTurn, Body.lockTurn, h.sync], h.map (fun x => (x.lockTurn c).2) fun _ => rfl⟩

theorem lockTent (sem : Bool) (n : Nat) : b.lockTent sem n = b'.lockTent sem n := by
  rw [Body.lockTent, Body.lockTent, Body.nLogN, Body.nLogN, h.sys]

/-! Grants reach a thread's endpoint, a queue's flags or a window. -/

theorem pushMsg (t ep : Nat) (ws : List Word) : AlikeBut i (b.pushMsg t ep ws) (b'.pushMsg t ep ws) :=
  h.map (fun x => x.pushMsg t ep ws) fun _ => apply_ite (fun y : Body => y.idle i) _ _ _

theorem syncReady (q : Nat) : AlikeBut i (b.syncReady q) (b'.syncReady q) := by
  refine h.map (fun x => x.syncReady q) fun x => ?_
  simp only [Body.syncReady, isReady_idle]
  split
  · exact apply_ite (fun y : Body => y.idle i) _ _ _
  · rfl

theorem setFlags (q bits : Nat) : AlikeBut i (b.setFlags q bits) (b'.setFlags q bits) := by
  rw [Body.setFlags, Body.setFlags, h.fget clsQueue q (f := FQueue.flags) (by decide)]
  exact (h.fset clsQueue q FQueue.flags _).syncReady q

theorem deliverGrant (sem : Bool) (n st : Nat) (w : Holder) (win : Option Win) :
    AlikeBut i (b.deliverGrant sem n st w win) (b'.deliverGrant sem n st w win) := by
  cases w with
  | thread t =>
    have hrel : b.lockRel sem n = b'.lockRel sem n := by rw [Body.lockRel, Body.lockRel, Body.tents, Body.tents, h.sys]
    simp only [Body.deliverGrant, hrel]
    exact (h.map (fun x => x.modHart t _) fun _ => rfl).pushMsg _ _ _
  | task q => exact h.setFlags q 0x10
  | _ =>
    cases win with
    | none => exact h
    | some x => exact (h.fset _ _ _ _).fset _ _ _ _

theorem grantLock (tm : Time) (n : Nat) (w : Holder) (win : Option Win) :
    AlikeBut i (b.grantLock tm n w win) (b'.grantLock tm n w win) := by
  simp only [Body.grantLock, h.lock, h.fget clsLock n (f := FLock.abandoned) (by decide)]
  exact ((((h.setLock n _).fset _ _ _ _).fset _ _ _ _).bump _ _ (by decide) 1).deliverGrant _ _ _ _ _

theorem grantSem (n : Nat) (w : Holder) (win : Option Win) : AlikeBut i (b.grantSem n w win) (b'.grantSem n w win) := by
  simp only [Body.grantSem, h.sem, h.fget clsLock (semInst n) (f := FSem.abandoned) (by decide)]
  exact ((((h.setSem n _).drop _ _ (by decide) 1).fset _ _ _ _).bump _ _ (by decide) 1).deliverGrant _ _ _ _ _

/-! Operations of the lock unit, behind the grants of earlier cycles. -/

theorem settleLock (tm : Time) (n c : Nat) : AlikeBut i (b.settleLock tm n c) (b'.settleLock tm n c) := by
  have hdue : b.lockDue n = b'.lockDue n := by rw [Body.lockDue, Body.lockDue, h.lock]
  unfold Body.settleLock
  rw [hdue]
  split
  · split
    · simp only [Body.giveLock, h.lock]
      exact (h.setLock n _).grantLock _ _ _ _
    · exact h
  · exact h

omit h in
theorem settleSem (n c k : Nat) : ∀ {b b' : Body}, AlikeBut i b b' → AlikeBut i (b.settleSem n c k) (b'.settleSem n c k) := by
  induction k with
  | zero => exact fun h => h
  | succ k ih =>
    intro b b' h
    have hdue : b.semDue n = b'.semDue n := by
      rw [Body.semDue, Body.semDue, h.sem, h.fget clsLock (semInst n) (f := FSem.count) (by decide)]
    simp only [Body.settleSem, hdue]
    split
    · split
      · refine ih ?_
        simp only [Body.giveSem, h.sem]
        exact (h.setSem n _).grantSem _ _ _
      · exact h
    · exact h

theorem settledSem (n c : Nat) : AlikeBut i (b.settledSem n c) (b'.settledSem n c) := by
  rw [Body.settledSem, Body.settledSem, h.sem]
  exact settleSem n c _ h

theorem recount (j : Nat) {f : Fld} (hf : f.lo % 65536 ≠ 521) (c : Nat) (ws : List Waiter) :
    AlikeBut i (b.recount j f c ws) (b'.recount j f c ws) := by
  unfold Body.recount
  split
  · exact h.drop _ _ hf 1
  · exact h

theorem recountIf (p : Prop) [Decidable p] (j : Nat) {f : Fld} (hf : f.lo % 65536 ≠ 521) (c : Nat) (ws : List Waiter) :
    AlikeBut i (if p then b.recount j f c ws else b) (if p then b'.recount j f c ws else b') := by
  split
  · exact h.recount j hf c ws
  · exact h

theorem freeLock (tm : Time) (n c : Nat) (w : Holder) (who : List Holder) :
    AlikeBut i (b.freeLock tm n c w who) (b'.freeLock tm n c w who) := by
  have hcount := h.recount n (f := FLock.contended) (by decide) c (b'.lock n).waiters
  simp only [Body.freeLock, h.lock, h.lockTent]
  split
  · exact (((hcount.setLock n _).fset _ _ _ _).bump _ _ (by decide) 1).drop _ _ (by decide) 1
  · exact hcount.setLock n _

theorem releaseLock (tm : Time) (c n : Nat) (who : List Holder) :
    AlikeAnswers i (b.releaseLock tm c n who) (b'.releaseLock tm c n who) := by
  obtain ⟨hcycle, hturn⟩ := h.lockTurn c
  have hset := hturn.settleLock tm n (b'.lockTurn c).1
  have hbad := hset.bump clsLock (lockTentInst ((b'.lockTurn c).2.settleLock tm n (b'.lockTurn c).1 |>.lockTent false n))
    (f := FLockTent.notHeld) (by decide) 1
  simp only [Body.releaseLock, hcycle, hset.lock, hset.lockTent]
  split
  · split
    · exact ⟨rfl, hset.freeLock _ _ _ _ _⟩
    · exact ⟨rfl, hbad⟩
  · exact ⟨rfl, hbad⟩

theorem releaseSem (c n : Nat) (w : Holder) : AlikeAnswers i (b.releaseSem c n w) (b'.releaseSem c n w) := by
  obtain ⟨hcycle, hturn⟩ := h.lockTurn c
  have hset := hturn.settledSem n (b'.lockTurn c).1
  have hcount := hset.fget clsLock (semInst n) (f := FSem.count) (by decide)
  have hmax := hset.fget clsLock (semInst n) (f := FSem.maxF) (by decide)
  simp only [Body.releaseSem, hcycle, hset.sem, hcount, hmax]
  split
  · exact ⟨rfl, ((hset.recountIf _ _ (by decide) _ _).setSem n _).fset _ _ _ _⟩
  · split
    · exact ⟨rfl, ((hset.recountIf _ _ (by decide) _ _).setSem n _).fset _ _ _ _⟩
    · exact ⟨rfl, hset.bump _ _ (by decide) 1⟩

end AlikeBut
end


/-! What a window asks of the lock unit (Table 14.8). -/

section
variable {b : Body} {tm : Time} {w : Win}

/-- The window while its request is in progress: on behalf of a task it stays free (R372). -/
def Body.winWaits (b : Body) (w : Win) : Body :=
  if b.fget clsLock (winInst w) FWindow.reqTask = 1 then b else b.fset clsLock (winInst w) FWindow.reqBusy 1

theorem winWaits_alike (b : Body) (w : Win) : AlikeBut (winInst w) (b.winWaits w) b := by
  unfold Body.winWaits
  split
  · exact rfl
  · exact alikeBut_fset_reqBusy b _ 1

/-- The status of a request that ends at once: that it was in progress does not show. -/
theorem winStatus_alike {b' : Body} (h : AlikeBut (winInst w) b b') (st : Nat) :
    b.winStatus w st = b'.winStatus w st := h.fset _ _ _ _

theorem winPerform_release (hop : b.fget clsLock (winInst w) FWindow.reqOp = 1) :
    let n := b.lockAbs false (b.winTent w) (b.fget clsLock (winInst w) FWindow.reqNum)
    let r := (b.winWaits w).releaseLock tm b.clock n [b.winHolder w]
    b.winPerform tm w = r.2.winStatus w (if r.1 then stOk else stNotOwner) := by
  intro n r
  have hsame := (winWaits_alike b w).releaseLock tm b.clock n [b.winHolder w]
  simp only [Body.winPerform, hop]
  rw [winStatus_alike hsame.2, hsame.1]
  rfl

theorem winPerform_signal (hop : b.fget clsLock (winInst w) FWindow.reqOp = 3) :
    let n := b.lockAbs true (b.winTent w) (b.fget clsLock (winInst w) FWindow.reqNum)
    let r := (b.winWaits w).releaseSem b.clock n (b.winHolder w)
    b.winPerform tm w = r.2.winStatus w (if r.1 then stOk else stOutOfRange) := by
  intro n r
  have hsame := (winWaits_alike b w).releaseSem b.clock n (b.winHolder w)
  simp only [Body.winPerform, hop]
  rw [winStatus_alike hsame.2, hsame.1]
  rfl

theorem winPerform_acquire (hop : b.fget clsLock (winInst w) FWindow.reqOp = 0) : b.winPerform tm w =
    (b.winWaits w).requestLock tm b.clock (b.lockAbs false (b.winTent w) (b.fget clsLock (winInst w) FWindow.reqNum))
      (b.winHolder w) (some w) (b.fget clsLock (winInst w) FWindow.reqPrio) := by
  simp only [Body.winPerform, hop]
  rfl

theorem winPerform_wait (hop : b.fget clsLock (winInst w) FWindow.reqOp = 2) : b.winPerform tm w =
    (b.winWaits w).requestSem b.clock (b.lockAbs true (b.winTent w) (b.fget clsLock (winInst w) FWindow.reqNum))
      (b.winHolder w) (some w) (b.fget clsLock (winInst w) FWindow.reqPrio) := by
  simp only [Body.winPerform, hop]
  rfl

theorem winHolder_task (htask : b.fget clsLock (winInst w) FWindow.reqTask = 1) : b.winHolder w =
    .task (queueBase b.nLogN (b.winTent w) + b.fget clsLock (winInst w) FWindow.reqQueue) := if_pos htask

end

/-! Grants and long holds (R355, R356, R362). -/

section
variable {s : State} {n g : Nat} {w : Waiter}

theorem execLockGrant_lock (hdue : s.b.lockDue n = some (g, w)) :
    let d := (Dev.mk s.tm s.b).waitCycle (g + 1)
    execLockGrant false n s = .next { s with tm := d.tm, b := d.b.giveLock d.tm n w } := by
  simp only [execLockGrant, onDev, Bool.false_eq_true, if_false, hdue]

theorem execLockGrant_sem (hdue : s.b.semDue n = some (g, w)) :
    let d := (Dev.mk s.tm s.b).waitCycle (g + 1)
    execLockGrant true n s = .next { s with tm := d.tm, b := d.b.giveSem n g w } := by
  simp only [execLockGrant, onDev, if_true, hdue]

theorem execLockHeldLong_eq (h0 : 0 < s.b.fget clsLock (lockTentInst (s.b.lockTent false n)) FLockTent.holdTicks)
    (hlong : s.b.fget clsLock (lockTentInst (s.b.lockTent false n)) FLockTent.holdTicks < (s.b.lock n).heldTicks)
    (hheld : (s.b.lock n).holder ≠ none) (hnew : (s.b.lock n).longRaised = false) :
    let t := lockTentInst (s.b.lockTent false n)
    execLockHeldLong n s = .next { s with
      b := (((s.b.setLock n { s.b.lock n with longRaised := true }).fset clsLock t FLockTent.lastLongLock
        (s.b.lockRel false n)).bump clsLock t FLockTent.longHolds 1).ring 41 } := by
  simp [execLockHeldLong, onBody, h0, hlong, hheld, hnew]

end

end Sys2Proof.Machine

namespace Sys2Proof
open Machine

/-- Settles O13: a window by whether it is busy and in its tent's share, then by REQ_OP. -/
theorem lockCommands : Obligations.LockCommands := by
  unfold Obligations.LockCommands
  refine ⟨fun s w hw ha hfits => ?window, fun s n g w => execLockGrant_lock, fun s n g w => execLockGrant_sem,
    fun s n => execLockHeldLong_eq⟩
  have hsent {op : Nat} {b : Body} (hissue : s.b.winIssue s.tm w = (stOk, b))
      (hop : s.b.fget clsLock (winInst w) FWindow.reqOp = op) := windowCommand_done hw hfits ha hop hissue
  have hbusy {op : Nat} (hissue : s.b.winIssue s.tm w = (stBusy, s.b))
      (hop : s.b.fget clsLock (winInst w) FWindow.reqOp = op) := windowCommand_refused hw hfits ha hop hissue (by decide)
  refine ⟨fun hfree hshare => ?_, fun hfree hshare => ?_, fun hnot => ?_, ⟨winHolder_task, ?_, ?_, ?_, ?_⟩,
    execReqCancel_eq hw hfits ha⟩
  · have h : s.b.winIssue s.tm w = (stOk, s.b.winPerform s.tm w) := winIssue_sent hfree hshare
    exact ⟨hsent h, hsent h, hsent h, hsent h⟩
  · have h : s.b.winIssue s.tm w = (stOk, s.b.fset clsLock (winInst w) FWindow.reqStatus stOutOfRange) :=
      winIssue_outOfShare hfree hshare
    exact ⟨hsent h, hsent h, hsent h, hsent h⟩
  · have h : s.b.winIssue s.tm w = (stBusy, s.b) := winIssue_busy hnot
    exact ⟨hbusy h, hbusy h, hbusy h, hbusy h⟩
  · intro hop
    rw [hop]
    exact winPerform_acquire hop
  · intro hop
    rw [hop]
    exact winPerform_release hop
  · intro hop
    rw [hop]
    exact winPerform_wait hop
  · intro hop
    rw [hop]
    exact winPerform_signal hop

end Sys2Proof
end

section
/-! Timers, replies and direct messages (R153, R156, R198, R204): what each command does where its event can occur. -/

namespace Sys2Proof.Machine

theorem execThreadTimerExpiry_eq {s : State} {h t : Nat} {tag : Word} (htimer : (s.b.hart h).timer = some (t, tag)) :
    let d := (Dev.mk s.tm s.b).waitUntil t
    execThreadTimerExpiry h s = .next { s with
      tm := d.tm, b := (d.b.modHart h (fun x => { x with timer := none })).putMsg h 5 [tag] } := by
  simp only [execThreadTimerExpiry, onDev, htimer]

theorem execTaskTimerExpiry_eq {s : State} {h t q : Nat} (htimer : (s.b.hart h).taskTimer = some (t, q)) :
    let d := (Dev.mk s.tm s.b).waitUntil t
    execTaskTimerExpiry h s = .next { s with
      tm := d.tm, b := (d.b.modHart h (fun x => { x with taskTimer := none })).setFlags q 4 } := by
  simp only [execTaskTimerExpiry, onDev, htimer]

/-! Replies. -/

section
variable {s : State} {h ep : Nat} {r : Req}

/-- A reply that is known enters the endpoint of its request, which is outstanding no more. -/
theorem execRequestReply_eq {ws : List Word} (hr : (s.b.hart h).reqs.find? (fun r => r.ep == ep) = some r)
    (hreply : s.b.replyOf h r = some ws) : execRequestReply h ep s = .next { s with
      b := ((s.b.frdRead h r).modHart h (fun x => { x with reqs := x.reqs.erase r })).pushMsg h ep ws } := by
  simp only [execRequestReply, onBody, hr, hreply]

/-- A request other than an FRD is answered with what has been noted as its reply. -/
theorem reply_of_notFrd {b : Body} (hkind : ∀ off n, r.kind ≠ .frd off n) :
    b.replyOf h r = r.reply ∧ b.frdRead h r = b := by
  cases hk : r.kind with
  | frd off n => exact absurd hk (hkind off n)
  | _ => simp only [Body.replyOf, Body.frdRead, hk, and_self]

/-- An FRD is answered from the frame of the item, whose bytes it reads. -/
theorem reply_of_frd {b : Body} {off n : Nat} {it : Item} (hkind : r.kind = .frd off n) (hit : (b.hart h).item = some it)
    (hheld : b.bufHeld it.desc.buffer = false) :
    b.replyOf h r = some (wordsOf (frameBytes (b.bufData it.desc.buffer) it.desc.length off (4 * n))) ∧
      b.frdRead h r = b.bufRead it.desc.buffer off (4 * n) := by
  simp only [Body.replyOf, Body.frdRead, hkind, hit, hheld, Bool.false_eq_true, if_false, and_self]

end

/-! Direct messages. -/

theorem Body.modHart_modHart (b : Body) (h : Nat) (f g : Hart → Hart) :
    (b.modHart h f).modHart h g = b.modHart h (fun x => g (f x)) := by
  simp only [Body.modHart, Body.hart_setHart_self]
  simp only [Body.setHart, mapPut_mapPut_self]

theorem execDirectMessageDeliver_eq {s : State} {h e peer pe : Nat} {ws : List Word}
    (hblock : (s.b.hart h).block = .direct e peer pe ws) (hgoes : (s.b.hart h).halted = false)
    (hroom : s.b.live peer = false ∨ (s.b.hart peer).wordsIn pe + ws.length ≤ 16) :
    let b1 := if s.b.live peer then s.b.pushMsg peer pe ws else s.b
    execDirectMessageDeliver h e s = .next { s with
      b := b1.modHart h (fun x => { x with block := .none, ableSince := b1.cycleOf h }) } := by
  intro b1
  have hgo : (!s.b.live peer) = true ∨ (s.b.hart peer).wordsIn pe + ws.length ≤ 16 := by simpa using hroom
  have hable : (b1.modHart h (fun x => { x with block := .none })).nowAble h =
      b1.modHart h (fun x => { x with block := .none, ableSince := b1.cycleOf h }) := Body.modHart_modHart ..
  simp only [execDirectMessageDeliver, onBody, hblock, hgoes, Bool.false_eq_true, if_false, true_and, hgo, if_true]
  exact congrArg (fun b => Host.Outcome.next { s with b := b }) hable

end Sys2Proof.Machine

namespace Sys2Proof
open Machine

/-- Settles O36: each command where its event can occur, a reply by whether its request is an FRD. -/
theorem timersAndReplies : Obligations.TimersAndReplies := by
  unfold Obligations.TimersAndReplies
  refine ⟨fun s h t tag => execThreadTimerExpiry_eq, fun s h t q => execTaskTimerExpiry_eq, fun s h ep r hr => ⟨?_, ?_⟩,
    fun s h e peer pe ws => execDirectMessageDeliver_eq⟩
  · intro ws hkind hreply
    obtain ⟨hof, hread⟩ := reply_of_notFrd (h := h) (b := s.b) hkind
    exact (execRequestReply_eq hr (hof.trans hreply)).trans (by rw [hread])
  · intro off n it hkind hit hheld
    obtain ⟨hof, hread⟩ := reply_of_frd hkind hit hheld
    exact (execRequestReply_eq hr hof).trans (by rw [hread])

end Sys2Proof
end

section
/-! Uncorrectable errors of the on-chip memories and their background test (R160, R274, R321, R327, R328): what an error does
by its memory, and what each command of the test does where its event can occur. -/

namespace Sys2Proof.Machine

theorem execMemoryUncorrectable_eq {s : State} {m a : Nat} (j : Nat) (ha : a < memBytes m) (hbase : s.b.sys.base ≠ .cold) :
    execMemoryUncorrectable m a j s = .next { s with b := (s.b.memoryError s.tm m a j).settle s.tm } := by
  simp only [execMemoryUncorrectable, onBuf, onBody]
  rw [if_pos ⟨ha, hbase⟩]

/-! The background test. -/

theorem execBgTestStart_eq {s : State} {m : Nat} (hdue : s.b.bgDue m s.tm.tickNumber = true) :
    execBgTestStart m s = .next { s with b := { s.b with
      adm.bg := mapPut m ⟨s.tm.cycle, s.tm.tickNumber, mapGet 0 m s.b.adm.bgNext, true⟩ s.b.adm.bg } } := by
  simp only [execBgTestStart, onBody, hdue, if_true]

/-- A test that ends does so 1,024 cycles after its start: the next region is due, and a failing one is repaired or held. -/
theorem execBgTestEnd_eq {s : State} {m : Nat} {x : BgTest} {failing spare : Bool} (hx : mapFind m s.b.adm.bg = some x)
    (hrunning : x.running = true) (hspare : failing = true → spare = s.b.spareLeft m (x.region / 16)) :
    let d := (Dev.mk s.tm s.b).waitCycle (x.start + 1024)
    let b1 := ({ d.b with adm.bg := mapPut m { x with running := false } d.b.adm.bg } : Body).bgAdvance m x.region
    execBgTestEnd m failing spare s =
      .next { s with tm := d.tm, b := if failing then b1.bgFault m x.region else b1 } := by
  have hends : (x.running && (!failing || spare == s.b.spareLeft m (x.region / 16))) = true := by
    cases failing with
    | false => simp [hrunning]
    | true => simp [hrunning, hspare rfl]
  simp only [execBgTestEnd, onDev, hx, hends, if_true]

/-! Errors by memory. -/

/-- An error counts and records its address. -/
def Body.noteError (b : Body) (m a : Nat) : Body :=
  (b.bump clsMemregion m FMem.uncorrectable 1).fset clsMemregion m FMem.lastErrAddr (a / 8 * 8)

section
variable {b : Body} {tm : Time} {m a j : Nat}

theorem memoryError_eq : b.memoryError tm m a j =
    if m = 0 then (b.noteError m a).packetError a
    else if m = 1 then (b.noteError m a).queueError a
    else if m = 2 then (b.noteError m a).tableError (a / 16)
    else if m = 3 then ((b.noteError m a).resetBasin (fun _ i => decide (i = slotInst (a / 16)))).ring 100
    else if m = 4 then
      if j < 4 then (b.noteError m a).trapBiv tm (bivHart j) 0x06 ((b.noteError m a).bivWord j) a else b.noteError m a
    else if m < 0x200 then (b.noteError m a).retireOne tm (m - 0x100) 1
    else (b.noteError m a).retireCluster tm (m - 0x200) := rfl

theorem memoryError_packet (hm : m = 0) : b.memoryError tm m a j = (b.noteError m a).packetError a := by
  rw [memoryError_eq, if_pos hm]

theorem memoryError_queue (hm : m = 1) : b.memoryError tm m a j = (b.noteError m a).queueError a := by
  rw [memoryError_eq, if_neg (by omega), if_pos hm]

theorem memoryError_table (hm : m = 2) : b.memoryError tm m a j = (b.noteError m a).tableError (a / 16) := by
  rw [memoryError_eq, if_neg (by omega), if_neg (by omega), if_pos hm]

theorem memoryError_basin (hm : m = 3) : b.memoryError tm m a j =
    ((b.noteError m a).resetBasin (fun _ i => decide (i = slotInst (a / 16)))).ring 100 := by
  rw [memoryError_eq, if_neg (by omega), if_neg (by omega), if_neg (by omega), if_pos hm]

theorem memoryError_bivouac (hm : m = 4) (hj : j < 4) : b.memoryError tm m a j =
    (b.noteError m a).trapBiv tm (bivHart j) 0x06 (b.bivWord j) a := by
  rw [memoryError_eq, if_neg (by omega), if_neg (by omega), if_neg (by omega), if_neg (by omega), if_pos hm, if_pos hj]
  rfl

theorem memoryError_core (hlo : 0x100 ≤ m) (hhi : m < 0x180) :
    b.memoryError tm m a j = (b.noteError m a).retireOne tm (m - 0x100) 1 := by
  rw [memoryError_eq, if_neg (by omega), if_neg (by omega), if_neg (by omega), if_neg (by omega), if_neg (by omega),
    if_pos (by omega)]

theorem memoryError_cluster (hlo : 0x200 ≤ m) :
    b.memoryError tm m a j = (b.noteError m a).retireCluster tm (m - 0x200) := by
  rw [memoryError_eq, if_neg (by omega), if_neg (by omega), if_neg (by omega), if_neg (by omega), if_neg (by omega),
    if_neg (by omega)]

/-- A buffer in use is poisoned. -/
theorem poisonAt_eq {h : Nat} {x : Buf} (hbuffer : b.bufferAt a = some h) (hx : b.buf? h = some x) : b.poisonAt a =
    ((b.setBuf h { x with poison := true }).bump clsPool (handlePool h) FPool.poisoned 1).ring 99 := by
  unfold Body.poisonAt
  rw [hbuffer]
  dsimp only
  rw [hx]

theorem packetError_frame (ha : 0x1840000 ≤ a) : b.packetError a = b.poisonAt (a - 0x1840000) := if_pos ha

/-- A line that is not bad yet becomes bad, and the table of its entry stores one entry less. -/
theorem tableError_first {n k : Nat} (hk : b.tableAt n = some k) :
    let b2 := (b.bump clsTable k FTable.uncorrectable 1).fset clsTable k FTable.lastEccLine n
    (∀ l, b2.line? n = some l → l.bad = false) →
    let b3 := b2.loseEntry n
    let lost : Line := ⟨((b3.line? n).map Line.data).getD 0, true⟩
    b.tableError n = ({ b3 with tab.lines := mapPut n lost b3.tab.lines } : Body).ring 96 := by
  intro b2 hgood
  have hnotBad : (b2.line? n).any (fun l => l.bad) = false := by
    cases hl : b2.line? n with
    | none => rfl
    | some l => exact hgood l hl
  simp only [Body.tableError, hk]
  rw [if_neg (by rw [hnotBad]; decide)]

end

end Sys2Proof.Machine

namespace Sys2Proof
open Machine

/-- Settles O40: each command where its event can occur, and an error by the memory that it strikes. -/
theorem memoryErrors : Obligations.MemoryErrors := by
  unfold Obligations.MemoryErrors
  refine ⟨⟨fun s m a j => execMemoryUncorrectable_eq j, fun s m => execBgTestStart_eq, fun s m x hx hrunning => ?_⟩,
    fun b tm m a j ha => ?_⟩
  · exact ⟨fun spare => execBgTestEnd_eq hx hrunning (fun h => absurd h (by decide)),
      execBgTestEnd_eq hx hrunning fun _ => rfl⟩
  · refine ⟨fun h x hm hlo hbuffer hx => ?_, memoryError_queue, fun k hm hk hgood => ?_, memoryError_basin,
      memoryError_bivouac, memoryError_core, memoryError_cluster⟩
    · rw [memoryError_packet hm, packetError_frame hlo]
      exact poisonAt_eq hbuffer hx
    · rw [memoryError_table hm, Body.noteError]
      generalize (b.bump clsMemregion m FMem.uncorrectable 1).fset clsMemregion m FMem.lastErrAddr (a / 8 * 8) = c at *
      generalize a / 16 = n at *
      exact tableError_first hk hgood

end Sys2Proof
end

section
/-! Loads and stores (R148, R187 to R189, R397, R405): what an access reads or changes at the place where it lands, and what a
core commit leaves of the registers. -/

namespace Sys2Proof.Machine

/-! What a core commit leaves of its hart. -/

section
variable (b : Body) (tm : Time) (h cycles pc : Nat) (regs : SMap Word)

/-- Of its hart a core commit changes neither registers nor flags, and takes the next address. -/
theorem Body.hart_coreCommit_frame : ((b.coreCommit tm h cycles pc regs).hart h).regs = (b.hart h).regs ∧
    ((b.coreCommit tm h cycles pc regs).hart h).flags = (b.hart h).flags ∧
    ((b.coreCommit tm h cycles pc regs).hart h).pc = pc % 2 ^ 16 := by
  by_cases hh : h < 1024
  · rw [Body.hart_coreCommit_thread _ _ _ _ _ hh]
    exact ⟨rfl, rfl, rfl⟩
  · rw [Body.hart_coreCommit_biv _ _ _ _ _ (by omega)]
    exact ⟨rfl, rfl, rfl⟩

/-- The same once the buffers and records that the instruction may have moved have settled. -/
theorem Body.hart_commitSettle : let t := (b.coreCommit tm h cycles pc regs).settle tm
    t.mem = b.mem ∧ (t.hart h).flags = (b.hart h).flags ∧ (t.hart h).pc = pc % 2 ^ 16 ∧ ∀ q, t.reg h q = b.reg h q := by
  intro t
  obtain ⟨hregs, hflags, hpc⟩ := b.hart_coreCommit_frame tm h cycles pc regs
  have hhart : t.hart h = (b.coreCommit tm h cycles pc regs).hart h := Body.settle_hart ..
  refine ⟨(Body.settle_mem ..).trans (b.coreCommit_sameParts tm cycles pc regs).mem, ?_, ?_, fun q => ?_⟩
  · rw [hhart, hflags]
  · rw [hhart, hpc]
  · rw [Body.reg, Body.reg, hhart, Hart.reg, Hart.reg, hregs]

end

/-- The address after an instruction is one of instruction memory. -/
theorem State.after_mod (s : State) (h : Nat) : s.after h % 2 ^ 16 = s.after h := Nat.mod_mod ..

/-! Bytes read as a number. -/

theorem leNat_lt (l : List Byte) : leNat l < 256 ^ l.length := by
  induction l with
  | nil => decide
  | cons v r ih =>
    have hv : v.toNat < 256 := v.isLt
    rw [leNat, List.length_cons, Nat.pow_succ]
    omega

/-- The number that a load finds at a place has as many bytes as it asks for. -/
theorem loadAt_lt (b : Body) (h : Nat) (p : Place) (n : Nat) : (b.loadAt h p n).1 < 256 ^ n := by
  have hread (m : Memory) (a : Nat) : readLE m a n < 256 ^ n := by
    have := leNat_lt (readBytes m a n)
    rwa [length_readBytes] at this
  rcases p with a | a | a | a | _
  · exact hread _ _
  · exact hread _ _
  · exact hread _ _
  · have := leNat_lt (b.dramRead 6 0 a n).1
    rwa [show (b.dramRead 6 0 a n).1.length = n by simp [Body.dramRead, Body.dramBytes]] at this
  · exact Nat.pos_of_ne_zero (by positivity)

/-- A byte or a halfword extended with its highest bit. -/
theorem ofInt_signedOf {w : Nat} (v : Nat) (hw : 0 < w) :
    BitVec.ofInt 32 (signedOf w v) = (BitVec.ofNat w v).signExtend 32 := by
  rw [signedOf_eq_toInt w v hw]
  rfl

/-- A byte or a halfword extended with zeros. -/
theorem zeroExtend_ofNat {w v : Nat} (hv : v < 2 ^ w) : (BitVec.ofNat w v).zeroExtend 32 = BitVec.ofNat 32 v := by
  apply BitVec.eq_of_toNat_eq
  rw [BitVec.toNat_setWidth, BitVec.toNat_ofNat, BitVec.toNat_ofNat, Nat.mod_eq_of_lt hv]

/-! The instructions. -/

section
variable {s : State} {h n major : Nat} {f : FmtM} {p : Place}

theorem loadInsn_done {sx : Bool} (hi : Issues s h p.cycles) (hindex : indexReserved f = false)
    (halign : ((s.b.hart h).ea f).1.toNat % n = 0)
    (hplace : s.b.place h ((s.b.hart h).ea f).1.toNat n true false = some p) (hfree : s.b.placeHeld p n = false) :
    let v := (s.issued h).loadAt h p n
    loadInsn h f major n sx s = .next (s.committed h ((v.2.writeBack h f ((s.b.hart h).ea f).2).setReg h f.rt
      (if sx then BitVec.ofInt 32 (signedOf (8 * n) v.1) else BitVec.ofNat 32 v.1)) p.cycles (s.after h)) := by
  have hheld : (s.issued h).placeHeld p n = false := hfree
  exact insn_done hi (badWord_fine rfl hindex) (by simp [halign, hplace, hheld]) rfl

theorem storeInsn_done (hi : Issues s h p.cycles) (hindex : indexReserved f = false)
    (halign : ((s.b.hart h).ea f).1.toNat % n = 0)
    (hplace : s.b.place h ((s.b.hart h).ea f).1.toNat n false true = some p) (hfree : s.b.placeHeld p n = false) :
    storeInsn h f major n s = .next { s with
      b := ((((s.issued h).storeAt h p n (s.b.reg h f.rt).toNat).writeBack h f ((s.b.hart h).ea f).2).coreCommit s.tm h
        p.cycles (s.after h) (s.b.hart h).regs).settle s.tm } := by
  have hheld : (s.issued h).placeHeld p n = false := hfree
  exact insnBuf_done hi (badWord_fine rfl hindex) (by simp [halign, hplace, hheld]) rfl

end

/-! Stores into the memories on chip. -/

/-- A write-back changes the base register alone. -/
theorem reg_writeBack (b : Body) (h : Nat) (f : FmtM) (wb : Option Word) (q : BitVec 5) :
    (b.writeBack h f wb).reg h q = if q = f.ra ∧ q ≠ 0 then wb.getD (b.reg h q) else b.reg h q := by
  cases wb with
  | none => simp [Body.writeBack]
  | some v =>
    rw [Body.writeBack, Body.setReg, Body.reg, Body.hart_modHart_self, Hart.reg_setReg]
    by_cases hq : q = f.ra
    · subst hq; rfl
    · simp [hq, Body.reg]

theorem writeBack_frame (b : Body) (h : Nat) (f : FmtM) (wb : Option Word) :
    (b.writeBack h f wb).mem = b.mem ∧ ((b.writeBack h f wb).hart h).flags = (b.hart h).flags := by
  cases wb with
  | none => exact ⟨rfl, rfl⟩
  | some v =>
    refine ⟨rfl, ?_⟩
    rw [Body.writeBack, Body.setReg, Body.hart_modHart_self, Hart.setReg]
    split <;> rfl

section
variable (s : State) (h : Nat) (f : FmtM) (wb : Option Word) (cycles : Nat) (g : Mems)

/-- The state after a store that left the memories `g`. -/
def State.stored : State := { s with
  b := ((({ s.issued h with mem := g } : Body).writeBack h f wb).coreCommit s.tm h cycles (s.after h)
    (s.b.hart h).regs).settle s.tm }

theorem State.stored_frame : (s.stored h f wb cycles g).b.mem = g ∧
    ((s.stored h f wb cycles g).b.hart h).flags = (s.b.hart h).flags ∧
    ((s.stored h f wb cycles g).b.hart h).pc = s.after h ∧
    ∀ q, (s.stored h f wb cycles g).b.reg h q =
      if q = f.ra ∧ q ≠ 0 then wb.getD (s.b.reg h q) else s.b.reg h q := by
  obtain ⟨hmem, hflags, hpc, hreg⟩ := (({ s.issued h with mem := g } : Body).writeBack h f wb).hart_commitSettle s.tm h
    cycles (s.after h) (s.b.hart h).regs
  obtain ⟨hmem', hflags'⟩ := writeBack_frame ({ s.issued h with mem := g } : Body) h f wb
  have hhart : (({ s.issued h with mem := g } : Body).hart h) = { s.b.hart h with block := .none } := s.issued_hart h
  refine ⟨hmem.trans hmem', hflags.trans (hflags'.trans (by rw [hhart])), hpc.trans (s.after_mod h), fun q => ?_⟩
  have hq : ({ s.issued h with mem := g } : Body).reg h q = s.b.reg h q := s.issued_reg h q
  exact (hreg q).trans (by rw [reg_writeBack, hq])

end

/-- The bytes of a store stand where it wrote them, and no other byte changed. -/
theorem writeLE_frame (m : Memory) (k n v : Nat) : readLE (writeLE m k n v) k n = v % 2 ^ (8 * n) ∧
    ∀ y, y < k ∨ k + n ≤ y → readByte (writeLE m k n v) y = readByte m y :=
  ⟨by rw [readLE_writeLE, Nat.pow_mul],
    fun y hy => readByte_writeBytes_outside _ m k y (by rwa [length_leBytes])⟩

end Sys2Proof.Machine

namespace Sys2Proof
open Machine

/-- Settles O48: a load gives what its place holds, a store leaves memory as it was but for its bytes. -/
theorem loadStoreResults : Obligations.LoadStoreResults := by
  unfold Obligations.LoadStoreResults
  refine ⟨fun x f => rfl, fun s h f p hi hindex => ?_, fun s h f p n i hi hindex hcases => ?_⟩
  · intro ea a rd done
    have hload (n : Nat) (w : Word) : done n w = .next (s.committed h
        ((((s.issued h).loadAt h p n).2.writeBack h f ea.2).setReg h f.rt w) p.cycles (s.after h)) := by
      cases p <;> rfl
    have hread (n : Nat) : rd n = ((s.issued h).loadAt h p n).1 := by cases p <;> rfl
    have hlt (n : Nat) : rd n < 256 ^ n := hread n ▸ loadAt_lt ..
    have hsigned (n : Nat) (hn : 0 < 8 * n) :
        BitVec.ofInt 32 (signedOf (8 * n) ((s.issued h).loadAt h p n).1) = (BitVec.ofNat (8 * n) (rd n)).signExtend 32 := by
      rw [hread, ofInt_signedOf _ hn]
    refine ⟨fun hplace hfree => ⟨?_, ?_⟩, fun hplace halign hfree => ⟨?_, ?_⟩, fun hplace halign hfree => ?_⟩
    · refine (loadInsn_done hi hindex (Nat.mod_one _) hplace hfree).trans ?_
      rw [hload, if_pos rfl, hsigned 1 (by decide)]
    · refine (loadInsn_done hi hindex (Nat.mod_one _) hplace hfree).trans ?_
      rw [hload, if_neg (by decide), zeroExtend_ofNat (hlt 1), hread]
    · refine (loadInsn_done hi hindex halign hplace hfree).trans ?_
      rw [hload, if_pos rfl, hsigned 2 (by decide)]
    · refine (loadInsn_done hi hindex halign hplace hfree).trans ?_
      rw [hload, if_neg (by decide), zeroExtend_ofNat (hlt 2), hread]
    · refine (loadInsn_done hi hindex halign hplace hfree).trans ?_
      rw [hload, if_neg (by decide), hread]
  · intro ea a v halign hplace stored
    obtain ⟨major, hexec⟩ : ∃ major, exec i s = storeInsn h f major n s := by
      obtain ⟨rfl, rfl⟩ | ⟨rfl, rfl⟩ | ⟨rfl, rfl⟩ := hcases
      · exact ⟨_, rfl⟩
      · exact ⟨_, rfl⟩
      · exact ⟨_, rfl⟩
    have hstore (hfree : s.b.placeHeld p n = false) := hexec.trans (storeInsn_done hi hindex halign hplace hfree)
    have hmem (g : Mems) : (s.stored h f ea.2 p.cycles g).b.mem = g := (s.stored_frame h f ea.2 p.cycles g).1
    have hpart {g : Mems} (part : Mems → Memory) : part (s.stored h f ea.2 p.cycles g).b.mem = part g :=
      congrArg part (hmem g)
    have hstored {g : Mems} (part : Mems → Memory) {k : Nat} (hg : part g = writeLE (part s.b.mem) k n v) :
        stored (s.stored h f ea.2 p.cycles g) part k := by
      obtain ⟨-, hflags, hpc, hreg⟩ := s.stored_frame h f ea.2 p.cycles g
      obtain ⟨hread, hout⟩ := writeLE_frame (part s.b.mem) k n v
      refine ⟨rfl, rfl, ?_, ?_, hflags, hpc, hreg⟩
      · rw [hmem, hg, hread]
      · rw [hmem, hg]
        exact hout
    refine ⟨fun hp => ?_, fun hp => ?_, fun hp hplain => ?_, fun hp hlo hhi hword => ?_, fun hp => ?_, fun d hp hfree => ?_⟩
    all_goals subst hp
    · exact ⟨_, hstore rfl, hstored Mems.lmem rfl, hpart Mems.spad, hpart Mems.dram, hpart Mems.imem, hpart Mems.bmem⟩
    · exact ⟨_, hstore rfl, hstored Mems.spad rfl, hpart Mems.lmem, hpart Mems.dram, hpart Mems.imem, hpart Mems.bmem⟩
    · have hbiv : (s.issued h).storeAt h (.biv a) n v =
          { s.issued h with mem := { s.b.mem with bmem := writeLE s.b.mem.bmem a n v } } := if_neg hplain
      rw [hbiv] at hstore
      exact ⟨_, hstore rfl, hstored Mems.bmem rfl, hpart Mems.lmem, hpart Mems.spad, hpart Mems.dram, hpart Mems.imem⟩
    · have hbiv : (s.issued h).storeAt h (.biv a) n v =
          ({ s.issued h with mem.bmem := writeLE s.b.mem.bmem a n v } : Body).txRecordAct ((a - 0x7F8200) / 16) :=
        if_pos ⟨hlo, hhi, hword⟩
      exact (hstore rfl).trans (by rw [hbiv]; rfl)
    · exact hstore rfl
    · exact hstore hfree

end Sys2Proof
end

section
/-! Calls and returns of a thread (R152, R185, R186): words stored and restored one after another in one memory, and the
instructions whose save area lies there. -/

namespace Sys2Proof.Machine

/-! Words in a memory. -/

/-- Words written from an address upwards. -/
def writeWords (m : Memory) (a : Nat) : List Word → Memory
  | [] => m
  | v :: r => writeWords (writeLE m a 4 v.toNat) (a + 4) r

theorem readBytes_congr {m m' : Memory} {a n : Nat} (h : ∀ y, a ≤ y → y < a + n → readByte m y = readByte m' y) :
    readBytes m a n = readBytes m' a n := by
  induction n generalizing a with
  | zero => rfl
  | succ n ih =>
    rw [readBytes, readBytes, h a (by omega) (by omega), ih fun y hy hlt => h y (by omega) (by omega)]

theorem readByte_writeWords_outside {m : Memory} {a y : Nat} {l : List Word} (h : y < a ∨ a + 4 * l.length ≤ y) :
    readByte (writeWords m a l) y = readByte m y := by
  induction l generalizing m a with
  | nil => rfl
  | cons v r ih =>
    rw [List.length_cons] at h
    rw [writeWords, ih (by omega)]
    exact readByte_writeBytes_outside _ m a y (by rw [length_leBytes]; omega)

theorem readLE_writeWords {m : Memory} {a k : Nat} {l : List Word} (hk : k < l.length) :
    readLE (writeWords m a l) (a + 4 * k) 4 = (l[k]).toNat := by
  induction l generalizing m a k with
  | nil => exact absurd hk (Nat.not_lt_zero k)
  | cons v r ih =>
    cases k with
    | zero =>
      have hfirst : readBytes (writeWords (writeLE m a 4 v.toNat) (a + 4) r) a 4 = readBytes (writeLE m a 4 v.toNat) a 4 :=
        readBytes_congr fun y _ hy => readByte_writeWords_outside (by omega)
      have hv : v.toNat < 256 ^ 4 := v.isLt
      exact (congrArg leNat hfirst).trans ((readLE_writeLE m a 4 v.toNat).trans (Nat.mod_eq_of_lt hv))
    | succ k =>
      rw [writeWords, show a + 4 * (k + 1) = a + 4 + 4 * k by omega]
      exact ih (Nat.lt_of_succ_lt_succ hk)

/-! The memory of a save area: local memory or the scratchpad. -/

def savePlace (inLocal : Bool) (a : Nat) : Place := if inLocal then .local a else .scratch a

def saveAddr (inLocal : Bool) (h a : Nat) : Nat := if inLocal then lmemAddr (h / 8) a else spadAddr (h / 64) a

def Mems.save (g : Mems) (inLocal : Bool) : Memory := if inLocal then g.lmem else g.spad

def Mems.setSave (g : Mems) (inLocal : Bool) (m : Memory) : Mems :=
  if inLocal then { g with lmem := m } else { g with spad := m }

section
variable {b : Body} {h a n : Nat} {inLocal : Bool}

@[simp] theorem Mems.save_setSave (g : Mems) (m : Memory) : (g.setSave inLocal m).save inLocal = m := by
  cases inLocal <;> rfl

@[simp] theorem Mems.setSave_setSave (g : Mems) (m m' : Memory) :
    (g.setSave inLocal m).setSave inLocal m' = g.setSave inLocal m' := by
  cases inLocal <;> rfl

theorem loadAt_savePlace : b.loadAt h (savePlace inLocal a) n = (readLE (b.mem.save inLocal) (saveAddr inLocal h a) n, b) := by
  cases inLocal <;> rfl

theorem storeAt_savePlace (v : Nat) : b.storeAt h (savePlace inLocal a) n v =
    { b with mem := b.mem.setSave inLocal (writeLE (b.mem.save inLocal) (saveAddr inLocal h a) n v) } := by
  cases inLocal <;> rfl

/-- A place of a thread is one of `threadPlace` that a region grants. -/
theorem place_thread {r w : Bool} {p : Place} (hh : h < 1024) (hp : b.place h a n r w = some p) :
    threadPlace h a n = some p := by
  unfold Body.place at hp
  rw [if_pos hh] at hp
  dsimp only at hp
  cases ht : threadPlace h a n with
  | none => rw [ht] at hp; exact absurd hp (by simp)
  | some q =>
    have hq : q = .local a ∨ q = .scratch a := by
      unfold threadPlace at ht
      dsimp only at ht
      split at ht
      · exact .inl (Option.some.inj ht).symm
      · split at ht
        · exact .inr (Option.some.inj ht).symm
        · exact absurd ht (by simp)
    rw [ht] at hp
    rcases hq with rfl | rfl <;> (dsimp only at hp; split at hp; exact hp; exact absurd hp (by simp))

/-- No access of a thread waits for a channel of external memory. -/
theorem placeHeld_thread {r w : Bool} {p : Place} (hh : h < 1024) (hp : b.place h a n r w = some p) (k : Nat) :
    b.placeHeld p k = false := by
  have ht := place_thread hh hp
  unfold threadPlace at ht
  dsimp only at ht
  split at ht
  · exact Option.some.inj ht ▸ rfl
  · split at ht
    · exact Option.some.inj ht ▸ rfl
    · exact absurd ht (by simp)

theorem wordsHeld_thread (hh : h < 1024) : b.wordsHeld h a n = false := by
  rw [Body.wordsHeld, List.any_eq_false]
  intro k _
  cases hp : b.place h (a + 4 * k) 4 false false with
  | none => simp
  | some p => simp [placeHeld_thread hh hp]

/-- Words at which a save area lies have consecutive places in its memory. -/
theorem saveAddr_add {k : Nat} {r w : Bool} (hh : h < 1024) (hfirst : b.place h a 4 r w = some (savePlace inLocal a))
    (hp : b.place h (a + 4 * k) 4 r w = some (savePlace inLocal (a + 4 * k))) :
    saveAddr inLocal h (a + 4 * k) = saveAddr inLocal h a + 4 * k := by
  cases inLocal with
  | true => exact (Nat.add_assoc ..).symm
  | false =>
    have hrange {x : Nat} (hx : threadPlace h x 4 = some (.scratch x)) : 0x10000000 ≤ x ∧ x + 4 ≤ 0x10100000 := by
      unfold threadPlace at hx
      dsimp only at hx
      split at hx
      · exact absurd hx (by simp)
      · split at hx
        · assumption
        · exact absurd hx (by simp)
    obtain ⟨hlo, hhi⟩ := hrange (place_thread hh hfirst)
    obtain ⟨hlo', hhi'⟩ := hrange (place_thread hh hp)
    change spadAddr (h / 64) (a + 4 * k) = spadAddr (h / 64) a + 4 * k
    unfold spadAddr
    omega

theorem wordsDenied_none {r w : Bool}
    (hp : ∀ k, k < n → b.place h (a + 4 * k) 4 r w = some (savePlace inLocal (a + 4 * k))) :
    b.wordsDenied h a n r w = none := by
  rw [Body.wordsDenied, List.find?_eq_none]
  intro x hx
  obtain ⟨k, hk, rfl⟩ := List.mem_map.mp hx
  rw [hp k (List.mem_range.mp hk)]
  exact Bool.false_ne_true

/-- Words stored in a save area stand one after another in its memory. -/
theorem storeWords_eq {l : List Word} {x : Nat} (hp : ∀ k, k < l.length →
      b.place h (a + 4 * k) 4 false true = some (savePlace inLocal (a + 4 * k)))
    (hx : ∀ k, k < l.length → saveAddr inLocal h (a + 4 * k) = x + 4 * k) :
    b.storeWords h a l = { b with mem := b.mem.setSave inLocal (writeWords (b.mem.save inLocal) x l) } := by
  induction l generalizing b a x with
  | nil => cases inLocal <;> rfl
  | cons v r ih =>
    have hpos : 0 < (v :: r).length := Nat.succ_pos _
    have hfirst : b.place h a 4 false true = some (savePlace inLocal a) := hp 0 hpos
    have haddr : saveAddr inLocal h a = x := hx 0 hpos
    rw [Body.storeWords, hfirst]
    dsimp only
    rw [storeAt_savePlace, haddr, ih (x := x + 4) (fun k hk => ?_) (fun k hk => ?_)]
    · dsimp only
      rw [Mems.save_setSave, Mems.setSave_setSave]
      rfl
    · rw [show a + 4 + 4 * k = a + 4 * (k + 1) by omega]
      exact hp (k + 1) (Nat.succ_lt_succ hk)
    · rw [show a + 4 + 4 * k = a + 4 * (k + 1) by omega, show x + 4 + 4 * k = x + 4 * (k + 1) by omega]
      exact hx (k + 1) (Nat.succ_lt_succ hk)

/-- Words restored from a save area: memory and flags stay, a register that is named gets its word and no other changes. -/
theorem loadRegs_frame {l : List (BitVec 5)} {x : Nat} (hp : ∀ k, k < l.length →
      b.place h (a + 4 * k) 4 true false = some (savePlace inLocal (a + 4 * k)))
    (hx : ∀ k, k < l.length → saveAddr inLocal h (a + 4 * k) = x + 4 * k) (hl : l.Nodup) (h0 : 0 ∉ l) :
    (b.loadRegs h a l).mem = b.mem ∧ ((b.loadRegs h a l).hart h).flags = (b.hart h).flags ∧
    (∀ q, q ∉ l → (b.loadRegs h a l).reg h q = b.reg h q) ∧
    ∀ k (hk : k < l.length), (b.loadRegs h a l).reg h l[k] = BitVec.ofNat 32 (readLE (b.mem.save inLocal) (x + 4 * k) 4) := by
  induction l generalizing b a x with
  | nil => exact ⟨rfl, rfl, fun _ _ => rfl, fun k hk => absurd hk (Nat.not_lt_zero k)⟩
  | cons r l ih =>
    have hpos : 0 < (r :: l).length := Nat.succ_pos _
    have hfirst : b.place h a 4 true false = some (savePlace inLocal a) := hp 0 hpos
    have haddr : saveAddr inLocal h a = x := hx 0 hpos
    obtain ⟨hr, hnodup⟩ := List.nodup_cons.mp hl
    obtain ⟨hr0, h0'⟩ := not_or.mp (mt List.mem_cons.mpr h0)
    let v : Word := BitVec.ofNat 32 (readLE (b.mem.save inLocal) x 4)
    have hstep : b.loadRegs h a (r :: l) = (b.setReg h r v).loadRegs h (a + 4) l := by
      rw [Body.loadRegs, hfirst]
      dsimp only
      rw [loadAt_savePlace, haddr]
    have hset (q : BitVec 5) : (b.setReg h r v).reg h q = if q = r then v else b.reg h q := by
      rw [Body.setReg, Body.reg, Body.hart_modHart_self, Hart.reg_setReg]
      simp only [Ne.symm hr0, ne_eq, not_false_eq_true, and_true]
      rfl
    have hflags : ((b.setReg h r v).hart h).flags = (b.hart h).flags := by
      rw [Body.setReg, Body.hart_modHart_self, Hart.setReg]
      split <;> rfl
    obtain ⟨ihmem, ihflags, ihother, ihword⟩ := ih (b := b.setReg h r v) (a := a + 4) (x := x + 4)
      (fun k hk => by
        rw [show a + 4 + 4 * k = a + 4 * (k + 1) by omega]
        exact hp (k + 1) (Nat.succ_lt_succ hk))
      (fun k hk => by
        rw [show a + 4 + 4 * k = a + 4 * (k + 1) by omega, show x + 4 + 4 * k = x + 4 * (k + 1) by omega]
        exact hx (k + 1) (Nat.succ_lt_succ hk))
      hnodup h0'
    rw [hstep]
    refine ⟨ihmem, ihflags.trans hflags, fun q hq => ?_, fun k hk => ?_⟩
    · obtain ⟨hqr, hql⟩ := not_or.mp (mt List.mem_cons.mpr hq)
      rw [ihother q hql, hset, if_neg hqr]
    · cases k with
      | zero => exact (ihother r hr).trans ((hset r).trans (if_pos rfl))
      | succ k =>
        rw [show x + 4 * (k + 1) = x + 4 + 4 * k by omega]
        exact ihword k (Nat.lt_of_succ_lt_succ hk)

end

/-! The registers of a mask. -/

theorem mem_maskRegs {m : Nat} {q : BitVec 5} : q ∈ maskRegs m ↔ 16 ≤ q.toNat ∧ m.testBit (q.toNat - 16) = true := by
  have hq : q.toNat < 32 := q.isLt
  rw [maskRegs, List.mem_map]
  constructor
  · rintro ⟨k, hk, rfl⟩
    obtain ⟨hrange, hbit⟩ := List.mem_filter.mp hk
    have hlt : k < 16 := List.mem_range.mp hrange
    have hnum : (BitVec.ofNat 5 (16 + k)).toNat = 16 + k := by
      rw [BitVec.toNat_ofNat]
      exact Nat.mod_eq_of_lt (by omega)
    rw [hnum]
    exact ⟨by omega, by rwa [Nat.add_sub_cancel_left]⟩
  · rintro ⟨hlo, hbit⟩
    refine ⟨q.toNat - 16, List.mem_filter.mpr ⟨List.mem_range.mpr (by omega), hbit⟩, ?_⟩
    rw [show 16 + (q.toNat - 16) = q.toNat by omega, BitVec.ofNat_toNat, BitVec.setWidth_eq]

theorem nodup_maskRegs (m : Nat) : (maskRegs m).Nodup := by
  refine List.Nodup.map_on (fun j hj k hk heq => ?_) (List.nodup_range.filter _)
  have hj' : j < 16 := List.mem_range.mp (List.mem_of_mem_filter hj)
  have hk' : k < 16 := List.mem_range.mp (List.mem_of_mem_filter hk)
  have hnum := congrArg BitVec.toNat heq
  rw [BitVec.toNat_ofNat, BitVec.toNat_ofNat, Nat.mod_eq_of_lt (by omega), Nat.mod_eq_of_lt (by omega)] at hnum
  omega

theorem zero_notMem_maskRegs (m : Nat) : (0 : BitVec 5) ∉ maskRegs m := by
  rw [mem_maskRegs]
  exact fun h => absurd h.1 (by decide)

/-! The instructions. -/

/-- The header of a frame and the registers that its mask names. -/
def Body.frameWords (b : Body) (h mask : Nat) : List Word :=
  BitVec.ofNat 32 (b.nextPc h * 2 ^ 16 + mask) :: (maskRegs mask).map (fun r => b.reg h r)

/-- The body at the core commit of a call that stores the frame of `mask` at the address `x` of its memory. -/
def Body.withFrame (b : Body) (inLocal : Bool) (h mask x : Nat) (sp : Word) : Body :=
  ({ b with mem := b.mem.setSave inLocal (writeWords (b.mem.save inLocal) x (b.frameWords h mask)) } : Body).setReg h 31 sp

/-- A write of w31 leaves memory, flags and every other register. -/
theorem setReg_31_frame (b : Body) (h : Nat) (v : Word) : (b.setReg h 31 v).mem = b.mem ∧
    ((b.setReg h 31 v).hart h).flags = (b.hart h).flags ∧
    ∀ q, (b.setReg h 31 v).reg h q = if q = 31 then v else b.reg h q := by
  refine ⟨rfl, ?_, fun q => ?_⟩
  · rw [Body.setReg, Body.hart_modHart_self, Hart.setReg, if_neg (by decide)]
  · rw [Body.setReg, Body.reg, Body.hart_modHart_self, Hart.reg_setReg]
    simp only [ne_eq, show (31 : BitVec 5) ≠ 0 by decide, not_false_eq_true, and_true]
    rfl

theorem Body.withFrame_frame (b : Body) (inLocal : Bool) (h mask x : Nat) (sp : Word) :
    (b.withFrame inLocal h mask x sp).mem =
      b.mem.setSave inLocal (writeWords (b.mem.save inLocal) x (b.frameWords h mask)) ∧
    ((b.withFrame inLocal h mask x sp).hart h).flags = (b.hart h).flags ∧
    ∀ q, (b.withFrame inLocal h mask x sp).reg h q = if q = 31 then sp else b.reg h q :=
  setReg_31_frame _ h sp

/-- The last byte of a frame, which STACK_HI bounds. -/
theorem frameLast {sp n : Nat} (htop : sp + 4 * (n + 1) ≤ 2 ^ 32) :
    (sp + 4 * (n + 1) - 1) % 2 ^ 32 = sp + 4 * (n + 1) - 1 := Nat.mod_eq_of_lt (by omega)

section
variable {b : Body} {h base : Nat} {inLocal : Bool} (hh : h < 1024)
include hh

theorem stackLo_thread : b.stackLo h = b.fget clsThread h FThread.stackLo := if_pos hh

theorem stackHi_thread : b.stackHi h = b.fget clsThread h FThread.stackHi := if_pos hh

omit hh in
theorem length_frameWords (mask : Nat) : (b.frameWords h mask).length = (maskRegs mask).length + 1 := by
  rw [Body.frameWords, List.length_cons, List.length_map]

/-- A call whose frame fits stores it at the new w31. -/
theorem call_done {mask target : Nat} (halign : (b.reg h 31).toNat % 4 = 0)
    (hbase : base + 4 * ((maskRegs mask).length + 1) = (b.reg h 31).toNat) (hlo : b.fget clsThread h FThread.stackLo ≤ base)
    (hp : ∀ k, k < (maskRegs mask).length + 1 →
      b.place h (base + 4 * k) 4 false true = some (savePlace inLocal (base + 4 * k))) :
    b.call h mask target = .done (b.withFrame inLocal h mask (saveAddr inLocal h base) (BitVec.ofNat 32 base))
      (2 + ((maskRegs mask).length + 1)) target := by
  have hsp : (b.reg h 31).toNat < 2 ^ 32 := (b.reg h 31).isLt
  have hmodel : ((b.reg h 31).toNat + 2 ^ 32 - 4 * ((maskRegs mask).length + 1)) % 2 ^ 32 = base := by
    rw [show (b.reg h 31).toNat + 2 ^ 32 - 4 * ((maskRegs mask).length + 1) = base + 2 ^ 32 by omega, Nat.add_mod_right,
      Nat.mod_eq_of_lt (by omega)]
  have hstack : ¬ (base < b.stackLo h ∨ (b.reg h 31).toNat < base) := by
    rw [stackLo_thread hh]
    omega
  have hstore := storeWords_eq (b := b) (h := h) (inLocal := inLocal) (l := b.frameWords h mask)
    (fun k hk => hp k (by rwa [length_frameWords] at hk))
    (fun k hk => saveAddr_add hh (hp 0 (Nat.succ_pos _)) (hp k (by rwa [length_frameWords] at hk)))
  unfold Body.call
  dsimp only
  rw [if_neg (not_not.mpr halign), hmodel, if_neg hstack, wordsDenied_none hp]
  dsimp only
  rw [wordsHeld_thread hh, if_neg Bool.false_ne_true]
  exact congrArg (fun c : Body => Effect.done (c.setReg h 31 (BitVec.ofNat 32 base)) _ target) hstore

/-- The body at the core commit of a return with the header `hd`: its registers are restored, w31 too unless it is one of
them. -/
def Body.returned (b : Body) (h hd : Nat) : Body :=
  let sp := (b.reg h 31).toNat
  let regs := maskRegs (hd % 2 ^ 16)
  let b1 := b.loadRegs h (sp + 4) regs
  if hd.testBit 15 then b1 else b1.setReg h 31 (BitVec.ofNat 32 (sp + 4 * (regs.length + 1)))

/-- What RET does once it has read the header `hd` of its frame. -/
def Body.returnWith (b : Body) (h hd : Nat) : Effect :=
  let sp := (b.reg h 31).toNat
  let regs := maskRegs (hd % 2 ^ 16)
  let top := (sp + 4 * (regs.length + 1) - 1) % 2 ^ 32
  if b.stackHi h < top ∨ top < sp then .trap trStack top
  else match b.wordsDenied h (sp + 4) regs.length true false with
    | some a => .trap trRegion a
    | none =>
      if bitsAt hd 16 2 ≠ 0 then .trap trAlign (hd / 2 ^ 16)
      else if b.wordsHeld h (sp + 4) regs.length then .wait .none
      else .done (b.returned h hd) (2 + (regs.length + 1)) (hd / 2 ^ 16)

theorem ret_eq {sp : Nat} (hsp : (b.reg h 31).toNat = sp) (halign : sp % 4 = 0)
    (hlo : b.fget clsThread h FThread.stackLo ≤ sp) (hp : b.place h sp 4 true false = some (savePlace inLocal sp)) :
    b.ret h = b.returnWith h (readLE (b.mem.save inLocal) (saveAddr inLocal h sp) 4) := by
  subst hsp
  unfold Body.ret
  dsimp only
  rw [if_neg (not_not.mpr halign), if_neg (by rw [stackLo_thread hh]; omega), hp]
  dsimp only
  rw [placeHeld_thread hh hp, if_neg Bool.false_ne_true, loadAt_savePlace]
  rfl

section
variable {hd sp : Nat} (hsp : (b.reg h 31).toNat = sp)
include hsp

/-- A return whose frame is within the stack restores it. -/
theorem returnWith_done :
    let regs := maskRegs (hd % 2 ^ 16)
    let top := sp + 4 * (regs.length + 1)
    top ≤ b.fget clsThread h FThread.stackHi + 1 → top ≤ 2 ^ 32 →
    b.wordsDenied h (sp + 4) regs.length true false = none → bitsAt hd 16 2 = 0 →
    b.returnWith h hd = .done (b.returned h hd) (2 + (regs.length + 1)) (hd / 2 ^ 16) := by
  subst hsp
  intro regs top hhi htop hdenied hpc
  unfold Body.returnWith
  dsimp only
  rw [frameLast htop, if_neg (by rw [stackHi_thread hh]; omega), hdenied]
  dsimp only
  rw [if_neg (not_not.mpr hpc), wordsHeld_thread hh, if_neg Bool.false_ne_true]

/-- A return whose frame reaches beyond the stack traps. -/
theorem returnWith_beyond :
    let top := sp + 4 * ((maskRegs (hd % 2 ^ 16)).length + 1)
    b.fget clsThread h FThread.stackHi + 1 < top → top ≤ 2 ^ 32 → b.returnWith h hd = .trap trStack (top - 1) := by
  subst hsp
  intro top hhi htop
  unfold Body.returnWith
  dsimp only
  rw [frameLast htop, if_pos (by rw [stackHi_thread hh]; omega)]

end

end

/-- An instruction that may move buffers or records, issues and traps has no other effect (R175), but for the cycles that
it waited for its operands. -/
theorem insnBuf_trap {s : State} {h w c a : Nat} {bad : Option Nat} {f : Time → Body → Effect} (hi : Issues s h)
    (hb : bad = none) (hf : f s.tm (s.issued h) = .trap c a) :
    insnBuf h w bad f s = .next { s with b := ((s.b.stall s.tm h).trapAt s.tm h w c a).settle s.tm } := by
  have hrun := insn_trap (w := w) hi hb hf
  injection hrun with hstate
  exact congrArg Host.Outcome.next (congrArg (fun t : State => { s with b := t.b.settle s.tm }) hstate)

/-- The target of a call is a signed distance in words from its address (R173). -/
theorem branchTo_low (pc : Nat) (x : BitVec 10) : branchTo pc 10 x.toNat = ((pc + 4 * x.toInt) % 2 ^ 16).toNat := by
  rw [branchTo, signedOf_eq_toInt 10 _ (by decide), BitVec.ofNat_toNat, BitVec.setWidth_eq]
  rfl

/-- The registers of a mask, by its bits. -/
theorem maskRegs_eq (m : BitVec 16) : maskRegs m.toNat =
    ((List.range 16).filter (fun k => m.getLsbD k)).map (fun k => BitVec.ofNat 5 (16 + k)) := rfl

/-- The mask of a header is in its low half. -/
theorem maskRegs_header (hd : Nat) : maskRegs (hd % 2 ^ 16) =
    ((List.range 16).filter (fun k => hd.testBit k)).map (fun k => BitVec.ofNat 5 (16 + k)) := by
  have hbits : (List.range 16).filter (fun k => (hd % 2 ^ 16).testBit k) = (List.range 16).filter (fun k => hd.testBit k) := by
    refine List.filter_congr fun k hk => ?_
    rw [Nat.testBit_mod_two_pow, decide_eq_true (List.mem_range.mp hk), Bool.true_and]
  rw [maskRegs, hbits]

/-- The next state of an instruction that reached core commit and may have moved buffers or records. -/
theorem exists_commitSettle {s : State} {h n pc : Nat} {b1 : Body} {out : Host.Outcome State Fault Refusal}
    (hout : out = .next { s with b := (b1.coreCommit s.tm h n pc (s.b.hart h).regs).settle s.tm }) :
    ∃ t : Body, out = .next { s with b := t } ∧ t.mem = b1.mem ∧ (t.hart h).flags = (b1.hart h).flags ∧
      (t.hart h).pc = pc % 2 ^ 16 ∧ ∀ q, t.reg h q = b1.reg h q :=
  ⟨_, hout, b1.hart_commitSettle s.tm h n pc (s.b.hart h).regs⟩

/-- A call stores its frame: the header and the words of the registers, and nothing beside them. -/
theorem frame_stored (b : Body) (h : Nat) (mask : BitVec 16) (m : Memory) (x : Nat) :
    let saved := (List.range 16).filter (fun k => mask.getLsbD k)
    let m' := writeWords m x (b.frameWords h mask.toNat)
    readLE m' x 4 = b.nextPc h * 2 ^ 16 + mask.toNat ∧
    (∀ k (hk : k < saved.length), readLE m' (x + 4 * (k + 1)) 4 = (b.reg h (BitVec.ofNat 5 (16 + saved[k]))).toNat) ∧
    ∀ a, a < x ∨ x + 4 * (saved.length + 1) ≤ a → readByte m' a = readByte m a := by
  intro saved m'
  have hlen : (b.frameWords h mask.toNat).length = saved.length + 1 := by
    rw [length_frameWords, maskRegs_eq, List.length_map]
  have hword {k : Nat} (hk : k < saved.length + 1) :
      readLE m' (x + 4 * k) 4 = ((b.frameWords h mask.toNat)[k]'(hlen ▸ hk)).toNat :=
    readLE_writeWords (hlen ▸ hk)
  refine ⟨(hword (Nat.succ_pos _)).trans ?_, fun k hk => (hword (Nat.succ_lt_succ hk)).trans ?_, fun a ha => ?_⟩
  · have hmask : mask.toNat < 2 ^ 16 := mask.isLt
    have hpc : b.nextPc h < 2 ^ 16 := Nat.mod_lt _ (by decide)
    refine (BitVec.toNat_ofNat ..).trans (Nat.mod_eq_of_lt ?_)
    omega
  · simp only [Body.frameWords, maskRegs_eq, List.getElem_cons_succ, List.getElem_map]
    rfl
  · exact readByte_writeWords_outside (by rwa [hlen])

theorem Mems.setSave_other (g : Mems) (inLocal : Bool) (m : Memory) :
    (if inLocal then (g.setSave inLocal m).spad else (g.setSave inLocal m).lmem) = (if inLocal then g.spad else g.lmem) ∧
    (g.setSave inLocal m).dram = g.dram ∧ (g.setSave inLocal m).imem = g.imem ∧ (g.setSave inLocal m).bmem = g.bmem := by
  cases inLocal <;> exact ⟨rfl, rfl, rfl, rfl⟩

/-- A return leaves memory and flags; it restores the registers that its header names, and w31. -/
theorem returned_frame {b : Body} {h hd x sp : Nat} {inLocal : Bool} (hsp : (b.reg h 31).toNat = sp) :
    let regs := maskRegs (hd % 2 ^ 16)
    (∀ k, k < regs.length → b.place h (sp + 4 + 4 * k) 4 true false = some (savePlace inLocal (sp + 4 + 4 * k))) →
    (∀ k, k < regs.length → saveAddr inLocal h (sp + 4 + 4 * k) = x + 4 * k) →
    (b.returned h hd).mem = b.mem ∧ ((b.returned h hd).hart h).flags = (b.hart h).flags ∧
    (∀ k (hk : k < regs.length), (b.returned h hd).reg h regs[k] =
      BitVec.ofNat 32 (readLE (b.mem.save inLocal) (x + 4 * k) 4)) ∧
    (hd.testBit 15 = false → (b.returned h hd).reg h 31 = BitVec.ofNat 32 (sp + 4 * (regs.length + 1))) ∧
    ∀ q, q ≠ 31 → q ∉ regs → (b.returned h hd).reg h q = b.reg h q := by
  subst hsp
  intro regs hp hx
  obtain ⟨hmem, hflags, hother, hword⟩ := loadRegs_frame hp hx (nodup_maskRegs _) (zero_notMem_maskRegs _)
  cases hbit : hd.testBit 15 with
  | true =>
    have hb : b.returned h hd = b.loadRegs h ((b.reg h 31).toNat + 4) regs := if_pos hbit
    rw [hb]
    exact ⟨hmem, hflags, hword, fun h => absurd h (by decide), fun q _ => hother q⟩
  | false =>
    have hb : b.returned h hd = (b.loadRegs h ((b.reg h 31).toNat + 4) regs).setReg h 31
        (BitVec.ofNat 32 ((b.reg h 31).toNat + 4 * (regs.length + 1))) := if_neg (by rw [hbit]; decide)
    obtain ⟨hmem', hflags', hreg'⟩ := setReg_31_frame (b.loadRegs h ((b.reg h 31).toNat + 4) regs) h
      (BitVec.ofNat 32 ((b.reg h 31).toNat + 4 * (regs.length + 1)))
    have h31 : (31 : BitVec 5) ∉ regs := by
      rw [mem_maskRegs, Nat.testBit_mod_two_pow]
      simp [hbit]
    rw [hb]
    refine ⟨hmem'.trans hmem, hflags'.trans hflags, fun k hk => ?_, fun _ => (hreg' 31).trans (if_pos rfl), fun q hq hr => ?_⟩
    · rw [hreg', if_neg fun (heq : regs[k] = 31) => h31 (heq ▸ List.getElem_mem hk), hword]
    · rw [hreg', if_neg hq, hother q hr]

section
variable {s : State} {h n pc : Nat} {mask : BitVec 16} {b1 : Body} (hi : Issues s h n)
include hi

theorem execCall_done {low : BitVec 10} (hcall : (s.issued h).call h mask.toNat
      (((s.b.hart h).pc + 4 * low.toInt) % 2 ^ 16).toNat = .done b1 n pc) :
    execCall h ⟨mask, low⟩ s = .next { s with b := (b1.coreCommit s.tm h n pc (s.b.hart h).regs).settle s.tm } := by
  refine insnBuf_done hi rfl ?_ rfl
  dsimp only
  rw [State.issued_hart, branchTo_low, hcall]

theorem execCallr_done {ra : BitVec 5} (halign : (s.b.reg h ra).toNat % 2 ^ 16 % 4 = 0)
    (hcall : (s.issued h).call h mask.toNat ((s.b.reg h ra).toNat % 2 ^ 16) = .done b1 n pc) :
    execCallr h ⟨mask, ra ++ 0#5⟩ s =
      .next { s with b := (b1.coreCommit s.tm h n pc (s.b.hart h).regs).settle s.tm } := by
  have hra : (ra ++ 0#5).extractLsb' 5 5 = ra := (by decide : ∀ r : BitVec 5, (r ++ 0#5).extractLsb' 5 5 = r) ra
  have hreserved : (ra ++ 0#5).extractLsb' 0 5 = 0 := (by decide : ∀ r : BitVec 5, (r ++ 0#5).extractLsb' 0 5 = 0) ra
  refine insnBuf_done hi (badWord_fine rfl (by rw [hreserved]; rfl)) ?_ rfl
  dsimp only
  rw [hra, State.issued_reg, if_neg (not_not.mpr halign), hcall]

theorem execRet_done (hret : (s.issued h).ret h = .done b1 n pc) :
    execRet h ⟨0, 0⟩ s = .next { s with b := (b1.coreCommit s.tm h n pc (s.b.hart h).regs).settle s.tm } :=
  insnBuf_done hi (badWord_fine rfl rfl) hret rfl

omit hi in
theorem execRet_trap {c a : Nat} (hi : Issues s h) (hret : (s.issued h).ret h = .trap c a) : execRet h ⟨0, 0⟩ s =
    .next { s with b := ((s.b.stall s.tm h).trapAt s.tm h (wordD 0x14 ⟨0, 0⟩) c a).settle s.tm } :=
  insnBuf_trap hi (badWord_fine rfl rfl) hret

end

end Sys2Proof.Machine

namespace Sys2Proof
open Machine

/-- Settles O47: the words of a frame stand one after another in the memory of the save area, whichever it is. -/
theorem callResults : Obligations.CallResults := by
  unfold Obligations.CallResults
  intro s h inLocal hh sp at_ m area other
  have hreg31 : ((s.issued h).reg h 31).toNat = sp := congrArg BitVec.toNat (s.issued_reg h 31)
  have hcell {a n : Nat} {r w : Bool} (hp : ∀ k, k < n → s.b.place h (a + 4 * k) 4 r w = some (at_ (a + 4 * k))) :
      ∀ k, k < n → (s.issued h).place h (a + 4 * k) 4 r w = some (savePlace inLocal (a + 4 * k)) := hp
  refine ⟨fun base target mask i hcase => ?call, ?ret, ?beyond⟩
  case call =>
    intro saved n hi halign hbase hlo hp
    have hlen : (maskRegs mask.toNat).length + 1 = n := by rw [maskRegs_eq, List.length_map]
    have hcall := call_done (b := s.issued h) (inLocal := inLocal) (target := target) hh (hreg31 ▸ halign)
      (by rw [hlen, hreg31]; exact hbase) hlo (hlen ▸ hcell hp)
    rw [hlen] at hcall
    have htarget : target % 2 ^ 16 = target := by
      obtain ⟨low, -, rfl⟩ | ⟨ra, -, rfl, -⟩ := hcase
      · omega
      · exact Nat.mod_mod ..
    have hexec {b1 : Body} (hcall : (s.issued h).call h mask.toNat target = .done b1 (2 + n) target) : exec i s =
        .next { s with b := (b1.coreCommit s.tm h (2 + n) target (s.b.hart h).regs).settle s.tm } := by
      obtain ⟨low, rfl, rfl⟩ | ⟨ra, rfl, rfl, halign'⟩ := hcase
      · exact execCall_done hi hcall
      · exact execCallr_done hi halign' hcall
    obtain ⟨t, hnext, hmem, hflags, hpc, hreg⟩ := exists_commitSettle (hexec hcall)
    obtain ⟨hmem', hflags', hreg'⟩ := (s.issued h).withFrame_frame inLocal h mask.toNat (m base) (BitVec.ofNat 32 base)
    obtain ⟨hheader, hword, hout⟩ := frame_stored (s.issued h) h mask (area s.b) (m base)
    obtain ⟨hother, hdram, himem, hbmem⟩ := s.b.mem.setSave_other inLocal
      (writeWords (area s.b) (m base) ((s.issued h).frameWords h mask.toNat))
    have hpart {α : Type} (part : Mems → α) := congrArg part (hmem.trans hmem')
    have harea := (hpart fun g => g.save inLocal).trans (Mems.save_setSave ..)
    have hread (a : Nat) := congrArg (fun g => readLE g a 4) harea
    refine ⟨_, hnext, rfl, rfl, hpc.trans htarget, hflags.trans (hflags'.trans ?_), fun q => (hreg q).trans ((hreg' q).trans ?_),
      (hread _).trans (hheader.trans ?_), fun k hk => (hread _).trans ((hword k hk).trans ?_),
      fun a ha => (congrArg (fun g => readByte g a) harea).trans (hout a ha),
      (hpart fun g => if inLocal then g.spad else g.lmem).trans hother, (hpart Mems.dram).trans hdram,
      (hpart Mems.imem).trans himem, (hpart Mems.bmem).trans hbmem⟩
    · rw [State.issued_hart]
    · rw [State.issued_reg]
    · rw [State.issued_nextPc]
    · rw [State.issued_reg]
  case ret =>
    intro word saved n top hi halign hlo hhi htop hpc hp
    have hregs : maskRegs (word 0 % 2 ^ 16) = saved.map (fun k => BitVec.ofNat 5 (16 + k)) := maskRegs_header (word 0)
    have hlen : (maskRegs (word 0 % 2 ^ 16)).length = saved.length := by rw [hregs, List.length_map]
    have haddr {k : Nat} (hk : k < n) : saveAddr inLocal h (sp + 4 * k) = m sp + 4 * k :=
      saveAddr_add hh (hcell hp 0 (Nat.succ_pos _)) (hcell hp k hk)
    have hnext (k : Nat) : sp + 4 + 4 * k = sp + 4 * (k + 1) := by omega
    have hcell' (k : Nat) (hk : k < (maskRegs (word 0 % 2 ^ 16)).length) :
        (s.issued h).place h (sp + 4 + 4 * k) 4 true false = some (savePlace inLocal (sp + 4 + 4 * k)) := by
      rw [hnext]
      exact hcell hp (k + 1) (by omega)
    have hret := (ret_eq (inLocal := inLocal) hh hreg31 halign hlo (hcell hp 0 (Nat.succ_pos _))).trans
      (returnWith_done (hd := word 0) hh hreg31 (hlen ▸ hhi) (hlen ▸ htop) (wordsDenied_none hcell') hpc)
    rw [hlen] at hret
    obtain ⟨hmem', hflags', hword', h31, hother⟩ := returned_frame (hd := word 0) (x := m sp + 4) hreg31 hcell'
      fun k hk => by rw [hnext, haddr (by omega)]; omega
    obtain ⟨t, hexec, hmem, hflags, hpc', hreg⟩ := exists_commitSettle (execRet_done hi hret)
    refine ⟨_, hexec, rfl, rfl, hmem.trans hmem', hpc'.trans ?_,
      hflags.trans (hflags'.trans ?_), fun k hk => ?_, fun hbit => (hreg 31).trans ((h31 hbit).trans ?_),
      fun q hq hsaved => (hreg q).trans ((hother q hq ?_).trans (s.issued_reg h q))⟩
    · have hword : word 0 < 256 ^ (readBytes (area s.b) (m sp + 4 * 0) 4).length := leNat_lt _
      rw [length_readBytes] at hword
      omega
    · rw [State.issued_hart]
    · have hk' := hword' k (by omega)
      simp only [hregs, List.getElem_map] at hk'
      rw [show m sp + 4 + 4 * k = m sp + 4 * (k + 1) by omega] at hk'
      exact (hreg _).trans hk'
    · rw [hlen]
    · rw [mem_maskRegs, Nat.testBit_mod_two_pow, Bool.and_eq_true]
      rintro ⟨hlo, -, hbit⟩
      exact hsaved.elim (by omega) fun hclear => absurd (hclear.symm.trans hbit) (by decide)
  case beyond =>
    intro saved top hi halign hlo hhi htop hp
    have hlen : (maskRegs (readLE (area s.b) (m sp) 4 % 2 ^ 16)).length = saved.length := by
      rw [maskRegs_header, List.length_map]
    have hret := (ret_eq (inLocal := inLocal) (b := s.issued h) hh hreg31 halign hlo hp).trans
      (returnWith_beyond (hd := readLE (area s.b) (m sp) 4) hh hreg31 (hlen ▸ hhi) (hlen ▸ htop))
    rw [hlen] at hret
    exact execRet_trap hi hret

end Sys2Proof
end

section
/-! Traps and decoding (R144, R160, R173 to R175, R398, R399): what a trap records and leaves, the fields that a word of each
format gives back, and the words that spell no instruction. -/

namespace Sys2Proof.Machine

/-! The trap of a thread. -/

section
variable (b : Body) (tm : Time) (h word cause addr : Nat)

/-- What a squashed Runnel instruction counts leaves every other part of the state. -/
theorem noteSquash_frame : (b.noteSquash h word).isa = b.isa ∧ (b.noteSquash h word).mem = b.mem ∧
    (h < 1024 → ∀ c i (f : Fld), c ≠ clsRunnel → i < 2 ^ 24 → f.lo < 2 ^ 16 →
      (b.noteSquash h word).fget c i f = b.fget c i f) := by
  unfold Body.noteSquash
  cases hx : b.contextOf h with
  | none => exact ⟨rfl, rfl, fun _ _ _ _ _ _ _ => rfl⟩
  | some x =>
    have hx2 : x < 2 := by
      unfold Body.contextOf at hx
      dsimp only at hx
      split at hx
      · exact Option.some.inj hx ▸ by decide
      · split at hx
        · exact Option.some.inj hx ▸ by decide
        · exact absurd hx (by simp)
    dsimp only
    split
    · refine ⟨rfl, rfl, fun hh c i f hc hi hf => Body.fget_bump_ne _ (fieldKey_ne hi ?_ hf (by decide) (.inl hc)) 1⟩
      have hcore : coreOf h ≤ h := Nat.div_le_self h 8
      omega
    · exact ⟨rfl, rfl, fun _ _ _ _ _ _ _ => rfl⟩

/-- A hart outside a trap after a trap that goes on at `pc`. -/
def Hart.trapped (x : Hart) (word cause addr pc : Nat) : Hart :=
  { x with inTrap := true, trapCause := cause, trapPc := x.pc, trapInsn := word, trapAddr := addr, block := .none, pc := pc }

/-- A thread outside a trap: the body at the trap, before what freed buffers and records let happen. -/
def Body.trapEntered : Body :=
  let b1 := (b.noteSquash h word).chargeCycles h 1
  (b1.setHart h ((b1.hart h).trapped word cause (addr % 2 ^ 32) (b1.fget clsCore (coreOf h) FCore.trapVector))).bump
    clsThread h FThread.traps 1

variable {h} (hh : h < 1024)
include hh

theorem noteSquash_charged_hart : ((b.noteSquash h word).chargeCycles h 1).hart h = (b.hart h).charged 1 := by
  have hisa : (b.noteSquash h word).hart h = b.hart h := by
    unfold Body.hart
    rw [(noteSquash_frame b h word).1]
  rw [Body.hart_chargeCycles_self _ hh, hisa]

theorem trapAt_thread (hout : (b.hart h).inTrap = false) :
    b.trapAt tm h word cause addr = (b.trapEntered h word cause addr).settle tm := by
  have hcharged : (((b.noteSquash h word).chargeCycles h 1).hart h).inTrap = false := by
    rw [noteSquash_charged_hart b word hh]
    exact hout
  unfold Body.trapAt Body.trapThread
  rw [if_pos hh]
  dsimp only
  rw [hcharged, if_neg Bool.false_ne_true]
  rfl

theorem trapEntered_hart : (b.trapEntered h word cause addr).hart h = ((b.hart h).charged 1).trapped word cause
    (addr % 2 ^ 32) (b.fget clsCore (coreOf h) FCore.trapVector) := by
  have hcore : coreOf h ≤ h := Nat.div_le_self h 8
  have hvector : ((b.noteSquash h word).chargeCycles h 1).fget clsCore (coreOf h) FCore.trapVector =
      b.fget clsCore (coreOf h) FCore.trapVector := by
    rw [Body.fget_chargeCycles _ 1 (by omega) (by decide) (.inl (by decide)),
      (noteSquash_frame b h word).2.2 hh _ _ _ (by decide) (by omega) (by decide)]
  rw [← noteSquash_charged_hart b word hh, ← hvector]
  exact Body.hart_setHart_self ..

theorem trapEntered_traps : (b.trapEntered h word cause addr).fget clsThread h FThread.traps =
    lowBits FThread.traps.width (addFree FThread.traps.width (b.fget clsThread h FThread.traps) 1) := by
  have htraps : ((b.noteSquash h word).chargeCycles h 1).fget clsThread h FThread.traps =
      b.fget clsThread h FThread.traps := by
    rw [Body.fget_chargeCycles _ 1 (by omega) (by decide) (.inl (by decide)),
      (noteSquash_frame b h word).2.2 hh _ _ _ (by decide) (by omega) (by decide)]
  rw [← htraps]
  exact Body.fget_fset_self ..

theorem trapEntered_beside : (∀ k, k ≠ h → (b.trapEntered h word cause addr).hart k = b.hart k) ∧
    (∀ k, { (b.trapEntered h word cause addr).core k with spent := (b.core k).spent } = b.core k) ∧
    (b.trapEntered h word cause addr).mem = b.mem := by
  obtain ⟨hisa, hmem, -⟩ := noteSquash_frame b h word
  have hhart (k : Nat) : (b.noteSquash h word).hart k = b.hart k := by rw [Body.hart, hisa]; rfl
  have hcore (k : Nat) : (b.noteSquash h word).core k = b.core k := by rw [Body.core, hisa]; rfl
  refine ⟨fun k hk => ?_, fun k => ?_, (((b.noteSquash h word).chargeCycles_sameParts h 1).mem).trans hmem⟩
  · exact (Body.hart_setHart_ne _ hk _).trans ((Body.hart_chargeCycles_ne _ hk 1).trans (hhart k))
  · have hc : (b.trapEntered h word cause addr).core k = ((b.noteSquash h word).chargeCycles h 1).core k := rfl
    by_cases hk : k = coreOf h
    · subst hk
      rw [hc, Body.core_chargeCycles_self _ hh, hcore]
    · rw [hc, Body.core_chargeCycles_ne _ hk, hcore]

end

/-! The trap of a Bivouac core. -/

theorem bivReset_frame {b : Body} {tm : Time} {j : Nat} (hj : j < 4) : ((b.bivReset tm j).hart (bivHart j)).pc = 0 ∧
    ((b.bivReset tm j).hart (bivHart j)).inTrap = false ∧ (∀ q, (b.bivReset tm j).reg (bivHart j) q = 0) ∧
    (b.bivReset tm j).fget clsDevice (1 + j) FBiv.ie = 0 := by
  unfold Body.bivReset
  dsimp only
  generalize Body.fset _ clsIrq (irqCore j) FIrqDev.request 0 = b2
  have hhart (g : Hart → Hart) (kicks : SMap Nat) : ({ ((b2.modHart (bivHart j) g).fset clsDevice (1 + j) FBiv.ie 0).bump
      clsDevice (1 + j) FBiv.resets 1 with adm.kicks := kicks } : Body).hart (bivHart j) = g (b2.hart (bivHart j)) :=
    Body.hart_modHart_self ..
  refine ⟨congrArg Hart.pc (hhart _ _), congrArg Hart.inTrap (hhart _ _), fun q => ?_, ?_⟩
  · refine (congrArg (fun x : Hart => x.reg q) (hhart _ _)).trans ?_
    unfold Hart.reg
    split <;> rfl
  · refine (Body.fget_bump_ne _ (fieldKey_ne (by omega) (by omega) (by decide) (by decide) (.inr (.inr (by decide)))) 1).trans ?_
    exact Body.fget_fset_self ..

/-- A Bivouac core outside a trap records it and goes on at TVEC. -/
theorem trapBiv_enters {b : Body} {tm : Time} {h cause insn addr : Nat} (hout : (b.hart h).inTrap = false) :
    b.trapBiv tm h cause insn addr =
      b.setHart h ((b.hart h).trapped insn cause addr (b.fget clsDevice (bivInst h) FBiv.tvec)) := by
  unfold Body.trapBiv
  dsimp only
  rw [hout, if_neg Bool.false_ne_true]
  rfl

theorem trapBiv_inHandler {b : Body} {tm : Time} {h cause insn addr : Nat} (hin : (b.hart h).inTrap = true) :
    b.trapBiv tm h cause insn addr = b.bivReset tm (h - 1024) := if_pos hin

theorem trapAt_biv {b : Body} {tm : Time} {h word cause addr : Nat} (hh : 1024 ≤ h) :
    b.trapAt tm h word cause addr = b.trapBiv tm h cause word (addr % 2 ^ 32) := if_neg (by omega)

/-! Words and fields (Table 7.1). -/

/-- Bits of a word that are those of a field. -/
theorem ofNat_field {n k : Nat} {x : BitVec n} (hk : k % 2 ^ n = x.toNat) : BitVec.ofNat n k = x :=
  BitVec.eq_of_toNat_eq ((BitVec.toNat_ofNat ..).trans hk)

section
variable {major minor : Nat}

theorem fmtA_wordA (f : FmtA) (hminor : minor < 2 ^ 7) : wordA major minor f / 2 ^ 26 = major ∧
    wordA major minor f / 2 ^ 4 % 2 ^ 7 = minor ∧ fmtA (wordA major minor f) = f := by
  obtain ⟨rd, ra, rb, rsv⟩ := f
  have hrd := rd.isLt
  have hra := ra.isLt
  have hrb := rb.isLt
  have hrsv := rsv.isLt
  dsimp only [wordA, fmtA]
  refine ⟨by omega, by omega, ?_⟩
  rw [FmtA.mk.injEq]
  exact ⟨ofNat_field (by omega), ofNat_field (by omega), ofNat_field (by omega), ofNat_field (by omega)⟩

theorem fmtB_wordB (f : FmtB) : wordB major f / 2 ^ 26 = major ∧ fmtB (wordB major f) = f := by
  obtain ⟨rd, ra, imm⟩ := f
  have hrd := rd.isLt
  have hra := ra.isLt
  have himm := imm.isLt
  dsimp only [wordB, fmtB]
  refine ⟨by omega, ?_⟩
  rw [FmtB.mk.injEq]
  exact ⟨ofNat_field (by omega), ofNat_field (by omega), ofNat_field (by omega)⟩

theorem fmtC_wordC (f : FmtC) : wordC major f / 2 ^ 26 = major ∧ fmtC (wordC major f) = f := by
  obtain ⟨cond, simm⟩ := f
  have hcond := cond.isLt
  have hsimm := simm.isLt
  dsimp only [wordC, fmtC]
  refine ⟨by omega, ?_⟩
  rw [FmtC.mk.injEq]
  exact ⟨ofNat_field (by omega), ofNat_field (by omega)⟩

theorem fmtD_wordD (f : FmtD) : wordD major f / 2 ^ 26 = major ∧ fmtD (wordD major f) = f := by
  obtain ⟨mask, low⟩ := f
  have hmask := mask.isLt
  have hlow := low.isLt
  dsimp only [wordD, fmtD]
  refine ⟨by omega, ?_⟩
  rw [FmtD.mk.injEq]
  exact ⟨ofNat_field (by omega), ofNat_field (by omega)⟩

theorem fmtE_wordE (f : FmtE) (hminor : minor < 2 ^ 4) : wordE major minor f / 2 ^ 26 = major ∧
    wordE major minor f / 2 ^ 7 % 2 ^ 4 = minor ∧ fmtE (wordE major minor f) = f := by
  obtain ⟨rd, ra, rb, ep, e, rsv⟩ := f
  have hrd := rd.isLt
  have hra := ra.isLt
  have hrb := rb.isLt
  have hep := ep.isLt
  have he := e.isLt
  have hrsv := rsv.isLt
  dsimp only [wordE, fmtE]
  refine ⟨by omega, by omega, ?_⟩
  rw [FmtE.mk.injEq]
  exact ⟨ofNat_field (by omega), ofNat_field (by omega), ofNat_field (by omega), ofNat_field (by omega),
    ofNat_field (by omega), ofNat_field (by omega)⟩

theorem fmtM_wordM (f : FmtM) : wordM major f / 2 ^ 26 = major ∧ fmtM (wordM major f) = f := by
  obtain ⟨rt, ra, am, low⟩ := f
  have hrt := rt.isLt
  have hra := ra.isLt
  have ham := am.isLt
  have hlow := low.isLt
  dsimp only [wordM, fmtM]
  refine ⟨by omega, ?_⟩
  rw [FmtM.mk.injEq]
  exact ⟨ofNat_field (by omega), ofNat_field (by omega), ofNat_field (by omega), ofNat_field (by omega)⟩

end

/-! The words that spell no instruction. -/

section
variable {h w : Nat}

theorem decodeMajor_reserved {k : Nat} (hk : w / 2 ^ 26 = k) (hreserved : (0x09 ≤ k ∧ k ≤ 0x0F) ∨ (0x15 ≤ k ∧ k ≤ 0x17) ∨
    (0x2C ≤ k ∧ k ≤ 0x2F) ∨ (0x38 ≤ k ∧ k ≤ 0x3D)) : decodeMajor h w = none := by
  unfold decodeMajor
  rw [hk]
  clear hk
  rcases hreserved with ⟨hlo, hhi⟩ | ⟨hlo, hhi⟩ | ⟨hlo, hhi⟩ | ⟨hlo, hhi⟩
  all_goals interval_cases k <;> rfl

/-- An undefined minor of a major that has minors. -/
theorem decodeMinor_none (f : FmtE) {n : Nat} (hn : n < 2 ^ 4) : (4 ≤ n → decode26 h f n = none) ∧
    (6 ≤ n → decode27 h f n = none) ∧ (5 ≤ n → decode3E h f n = none) ∧ (10 ≤ n → decode3F h f n = none) := by
  refine ⟨fun hlo => ?_, fun hlo => ?_, fun hlo => ?_, fun hlo => ?_⟩
  all_goals interval_cases n <;> rfl

/-- A word of a reserved major, of an undefined minor or of all zeros spells no instruction. -/
theorem decodeMajor_none :
    let k := w / 2 ^ 26
    let n := w / 2 ^ 7 % 16
    ((0x09 ≤ k ∧ k ≤ 0x0F) ∨ (0x15 ≤ k ∧ k ≤ 0x17) ∨ (0x2C ≤ k ∧ k ≤ 0x2F) ∨ (0x38 ≤ k ∧ k ≤ 0x3D)) ∨
      (k = 0x3F ∧ 10 ≤ n) ∨ (k = 0x26 ∧ 4 ≤ n) ∨ (k = 0x27 ∧ 6 ≤ n) ∨ (k = 0x3E ∧ 5 ≤ n) ∨ w = 0 →
    decodeMajor h w = none := by
  intro k n hcase
  obtain ⟨h26, h27, h3E, h3F⟩ := decodeMinor_none (h := h) (fmtE w) (Nat.mod_lt (w / 2 ^ 7) (by decide : 2 ^ 4 > 0))
  rcases hcase with hk | ⟨hk, hlo⟩ | ⟨hk, hlo⟩ | ⟨hk, hlo⟩ | ⟨hk, hlo⟩ | rfl
  · exact decodeMajor_reserved rfl hk
  · unfold decodeMajor
    rw [show w / 2 ^ 26 = 0x3F from hk]
    exact h3F hlo
  · unfold decodeMajor
    rw [show w / 2 ^ 26 = 0x26 from hk]
    exact h26 hlo
  · unfold decodeMajor
    rw [show w / 2 ^ 26 = 0x27 from hk]
    exact h27 hlo
  · unfold decodeMajor
    rw [show w / 2 ^ 26 = 0x3E from hk]
    exact h3E hlo
  · rfl

end

/-! Checks of decode. -/

theorem badWord_field {reserved : Bool} (hr : reserved = true) : badWord false reserved = some trField := by
  rw [hr]
  rfl

theorem badWord_reserved {undefined reserved : Bool} (hu : undefined = true) :
    badWord undefined reserved = some trReserved := if_pos hu

section
variable {s : State} {h : Nat} (hs : Starts s h)
include hs

theorem aluBinary_field {f : FmtA} {minor cycles : Nat} {op : Word → Word → Flags → Word × Flags} (hrsv : f.rsv ≠ 0) :
    aluBinary h f minor cycles op s = .next (s.trapped h (wordA 0 minor f) trField 0) :=
  insn_bad hs (badWord_field (bne_iff_ne.mpr hrsv))

theorem aluUnary_field {f : FmtA} {minor : Nat} {op : Word → Flags → Word × Flags} (hrb : f.rb ≠ 0) :
    aluUnary h f minor op s = .next (s.trapped h (wordA 0 minor f) trField 0) :=
  insn_bad hs (badWord_field ((congrArg _ (bne_iff_ne.mpr hrb)).trans (Bool.or_true _)))

theorem atomInsn_field {f : FmtA} {minor : Nat} {op : Word → Word → Word → Word} (hrsv : f.rsv ≠ 0) :
    atomInsn h f minor op s = .next (s.trapped h (wordA 0x22 minor f) trField 0) :=
  insn_bad hs (badWord_field (bne_iff_ne.mpr hrsv))

theorem batomInsn_field {f : FmtA} {minor : Nat} (hrsv : f.rsv ≠ 0) :
    batomInsn h f minor s = .next (s.trapped h (wordA 0x23 minor f) trField 0) :=
  insn_bad hs (badWord_field (bne_iff_ne.mpr hrsv))

theorem immOp_bad {f : FmtB} {major cause : Nat} {bad : Option Nat} {op : Word → Flags → Word × Flags}
    (hbad : bad = some cause) : immOp h f major bad op s = .next (s.trapped h (wordB major f) cause 0) :=
  insn_bad hs hbad

theorem execLui_field {f : FmtB} (hra : f.ra ≠ 0) : execLui h f s = .next (s.trapped h (wordB 0x06 f) trField 0) :=
  immOp_bad hs (badWord_field (bne_iff_ne.mpr hra))

theorem execShi_undefined {f : FmtB} (hkind : 5 ≤ bitsAt f.imm.toNat 8 3) :
    execShi h f s = .next (s.trapped h (wordB 0x07 f) trReserved 0) :=
  immOp_bad hs (badWord_reserved (decide_eq_true (by omega)))

theorem execShi_field {f : FmtB} (hkind : bitsAt f.imm.toNat 8 3 ≤ 4) (hzero : bitsAt f.imm.toNat 11 5 ≠ 0) :
    execShi h f s = .next (s.trapped h (wordB 0x07 f) trField 0) :=
  immOp_bad hs (by rw [decide_eq_false (by omega), badWord_field (decide_eq_true hzero)])

theorem execBfx_undefined {f : FmtB} (hkind : bitsAt f.imm.toNat 14 2 = 3) :
    execBfx h f s = .next (s.trapped h (wordB 0x08 f) trReserved 0) :=
  insn_bad hs (badWord_reserved (decide_eq_true hkind))

theorem execBfx_field {f : FmtB} (hkind : bitsAt f.imm.toNat 14 2 ≠ 3) (hzero : bitsAt f.imm.toNat 10 4 ≠ 0) :
    execBfx h f s = .next (s.trapped h (wordB 0x08 f) trField 0) :=
  insn_bad hs (by rw [decide_eq_false hkind, badWord_field (decide_eq_true hzero)])

/-- Conditions above those of Table 7.6 hold for no flags. -/
theorem execBcc_undefined {f : FmtC} (hcond : 19 ≤ f.cond.toNat) :
    execBcc h f s = .next (s.trapped h (wordC 0x10 f) trReserved 0) := by
  refine insn_bad hs (badWord_reserved ?_)
  have hlt := f.cond.isLt
  generalize f.cond.toNat = c at *
  interval_cases c <;> rfl

/-- Bits 3:0 of format A. -/
theorem formatA_field {f : FmtA} (hrsv : f.rsv ≠ 0) :
    let t := fun (major minor : Nat) => Host.Outcome.next (ρ := Refusal) (φ := Fault)
      (s.trapped h (wordA major minor f) trField 0)
    execAdd h f s = t 0 0x01 ∧ execSub h f s = t 0 0x02 ∧ execAnd h f s = t 0 0x08 ∧ execOr h f s = t 0 0x09 ∧
    execXor h f s = t 0 0x0A ∧ execShl h f s = t 0 0x10 ∧ execMul h f s = t 0 0x18 ∧ execDiv h f s = t 0 0x1C ∧
    execMin h f s = t 0 0x20 ∧ execAtomFadd h f s = t 0x22 0 ∧ execBatomFadd h f s = t 0x23 0 := by
  have hbinary {minor cycles : Nat} {op : Word → Word → Flags → Word × Flags} :=
    aluBinary_field (minor := minor) (cycles := cycles) (op := op) hs hrsv
  exact ⟨hbinary, hbinary, hbinary, hbinary, hbinary, hbinary, hbinary, hbinary, hbinary, atomInsn_field hs hrsv,
    batomInsn_field hs hrsv⟩

/-- rb of an operation with one operand. -/
theorem oneOperand_field {f : FmtA} (hrb : f.rb ≠ 0) :
    let t := fun (minor : Nat) => Host.Outcome.next (ρ := Refusal) (φ := Fault) (s.trapped h (wordA 0 minor f) trField 0)
    execNeg h f s = t 0x05 ∧ execClz h f s = t 0x28 ∧ execPopc h f s = t 0x29 ∧ execBswap h f s = t 0x2A :=
  ⟨aluUnary_field hs hrb, aluUnary_field hs hrb, aluUnary_field hs hrb, aluUnary_field hs hrb⟩

theorem loadInsn_field {f : FmtM} {major n : Nat} {sx : Bool} (hindex : indexReserved f = true) :
    loadInsn h f major n sx s = .next (s.trapped h (wordM major f) trField 0) := insn_bad hs (badWord_field hindex)

theorem stagedInsn_field {f : FmtM} {major : Nat} {mk : Nat → Word → Staged} (hindex : indexReserved f = true) :
    stagedInsn h f major mk s = .next (s.trapped h (wordM major f) trField 0) := insn_bad hs (badWord_field hindex)

/-- A reserved field of an index in format M. -/
theorem formatM_field {f : FmtM} (hindex : indexReserved f = true) :
    let t := fun (major : Nat) => Host.Outcome.next (ρ := Refusal) (φ := Fault) (s.trapped h (wordM major f) trField 0)
    execLdb h f s = t 0x18 ∧ execLdbu h f s = t 0x19 ∧ execLdh h f s = t 0x1A ∧ execLdhu h f s = t 0x1B ∧
    execLdw h f s = t 0x1C ∧ execSstw h f s = t 0x20 ∧ execSsadd h f s = t 0x21 := by
  have hload {major n : Nat} {sx : Bool} := loadInsn_field (major := major) (n := n) (sx := sx) hs hindex
  exact ⟨hload, hload, hload, hload, hload, stagedInsn_field hs hindex, stagedInsn_field hs hindex⟩

end

/-- An index with SCALE 5 to 7. -/
theorem indexReserved_scale {f : FmtM} (ham : f.am = 3) (hscale : 5 ≤ bitsAt f.low.toNat 6 3) : indexReserved f = true := by
  have hbits : (f.low.extractLsb' 6 3).toNat = bitsAt f.low.toNat 6 3 := by
    rw [BitVec.extractLsb'_toNat, bitsAt, Nat.shiftRight_eq_div_pow]
  rw [indexReserved, ham, hbits, decide_eq_true (show 4 < bitsAt f.low.toNat 6 3 by omega), Bool.or_true]
  rfl

theorem insnBuf_bad {s : State} {h w c : Nat} {bad : Option Nat} {f : Time → Body → Effect} (hi : Starts s h)
    (hb : bad = some c) : insnBuf h w bad f s = .next { s with b := (s.b.trapAt s.tm h w c 0).settle s.tm } := by
  have hrun := insn_bad (w := w) (f := f) hi hb
  injection hrun with hstate
  exact congrArg Host.Outcome.next (congrArg (fun t : State => { s with b := t.b.settle s.tm }) hstate)

end Sys2Proof.Machine

namespace Sys2Proof
open Machine

/-- Settles O53: what a trap changes by hart, core and field, the checks of decode, and the rows of the decoder. -/
theorem trapEntry : Obligations.TrapEntry := by
  unfold Obligations.TrapEntry
  refine ⟨⟨fun s h word cause addr hh hout => ?thread, fun s h word cause addr hlo hhi => ?biv⟩, fun s h hs => ?fields,
    fun h f => ?a, fun h f => ?b, fun h f => ?c, fun h f => ?d, fun h f => ?e, fun h f => ?m, fun s h m hm => ?spelled,
    fun s h w hs hword hw => ?traps⟩
  case thread =>
    intro x t y
    have hb : t.b = (s.b.trapEntered h word cause addr).settle s.tm := trapAt_thread s.b s.tm word cause addr hh hout
    have hhart (k : Nat) : t.b.hart k = (s.b.trapEntered h word cause addr).hart k := by rw [hb, Body.settle_hart]
    have hy : y = (x.charged 1).trapped word cause (addr % 2 ^ 32) (s.b.fget clsCore (coreOf h) FCore.trapVector) :=
      (hhart h).trans (trapEntered_hart s.b word cause addr hh)
    obtain ⟨hharts, hcores, hmem⟩ := trapEntered_beside s.b word cause addr hh
    have hpart {α : Type} (part : Hart → α) : part y = part _ := congrArg part hy
    refine ⟨rfl, rfl, hpart Hart.inTrap, hpart Hart.trapCause, hpart Hart.trapPc,
      hpart Hart.trapInsn, hpart Hart.trapAddr, hpart Hart.pc, hpart Hart.regs,
      hpart Hart.flags, hpart Hart.phase, hpart Hart.inbox, hpart Hart.reqs,
      fun it hit hover => (hpart Hart.item).trans ?_, ⟨_, hb, trapEntered_traps s.b word cause addr hh⟩,
      fun k hk => (hhart k).trans (hharts k hk), fun k => ?_, ?_⟩
    · change x.item.map _ = _
      rw [hit, Option.map_some, hover]
      rfl
    · rw [hb, Body.settle_core]
      exact hcores k
    · rw [hb, Body.settle_mem, hmem]
  case biv =>
    intro x t y
    have hb : t.b = s.b.trapBiv s.tm h cause word (addr % 2 ^ 32) := trapAt_biv hlo
    refine ⟨rfl, rfl, fun hout => ?_, fun hin => ?_⟩
    · have hb' := hb.trans (trapBiv_enters hout)
      have hy : y = x.trapped word cause (addr % 2 ^ 32) (s.b.fget clsDevice (bivInst h) FBiv.tvec) := by
        change t.b.hart h = _
        rw [hb', Body.hart_setHart_self]
      refine ⟨congrArg Hart.inTrap hy, congrArg Hart.trapCause hy, congrArg Hart.trapPc hy, congrArg Hart.trapInsn hy,
        congrArg Hart.trapAddr hy, congrArg Hart.block hy, congrArg Hart.pc hy, by rw [hy]; rfl, fun k hk => ?_,
        fun k => ?_, ?_⟩
      · rw [hb', Body.hart_setHart_ne _ hk]
      · rw [hb', Body.core_setHart]
      · rw [hb']
        rfl
    · obtain ⟨j, hj, rfl⟩ : ∃ j, j < 4 ∧ h = bivHart j := ⟨h - 1024, by omega, by unfold bivHart; omega⟩
      have hsub : bivHart j - 1024 = j := Nat.add_sub_cancel_left ..
      have hb' := hb.trans (trapBiv_inHandler hin)
      rw [hsub] at hb' ⊢
      obtain ⟨hpc, htrap, hregs, hie⟩ := bivReset_frame (b := s.b) (tm := s.tm) hj
      rw [← hb'] at hpc htrap hregs hie
      exact ⟨hpc, htrap, hregs, hie⟩
  case fields =>
    refine ⟨fun f hrsv => ?_, fun f hrb => ?_, fun f => ?_, fun f hcond => ?_, fun f ham hscale => ?_⟩
    · exact formatA_field hs hrsv
    · exact oneOperand_field hs hrb
    · exact ⟨execLui_field hs, execShi_undefined hs, execShi_field hs, execBfx_undefined hs, execBfx_field hs⟩
    · exact execBcc_undefined hs hcond
    · exact formatM_field hs (indexReserved_scale ham hscale)
  case a =>
    simp (disch := decide) only [decodeMajor, decodeAlu, decodeAtom, fmtA_wordA, Bool.false_eq_true, if_true, if_false,
      and_self, -Nat.reducePow]
  case b => simp only [decodeMajor, fmtB_wordB, and_self, -Nat.reducePow]
  case c => simp only [decodeMajor, fmtC_wordC, -Nat.reducePow]
  case d => simp only [decodeMajor, fmtD_wordD, and_self, -Nat.reducePow]
  case e =>
    simp (disch := decide) only [decodeMajor, decode24, decode26, decode27, decode2B, decode33, decode3E, decode3F,
      fmtE_wordE, and_self, -Nat.reducePow]
  case m => simp only [decodeMajor, fmtM_wordM, and_self, -Nat.reducePow]
  case spelled =>
    unfold issueAt
    rw [hm]
  case traps =>
    intro k n traps
    have htraps {cause : Nat} (hnone : decodeMajor h w = none) (hcause : wordTrap h w = cause) : traps cause := by
      have hissue : issueAt h s = insnBuf h w (some (wordTrap h w)) (fun _ _ => .brk) s := by
        unfold issueAt
        rw [hword, hnone]
      exact hissue.trans (insnBuf_bad hs (congrArg some hcause))
    refine ⟨fun hcase => ?_, fun hk hn hh => ?_⟩
    · have hmajor : k = 0x3E → 1024 ≤ h := by omega
      have hcause : wordTrap h w = 0x01 := if_neg fun hboth => absurd (hmajor hboth.1) (Nat.not_le.mpr hboth.2)
      have hones : w = 2 ^ 32 - 1 → k = 0x3F ∧ 10 ≤ n := by omega
      refine htraps (decodeMajor_none ?_) hcause
      rcases hcase with hk | hk | hk | hk | hk | hk | hk | ⟨hk, hn, -⟩ | hz | hw1
      · exact .inl (.inl hk)
      · exact .inl (.inr (.inl hk))
      · exact .inl (.inr (.inr (.inl hk)))
      · exact .inl (.inr (.inr (.inr hk)))
      · exact .inr (.inl hk)
      · exact .inr (.inr (.inl hk))
      · exact .inr (.inr (.inr (.inl hk)))
      · exact .inr (.inr (.inr (.inr (.inl ⟨hk, hn⟩))))
      · exact .inr (.inr (.inr (.inr (.inr hz))))
      · exact .inr (.inl (hones hw1))
    · exact htraps (decodeMajor_none (by omega)) (if_pos ⟨hk, hh⟩)

end Sys2Proof
end

section
/-! Channels, WAIT and requests (R153 to R159, R195 to R198): the next word of an endpoint, the words of a message, and a
request that its endpoint has room for. -/

namespace Sys2Proof.Machine

/-! Channels. -/

theorem takeWord_cons {x : Hart} {ep : Nat} {w : Word} {r : List Word} {l : List (List Word)}
    (hread : x.unread ep = (w :: r) :: l) :
    x.takeWord ep = some (w, decide (r = []), { x with inbox := mapPut ep (if r = [] then l else r :: l) x.inbox }) := by
  unfold Hart.takeWord
  rw [hread]
  cases r <;> rfl

/-- A hart that took the word `w` from an endpoint into a register, with the inbox `q`. -/
theorem setReg_inbox (x : Hart) (rd : BitVec 5) (w : Word) (q : SMap (List (List Word))) :
    ({ x with inbox := q } : Hart).setReg rd w = { x.setReg rd w with inbox := q } := by
  unfold Hart.setReg
  split <;> rfl

section
variable {s : State} {h : Nat} (hi : Issues s h)
include hi

theorem execChr_done {rd : BitVec 5} {ep : BitVec 4} {w : Word} {r : List Word} {l : List (List Word)}
    (hep : ep ∉ [0, 6, 7]) (hbound : 8 ≤ ep.toNat → s.b.bound h ep.toNat = true)
    (hread : (s.b.hart h).unread ep.toNat = (w :: r) :: l) : execChr h ⟨rd, 0, 0, ep, 0, 0⟩ s =
      .next (s.committed h ((s.issued h).modHart h (fun y => { y.setReg rd w with
        inbox := mapPut ep.toNat (if r = [] then l else r :: l) y.inbox
        flags := { y.flags with eom := decide (r = []) } })) 1 (s.after h)) := by
  have hopen : ¬ (ep.toNat = 0 ∨ ep.toNat = 6 ∨ ep.toNat = 7 ∨ (8 ≤ ep.toNat ∧ ¬ (s.issued h).bound h ep.toNat = true)) := by
    rintro (h0 | h6 | h7 | ⟨h8, hfree⟩)
    · exact hep (by simp [BitVec.eq_of_toNat_eq (y := 0#4) h0])
    · exact hep (by simp [BitVec.eq_of_toNat_eq (y := 6#4) h6])
    · exact hep (by simp [BitVec.eq_of_toNat_eq (y := 7#4) h7])
    · exact hfree (hbound h8)
  have htake := takeWord_cons (x := (s.issued h).hart h) (ep := ep.toNat) (by rw [State.issued_hart]; exact hread)
  refine insn_done hi (badWord_fine rfl rfl) ?_ rfl
  dsimp only
  rw [if_neg hopen, htake, State.issued_nextPc]
  dsimp only
  rw [setReg_inbox]
  rfl

theorem execChw_stage {ra : BitVec 5} {ep : BitVec 4} (h8 : 8 ≤ ep.toNat) (hbound : s.b.bound h ep.toNat = true) :
    let st := mapGet [] ep.toNat (s.b.hart h).staging
    st.length < 8 →
    execChw h ⟨0, ra, 0, ep, 0, 0⟩ s = .next (s.committed h ((s.issued h).modHart h (fun y =>
      { y with staging := mapPut ep.toNat (st ++ [s.b.reg h ra]) y.staging })) 1 (s.after h)) ∧
    execChw h ⟨0, ra, 0, ep, 1, 0⟩ s = .next (s.committed h (((s.issued h).modHart h (fun y =>
      { y with staging := mapDel ep.toNat y.staging })).sendMessage h ep.toNat (st ++ [s.b.reg h ra])) 1 (s.after h)) := by
  intro st hroom
  have hopen : ¬ (ep.toNat < 8 ∨ ¬ (s.issued h).bound h ep.toNat = true) :=
    not_or.mpr ⟨Nat.not_lt.mpr h8, not_not.mpr hbound⟩
  have hst : mapGet [] ep.toNat ((s.issued h).hart h).staging = st := by rw [State.issued_hart]
  constructor
  all_goals
    refine insn_done hi (badWord_fine rfl rfl) ?_ rfl
    dsimp only
    rw [if_neg hopen, hst, if_neg (Nat.not_le.mpr hroom), State.issued_reg, State.issued_nextPc]
    rfl

end

/-- A message through the commit log takes one entry, or LF is set. -/
theorem sendMessage_log {b : Body} {h ep : Nat} {ws : List Word} {it : Item}
    (hlog : b.fget clsThread h (FThread.chanDelivery (ep - 8)) ≠ 1) (hit : (b.hart h).item = some it) :
    b.sendMessage h ep ws = b.modHart h (fun y =>
      if it.log.length < 32 then { y with item := some { it with log := it.log ++ [.chan ep
        (b.fget clsThread h (FThread.chanPeer (ep - 8))) (8 + b.fget clsThread h (FThread.chanPeerEp (ep - 8))) ws] } }
      else { y with flags := { y.flags with lf := true } }) := by
  unfold Body.sendMessage
  dsimp only
  rw [if_neg hlog, hit]
  dsimp only
  by_cases hroom : it.log.length < 32
  · simp only [hroom, Nat.not_le.mpr hroom, if_true, if_false]
  · simp only [hroom, Nat.not_lt.mp hroom, if_true, if_false]
    rfl

/-! WAIT. -/

theorem holding_eq (x : Hart) (m : BitVec 16) : x.holding m.toNat =
    ((List.range 16).map (fun e => if m.getLsbD e = true ∧ x.unread e ≠ [] then 2 ^ e else 0)).sum := by
  unfold Hart.holding
  refine congrArg List.sum (List.map_congr_left fun e _ => ?_)
  simp only [Hart.holds, BitVec.getLsbD, Bool.and_eq_true, bne_iff_ne]

/-- A mask with an endpoint that holds a word finds it. -/
theorem holding_pos {x : Hart} {m : BitVec 16} {e : Nat} (he : e < 16) (hm : m.getLsbD e = true) (hread : x.unread e ≠ []) :
    x.holding m.toNat ≠ 0 := by
  rw [holding_eq]
  have hmem : 2 ^ e ∈ (List.range 16).map (fun e => if m.getLsbD e = true ∧ x.unread e ≠ [] then 2 ^ e else 0) :=
    List.mem_map.mpr ⟨e, List.mem_range.mpr he, if_pos ⟨hm, hread⟩⟩
  have hle := List.le_sum_of_mem hmem
  have hpos := Nat.two_pow_pos e
  omega

theorem execWait_done {s : State} {h : Nat} (hi : Issues s h) {rd : BitVec 5} {m : BitVec 16} (heven : m.toNat % 2 = 0)
    (h6 : m.getLsbD 6 = false) (h7 : m.getLsbD 7 = false)
    (hbound : ∀ k, k < 8 → m.getLsbD (8 + k) = true → s.b.bound h (8 + k) = true)
    (hread : ∃ e, e < 16 ∧ m.getLsbD e = true ∧ (s.b.hart h).unread e ≠ []) :
    execWait h ⟨rd, 0, m⟩ s = .next (s.committed h ((s.issued h).setReg h rd
      (BitVec.ofNat 32 ((s.b.hart h).holding m.toNat))) 1 (s.after h)) := by
  obtain ⟨e, he, hme, hunread⟩ := hread
  have hzero : m.toNat ≠ 0 := by
    intro hm
    rw [BitVec.getLsbD, hm, Nat.zero_testBit] at hme
    exact absurd hme (by decide)
  have hany : (List.range 8).any (fun k => m.toNat.testBit (8 + k) && !(s.issued h).bound h (8 + k)) = false := by
    rw [List.any_eq_false]
    intro k hk
    have hk' := hbound k (List.mem_range.mp hk)
    rw [BitVec.getLsbD] at hk'
    cases hbit : m.toNat.testBit (8 + k) with
    | false => simp
    | true =>
      have hb : (s.issued h).bound h (8 + k) = true := hk' hbit
      simp [hb]
  have hopen : ¬ (m.toNat = 0 ∨ m.toNat.testBit 0 = true ∨ m.toNat.testBit 6 = true ∨ m.toNat.testBit 7 = true ∨
      (List.range 8).any (fun k => m.toNat.testBit (8 + k) && !(s.issued h).bound h (8 + k)) = true) := by
    rw [hany, Nat.testBit_zero]
    rw [BitVec.getLsbD] at h6 h7
    simp [hzero, heven, h6, h7]
  have hr : ((s.issued h).hart h).holding m.toNat = (s.b.hart h).holding m.toNat := by
    rw [State.issued_hart]
    rfl
  refine insn_done hi (badWord_fine rfl rfl) ?_ rfl
  dsimp only
  rw [if_neg hopen, hr, if_neg (holding_pos he hme hunread), State.issued_nextPc]

/-! Requests. -/

/-- The body at the core commit of a request on endpoint `ep`, which is noted with its number. -/
def State.asked (s : State) (h ep : Nat) (k : ReqKind) : Body :=
  { (s.issued h).modHart h (fun y => { y with reqs := y.reqs ++ [⟨ep, s.b.stamp, k, none⟩] }) with stamp := s.b.stamp + 1 }

theorem State.asked_masterTent (s : State) (h ep : Nat) (k : ReqKind) :
    (s.asked h ep k).masterTent h = s.b.masterTent h := by
  have hhart : (s.asked h ep k).hart h =
      { (s.issued h).hart h with reqs := ((s.issued h).hart h).reqs ++ [⟨ep, s.b.stamp, k, none⟩] } :=
    Body.hart_modHart_self (s.issued h) h
      (fun y => { y with reqs := y.reqs ++ [⟨ep, s.b.stamp, k, none⟩] })
  rw [← State.issued_masterTent]
  unfold Body.masterTent
  rw [hhart]
  rfl

section
variable {s : State} {h ep : Nat}

theorem State.issued_request (hout : (s.b.hart h).outstanding ep < 4) (k : ReqKind) (g : Nat → Body → Body) :
    (s.issued h).request h ep k g = .done (g s.b.stamp (s.asked h ep k)) 1 (s.after h) := by
  have hissued : ((s.issued h).hart h).outstanding ep < 4 := by rw [State.issued_hart]; exact hout
  rw [request_sent hissued, State.issued_nextPc]
  rfl

theorem State.issued_request_full (hout : 4 ≤ (s.b.hart h).outstanding ep) (k : ReqKind) (g : Nat → Body → Body) :
    (s.issued h).request h ep k g = .wait (.reqFull ep) := by
  have hissued : 4 ≤ ((s.issued h).hart h).outstanding ep := by rw [State.issued_hart]; exact hout
  exact if_pos hissued

/-- A DRD sends its requests; one beyond the capacity has its zeros at once (R336). -/
theorem drdAsk_eq {b : Body} {num a n : Nat} :
    let p := if h < 1024 then 4 else 6
    let sent := b.dramSend p (b.masterTent h) a n false (.thread h num) (atAddr a (b.dramBytes a n))
    (a < b.dramCapacity → b.drdAsk h num a n = sent) ∧
    (b.dramCapacity ≤ a → b.drdAsk h num a n = (sent.dramDone p 0).modHart h (fun y => { y with
      reqs := y.reqs.map (fun q => if q.num = num then { q with reply := some (wordsOf (b.dramBytes a n)) } else q) })) :=
  ⟨fun hin => if_neg (Nat.not_le.mpr hin), fun hout => if_pos hout⟩

/-- An aligned block of local or Bivouac memory is read whole. -/
theorem localBlock_onChip {b : Body} {a n k : Nat} {p : Place} (hp : p = .local k ∨ p = .biv k) (halign : a % 16 = 0)
    (hplace : b.place h a n true false = some p) : b.localBlock h a n = .inr (b.loadAt h p n).1 := by
  obtain rfl | rfl := hp
  · exact localBlock_local halign hplace
  · simp [Body.localBlock, halign, hplace]

variable (hi : Issues s h)
include hi

section
variable {ra : BitVec 5} {ep : BitVec 4} (hwords : ep.toNat ≤ 7)
  (hgrant : s.b.regionGrants h 0 (s.b.reg h ra).toNat (4 * (ep.toNat + 1)) true false = true)
include hwords hgrant

theorem execFrd_done (hout : (s.b.hart h).outstanding 3 < 4) : execFrd h ⟨0, ra, 0, ep, 0, 0⟩ s =
    .next (s.committed h (s.asked h 3 (.frd (s.b.reg h ra).toNat (ep.toNat + 1))) 1 (s.after h)) := by
  have hopen : (!(s.issued h).regionGrants h 0 (s.b.reg h ra).toNat (4 * (ep.toNat + 1)) true false) = false :=
    congrArg Bool.not hgrant
  refine insn_done hi (badWord_fine rfl (decide_eq_false (Nat.not_lt.mpr hwords))) ?_ rfl
  dsimp only
  rw [State.issued_reg, hopen, if_neg Bool.false_ne_true, State.issued_request hout]

theorem execFrd_wait (hout : 4 ≤ (s.b.hart h).outstanding 3) : execFrd h ⟨0, ra, 0, ep, 0, 0⟩ s =
    .next { s with b := s.b.modHart h (fun y => { y with block := .reqFull 3 }) } := by
  have hopen : (!(s.issued h).regionGrants h 0 (s.b.reg h ra).toNat (4 * (ep.toNat + 1)) true false) = false :=
    congrArg Bool.not hgrant
  refine insn_wait hi.1 (badWord_fine rfl (decide_eq_false (Nat.not_lt.mpr hwords))) ?_
  dsimp only
  rw [State.issued_reg, hopen, if_neg Bool.false_ne_true, State.issued_request_full hout]

end

section
variable {ra : BitVec 5} (hout : (s.b.hart h).outstanding 3 < 4)
include hout

theorem execBrd_done : execBrd h ⟨0, ra, 0, 0, 0, 0⟩ s = .next (s.committed h
    ((s.asked h 3 (.brd (s.b.reg h ra).toNat)).basinAsk h (s.b.masterTent h) (s.b.reg h ra).toNat (.brd h s.b.stamp)) 1
    (s.after h)) := by
  refine insn_done hi (badWord_fine rfl rfl) ?_ rfl
  dsimp only
  rw [State.issued_reg, State.issued_request hout, State.issued_masterTent]

theorem execDrd_done {rb : BitVec 5} {ep : BitVec 4} (hwords : ep.toNat ≤ 7) :
    let a := (s.b.reg h rb).toNat * 2 ^ 32 + (s.b.reg h ra).toNat
    let n := 4 * (ep.toNat + 1)
    a % 4 = 0 → s.b.regionGrants h 1 a n true false = true → execDrd h ⟨0, ra, rb, ep, 0, 0⟩ s =
      .next (s.committed h ((s.asked h 3 (.drd a n)).drdAsk h s.b.stamp a n) 1 (s.after h)) := by
  intro a n halign hgrant
  have hopen : (!(s.issued h).regionGrants h 1 a n true false) = false := congrArg Bool.not hgrant
  refine insn_done hi (badWord_fine rfl (decide_eq_false (Nat.not_lt.mpr hwords))) ?_ rfl
  dsimp only
  rw [State.issued_reg, State.issued_reg, if_neg (not_not.mpr halign), hopen, if_neg Bool.false_ne_true,
    State.issued_request hout]

theorem batomInsn_done {f : FmtA} {minor : Nat} (hrsv : f.rsv = 0) :
    let a := (s.b.reg h f.ra).toNat
    batomInsn h f minor s = .next (s.committed h ((s.asked h 3 (.batom minor (a % 4) (s.b.reg h f.rb)
      (s.b.reg h f.rd))).basinAsk h (s.b.masterTent h) (a / 4) (.batom h s.b.stamp minor (a % 4) (s.b.reg h f.rb)
        (s.b.reg h f.rd))) 1 (s.after h)) := by
  intro a
  refine insn_done hi (badWord_fine rfl (by rw [hrsv]; rfl)) ?_ rfl
  dsimp only
  rw [State.issued_reg, State.issued_reg, State.issued_reg, State.issued_request hout, State.issued_masterTent]

end

theorem execTreq_done {ra : BitVec 5} {k : Nat} {p : Place} (hout : (s.b.hart h).outstanding 1 < 4)
    (hp : p = .local k ∨ p = .biv k) (halign : (s.b.reg h ra).toNat % 16 = 0)
    (hplace : s.b.place h (s.b.reg h ra).toNat 32 true false = some p) :
    let block := (s.b.loadAt h p 32).1
    execTreq h ⟨0, ra, 0, 0, 0, 0⟩ s = .next (s.committed h ((s.asked h 1 (.treq (rqOp block))).treqAsk h s.b.stamp
      (s.b.reg h ra).toNat (if h < 1024 then some (s.b.masterTent h) else none) block) 1 (s.after h)) := by
  intro block
  have hblock : ((s.issued h).loadAt h p 32).1 = block := by
    obtain rfl | rfl := hp <;> rfl
  refine insn_done hi (badWord_fine rfl rfl) ?_ rfl
  dsimp only
  rw [State.issued_reg, localBlock_onChip hp halign ((s.issued_place ..).trans hplace), hblock]
  dsimp only
  rw [State.issued_request hout, State.issued_masterTent]

end

end Sys2Proof.Machine

namespace Sys2Proof
open Machine

/-- Settles O50: each channel instruction and each request where it is not refused, and a request that stalls. -/
theorem channelAndRequestResults : Obligations.ChannelAndRequestResults := by
  unfold Obligations.ChannelAndRequestResults
  refine ⟨fun s h hi => ?_, fun s h hi => ?_⟩
  · refine ⟨fun rd ep w r l hep hbound hread => ?_, fun ra ep h8 hbound => ?_, fun b ep ws it hlog hit => ?_,
      fun rd m heven h6 h7 hbound hread => ?_⟩
    · exact execChr_done hi hep hbound hread
    · exact execChw_stage hi h8 hbound
    · exact sendMessage_log hlog hit
    · rw [← holding_eq]
      exact execWait_done hi heven h6 h7 hbound hread
  · intro x k asked done
    refine ⟨fun ra rb ep hout hwords => ?_, fun f hrsv hout => ?_, fun ra pl at_ hout hp => ?_,
      fun ra ep hout hwords hgrant => ?_⟩
    · intro a d n port bytes sent
      refine ⟨fun hgrant => execFrd_done hi hwords hgrant hout, execBrd_done hi hout, fun halign hgrant => ?_⟩
      have hdone := execDrd_done hi hout hwords halign hgrant
      have htent := s.asked_masterTent h 3 (.drd d n)
      obtain ⟨hin, hbeyond⟩ := drdAsk_eq (h := h) (b := s.asked h 3 (.drd d n)) (num := k) (a := d) (n := n)
      rw [htent] at hin hbeyond
      refine ⟨fun hcap => ?_, fun hcap => ?_⟩
      · rw [hin hcap] at hdone
        exact hdone
      · rw [hbeyond hcap] at hdone
        exact hdone
    · exact ⟨batomInsn_done hi hout hrsv, batomInsn_done hi hout hrsv, batomInsn_done hi hout hrsv⟩
    · exact fun halign hplace => execTreq_done hi hout hp halign hplace
    · exact execFrd_wait hi hwords hgrant hout

end Sys2Proof
end

section
/-! System instructions and the privileged major (R161, R165, R168, R200, R205 to R207, R369). -/

namespace Sys2Proof.Machine

/-! The run of an instruction within a command that does more than run it. -/

section
variable {s : State} {h w : Nat} {bad : Option Nat} {g : Body → Effect}

theorem runInsn_done {n pc : Nat} {b1 : Body} (hi : Issues s h n) (hb : bad = none) (hg : g (s.issued h) = .done b1 n pc) :
    s.b.runInsn s.tm h w bad g = b1.coreCommit s.tm h n pc (s.b.hart h).regs := by
  have hrun := insn_done (w := w) (f := fun _ => g) hi hb hg rfl
  injection hrun with hstate
  exact congrArg State.b hstate

theorem runInsn_bad {c : Nat} (hs : Starts s h) (hb : bad = some c) :
    s.b.runInsn s.tm h w bad g = s.b.trapAt s.tm h w c 0 := by
  have hrun := insn_bad (w := w) (f := fun _ => g) hs hb
  injection hrun with hstate
  exact congrArg State.b hstate

/-- An instruction that breaks (R168). -/
theorem insn_brk {f : Time → Body → Effect} (hs : Starts s h) (hb : bad = none) (hf : f s.tm (s.issued h) = .brk) :
    insn h w bad f s = .next { s with b := s.b.breakAt s.tm h w } := by
  subst hb
  unfold State.issued at hf
  rcases hs with ⟨h1, h0, h2 | h2⟩ <;> simp [insn, onBody, Body.runInsn, h0, h1, h2, hf]

end

theorem breakAt_halts {b : Body} {tm : Time} {h w : Nat} (hh : h < 1024) (hbench : b.inBench = true)
    (hhalt : b.fget clsDebug h FDebug.breakHalt = 1) :
    b.breakAt tm h w = b.modHart h (fun y => { y with halted := true, stepping := false }) := if_pos ⟨hh, hbench, hhalt⟩

theorem breakAt_traps {b : Body} {tm : Time} {h w : Nat} (hbench : b.inBench = false) :
    b.breakAt tm h w = b.trapAt tm h w trBreak 0 := if_neg fun hboth => by simp [hbench] at hboth

/-! Instructions with a register result. -/

section
variable {s : State} {h : Nat} (hi : Issues s h)
include hi

theorem execNop_done : execNop h ⟨0, 0, 0, 0, 0, 0⟩ s = .next (s.committed h (s.issued h) 1 (s.after h)) :=
  insn_done hi (badWord_fine rfl rfl) (by rw [State.issued_nextPc]) rfl

theorem execMff_done (rd : BitVec 5) : execMff h ⟨rd, 0, 0, 0, 0, 0⟩ s = .next (s.committed h
    ((s.issued h).setReg h rd (BitVec.ofNat 32 (s.b.hart h).flags.toNat)) 1 (s.after h)) :=
  insn_done hi (badWord_fine rfl rfl) (by rw [State.issued_nextPc, State.issued_hart]) rfl

theorem execMtf_done (ra : BitVec 5) : execMtf h ⟨0, ra, 0, 0, 0, 0⟩ s = .next (s.committed h
    ((s.issued h).modHart h (fun y => { y with flags := Flags.ofNat (s.b.reg h ra).toNat })) 1 (s.after h)) :=
  insn_done hi (badWord_fine rfl rfl) (by rw [State.issued_nextPc, State.issued_reg]; rfl) rfl

theorem execRdt_done (rd : BitVec 5) : execRdt h ⟨rd, 0, 0, 0, 0, 0⟩ s = .next (s.committed h ((s.issued h).modHart h
    (fun y => { y.setReg rd (BitVec.ofNat 32 s.tm.now) with rdt := some (s.tm.now / 2 ^ 32) })) 1 (s.after h)) :=
  insn_done hi (badWord_fine rfl rfl) (by rw [State.issued_nextPc]) rfl

theorem execRdth_done (rd : BitVec 5) : execRdth h ⟨rd, 0, 0, 0, 0, 0⟩ s = .next (s.committed h ((s.issued h).setReg h rd
    (BitVec.ofNat 32 ((s.b.hart h).rdt.getD (s.tm.now / 2 ^ 32)))) 1 (s.after h)) :=
  insn_done hi (badWord_fine rfl rfl) (by rw [State.issued_nextPc, State.issued_hart]) rfl

theorem execRdtick_done (rd : BitVec 5) : execRdtick h ⟨rd, 0, 0, 0, 0, 0⟩ s = .next (s.committed h
    ((s.issued h).setReg h rd (BitVec.ofNat 32 s.tm.tickNumber)) 1 (s.after h)) :=
  insn_done hi (badWord_fine rfl rfl) (by rw [State.issued_nextPc]) rfl

/-! The end of a handler. -/

theorem execTret_done {e : BitVec 1} (hin : (s.b.hart h).inTrap = true)
    (hover : ∀ it, (s.b.hart h).item = some it → it.overrun = false) : execTret h ⟨0, 0, 0, 0, e, 0⟩ s = .next { s with
      b := (((s.issued h).modHart h (fun y => { y with inTrap := false })).coreCommit s.tm h 1
        ((s.b.hart h).trapPc + 4 * e.toNat) (s.b.hart h).regs).settle s.tm } := by
  have hplain : ((s.b.hart h).item.map Item.overrun).getD false = false := by
    cases hit : (s.b.hart h).item with
    | none => rfl
    | some it => exact hover it hit
  refine insnBuf_done hi rfl ?_ rfl
  dsimp only
  rw [State.issued_hart, hin, hplain]
  rfl

theorem execBreak_eq (rd ra rb : BitVec 5) : execBreak h ⟨rd, ra, rb, 0, 0, 0⟩ s =
    .next { s with b := s.b.breakAt s.tm h (wordE 0x3F 4 ⟨rd, ra, rb, 0, 0, 0⟩) } :=
  insn_brk hi.1 (badWord_fine rfl rfl) rfl

end

/-- COMMIT, DIVERT and, in a BUDGET_OVERRUN handler, TRET do what the end of an item does. -/
theorem endInsn_done {s : State} {h n : Nat} {b1 : Body} (hi : Issues s h n) :
    ((s.issued h).endBy s.tm h false = .done b1 n (s.after h) → execCommit h ⟨0, 0, 0, 0, 0, 0⟩ s =
      .next { s with b := (b1.coreCommit s.tm h n (s.after h) (s.b.hart h).regs).settle s.tm }) ∧
    ((s.issued h).endBy s.tm h true = .done b1 n (s.after h) → execDivert h ⟨0, 0, 0, 0, 0, 0⟩ s =
      .next { s with b := (b1.coreCommit s.tm h n (s.after h) (s.b.hart h).regs).settle s.tm }) ∧
    (∀ (e : BitVec 1) (it : Item), (s.b.hart h).inTrap = true → (s.b.hart h).item = some it → it.overrun = true →
      (s.issued h).endBy s.tm h false = .done b1 n (s.after h) → execTret h ⟨0, 0, 0, 0, e, 0⟩ s =
        .next { s with b := (b1.coreCommit s.tm h n (s.after h) (s.b.hart h).regs).settle s.tm }) := by
  refine ⟨fun hend => insnBuf_done hi (badWord_fine rfl rfl) hend rfl,
    fun hend => insnBuf_done hi (badWord_fine rfl rfl) hend rfl, fun e it hin hit hover hend => ?_⟩
  refine insnBuf_done hi rfl ?_ rfl
  dsimp only
  rw [State.issued_hart, hin, hit, Option.map_some, hover]
  exact hend

theorem endBy_biv {s : State} {h : Nat} (hh : 1024 ≤ h) (divert : Bool) : (s.issued h).endBy s.tm h divert =
    .done ((s.issued h).modHart h (fun y => { y with inTrap := false })) 1 (s.after h) := by
  rw [← State.issued_nextPc]
  exact if_neg (Nat.not_lt.mpr hh)

/-- A thread that hands its item over: the replies that it has not read, its staged words and its handler are gone. -/
def Hart.handedOver (x : Hart) : Hart :=
  { x with inbox := x.inbox.filter (fun e => !([1, 2, 3].contains e.1)), inTrap := false, staging := [], block := .none }

/-- With no grant unread and no reply outstanding an item ends at once. -/
theorem endItem_atOnce {b : Body} {tm : Time} {h : Nat} {it : Item} (hreqs : (b.hart h).reqs = [])
    (hunread : (b.hart h).unread 2 = []) (hit : (b.hart h).item = some it) (divert : Bool) :
    b.endItem tm h divert =
      let b1 := b.modHart h Hart.handedOver
      if it.overrun then b1.freeThread tm h else if divert then b1.requestDivert tm h it else b1.requestCommit tm h it := by
  have hawaits : (b.hart h).awaits = false := by rw [Hart.awaits, hreqs]; rfl
  have hdiscard : (b.discardReplies tm h).modHart h (fun x => { x with inTrap := false, staging := [], block := .none }) =
      b.modHart h Hart.handedOver := by
    unfold Body.discardReplies
    rw [hunread]
    exact Body.modHart_modHart b h _ _
  have hitem : ((b.modHart h Hart.handedOver).hart h).item = some it := by
    rw [Body.hart_modHart_self]
    exact hit
  rw [Body.endItem, hawaits, if_neg Bool.false_ne_true, Body.handOver, hdiscard]
  dsimp only
  rw [hitem]

/-- COMMIT and DIVERT of a thread charge their cycle and end its item. -/
theorem endBy_thread {s : State} {h : Nat} {it : Item} (hh : h < 1024) (hit : (s.b.hart h).item = some it)
    (hreqs : (s.b.hart h).reqs = []) (hunread : (s.b.hart h).unread 2 = []) (divert : Bool) :
    let b1 := ((s.issued h).chargeCycles h 1).modHart h Hart.handedOver
    (it.overrun = true → (s.issued h).endBy s.tm h divert = .done (b1.freeThread s.tm h) 0 (s.after h)) ∧
    (it.overrun = false → (s.issued h).endBy s.tm h divert =
      .done (if divert then b1.requestDivert s.tm h { it with cycles := it.cycles + 1 }
        else b1.requestCommit s.tm h { it with cycles := it.cycles + 1 }) 0 (s.after h)) := by
  intro b1
  have hhart : ((s.issued h).chargeCycles h 1).hart h = ({ s.b.hart h with block := .none } : Hart).charged 1 := by
    rw [Body.hart_chargeCycles_self _ hh, State.issued_hart]
  have hcharged : (((s.issued h).chargeCycles h 1).hart h).item =
      some (if it.overrun then it else { it with cycles := it.cycles + 1 }) := by
    rw [hhart, Hart.charged, hit]
    rfl
  have hend : (s.issued h).endBy s.tm h divert = .done (((s.issued h).chargeCycles h 1).endItem s.tm h divert) 0 (s.after h) := by
    rw [← State.issued_nextPc]
    exact if_pos hh
  have hitem {it' : Item} (hit' : (((s.issued h).chargeCycles h 1).hart h).item = some it') :=
    endItem_atOnce (tm := s.tm) (by rw [hhart]; exact hreqs) (by rw [hhart]; exact hunread) hit' divert
  refine ⟨fun hover => ?_, fun hover => ?_⟩
  · rw [if_pos hover] at hcharged
    rw [hend, hitem hcharged]
    dsimp only
    rw [if_pos hover]
  · have hplain : ¬ it.overrun = true := Bool.not_eq_true _ ▸ hover
    rw [if_neg hplain] at hcharged
    rw [hend, hitem hcharged]
    dsimp only
    rw [if_neg hplain]

/-! The privileged major. -/

section
variable {s : State} {h : Nat}

theorem privBad_biv (hh : 1024 ≤ h) {reserved : Bool} (hr : reserved = false) : privBad h reserved = none := by
  rw [privBad, if_neg (Nat.not_lt.mpr hh)]
  exact badWord_fine rfl hr

theorem privBad_thread (hh : h < 1024) (reserved : Bool) : privBad h reserved = some trPrivilege := if_pos hh

section
variable (hh : 1024 ≤ h) (hi : Issues s h)
include hh hi

theorem execLstat_done (rd : BitVec 5) : execLstat h ⟨rd, 0, 0, 0, 0, 0⟩ s = .next (s.committed h
    ((s.issued h).setReg h rd (BitVec.ofNat 32 (s.b.hart h).status)) 1 (s.after h)) :=
  insn_done hi (privBad_biv hh rfl) (by rw [State.issued_nextPc, State.issued_hart]) rfl

theorem execCplt_done (ra : BitVec 5) : execCplt h ⟨0, ra, 0, 0, 0, 0⟩ s = .next (s.committed h
    ((s.issued h).complete (h - 1024) (s.b.reg h ra).toNat) 1 (s.after h)) :=
  insn_done hi (privBad_biv hh rfl) (by rw [State.issued_nextPc, State.issued_reg]) rfl

theorem execOrd_done (rd ra rb : BitVec 5) : execOrd h ⟨rd, ra, rb, 0, 0, 0⟩ s = .next { s with
    b := ((Dev.ordRead ⟨s.tm, s.issued h⟩ h ⟨rd, ra, rb, 0, 0, 0⟩).coreCommit s.tm h 1 (s.after h)
      (s.b.hart h).regs).settle s.tm } :=
  insnBuf_done hi (privBad_biv hh rfl) (by rw [State.issued_nextPc]) rfl

theorem execOwr_done (rd ra rb : BitVec 5) : execOwr h ⟨rd, ra, rb, 0, 0, 0⟩ s = .next { s with
    tm := (Dev.owrWrite ⟨s.tm, s.b⟩ h ⟨rd, ra, rb, 0, 0, 0⟩).tm
    b := ((Dev.owrWrite ⟨s.tm, s.issued h⟩ h ⟨rd, ra, rb, 0, 0, 0⟩).b.coreCommit s.tm h 1 (s.after h)
      (s.b.hart h).regs).settle s.tm } := by
  have hbad : privBad h (sysReserved ⟨rd, ra, rb, 0, 0, 0⟩ true true true false) = none := privBad_biv hh rfl
  have hrun := runInsn_done (w := wordE 0x3E 1 ⟨rd, ra, rb, 0, 0, 0⟩)
    (g := fun b => .done (Dev.owrWrite ⟨s.tm, b⟩ h ⟨rd, ra, rb, 0, 0, 0⟩).b 1 (b.nextPc h)) hi hbad
    (by rw [State.issued_nextPc])
  unfold execOwr onDev
  dsimp only
  rw [hrun, hbad, hi.1.1]
  rfl

end

/-- CLAIM waits for the cycle after every ring so far. -/
theorem execClaim_done (hh : 1024 ≤ h) (hi : Issues s h) :
    let d := (Dev.mk s.tm s.b).pastRings
    let u : State := { s with tm := d.tm, b := d.b }
    Issues u h → ∀ rd : BitVec 5, execClaim h ⟨rd, 0, 0, 0, 0, 0⟩ s = .next (u.committed h
      ((((u.issued h).claim (h - 1024)).2).setReg h rd (BitVec.ofNat 32 ((u.issued h).claim (h - 1024)).1)) 1
        (u.after h)) := by
  intro d u hu rd
  have hwait : (decide (1024 ≤ h) && s.b.mayIssue h) = true := by rw [decide_eq_true hh, hi.1.1]; rfl
  have hrun := runInsn_done (s := u) (w := wordE 0x3E 3 ⟨rd, 0, 0, 0, 0, 0⟩) (g := claimEffect h ⟨rd, 0, 0, 0, 0, 0⟩) hu
    (privBad_biv hh rfl : privBad h (sysReserved ⟨rd, 0, 0, 0, 0, 0⟩ true false false false) = none)
    (by rw [claimEffect, State.issued_nextPc])
  unfold execClaim onDev
  dsimp only
  rw [hwait, if_pos rfl]
  exact congrArg (fun b : Body => Host.Outcome.next { u with b := b }) hrun

/-- On a data-plane thread the major traps. -/
theorem privileged_traps (hh : h < 1024) (hs : Starts s h) (f : FmtE) :
    execLstat h f s = .next (s.trapped h (wordE 0x3E 2 f) trPrivilege 0) ∧
    execClaim h f s = .next (s.trapped h (wordE 0x3E 3 f) trPrivilege 0) ∧
    execCplt h f s = .next (s.trapped h (wordE 0x3E 4 f) trPrivilege 0) := by
  refine ⟨insn_bad hs (privBad_thread hh _), ?_, insn_bad hs (privBad_thread hh _)⟩
  have hrun := runInsn_bad (w := wordE 0x3E 3 f) (g := claimEffect h f) hs
    (privBad_thread hh (sysReserved f true false false false))
  unfold execClaim onDev
  dsimp only
  rw [decide_eq_false (Nat.not_le.mpr hh), Bool.false_and, if_neg Bool.false_ne_true, hrun]
  rfl

end

end Sys2Proof.Machine

namespace Sys2Proof
open Machine

/-- Settles O52: each system instruction where it is not refused, the end of an item by its owner and the privileged
major on both kinds of hart. -/
theorem systemResults : Obligations.SystemResults := by
  unfold Obligations.SystemResults
  refine ⟨fun s h hi => ?_, fun s h hh hi => ?_, fun s h f hh hs => privileged_traps hh hs f⟩
  · refine ⟨execNop_done hi, execMff_done hi, execMtf_done hi, execRdt_done hi, execRdth_done hi, execRdtick_done hi,
      fun e hin hover => execTret_done hi hin hover, fun rd ra rb => ⟨fun hh hbench hhalt => ?_, fun hbench => ?_⟩,
      fun hh => ?_, fun it hh hroom hit hreqs hunread => ?_⟩
    · exact (execBreak_eq hi rd ra rb).trans (by rw [breakAt_halts hh hbench hhalt])
    · exact (execBreak_eq hi rd ra rb).trans (by rw [breakAt_traps hbench]; rfl)
    · obtain ⟨hcommit, hdivert, -⟩ := endInsn_done (s := s) (h := h) hi
      exact ⟨hcommit (endBy_biv hh false), hdivert (endBy_biv hh true)⟩
    · have hi0 : Issues s h 0 := ⟨hi.1, hroom⟩
      obtain ⟨hcOver, hcPlain⟩ := endBy_thread hh hit hreqs hunread false
      obtain ⟨hdOver, hdPlain⟩ := endBy_thread hh hit hreqs hunread true
      refine ⟨fun hover => ⟨?_, ?_⟩, fun hover => ⟨?_, ?_, fun e hin => ?_⟩⟩
      · exact (endInsn_done hi0).1 (hcPlain hover)
      · exact (endInsn_done hi0).2.1 (hdPlain hover)
      · exact (endInsn_done hi0).1 (hcOver hover)
      · exact (endInsn_done hi0).2.1 (hdOver hover)
      · exact (endInsn_done hi0).2.2 e it hin hit hover (hcOver hover)
  · exact ⟨execLstat_done hh hi, execClaim_done hh hi, execCplt_done hh hi, execOrd_done hh hi, execOwr_done hh hi⟩

end Sys2Proof
end

section
/-! DEBUG writes of a data-plane thread (R166 to R168): each command of word 0, and the accesses of REG_DATA. -/

namespace Sys2Proof.Machine

/-! What the debugger does with a thread. -/

section
variable {b : Body} {tm : Time} {h : Nat}

theorem debugHalt_live (hbench : b.inBench = true) (hlive : b.live h = true) :
    b.debugHalt h = (stOk, b.setHart h { b.hart h with halted := true, stepping := false }) := by
  unfold Body.debugHalt
  rw [hbench, hlive]
  rfl

/-- A halted thread runs on and is able to issue from now on. -/
theorem unhalt_halted (hhalted : (b.hart h).halted = true) (one : Bool) : b.unhalt h one =
    b.setHart h { b.hart h with halted := false, stepping := one, ableSince := b.cycleOf h } := by
  unfold Body.unhalt Body.nowAble
  rw [if_pos hhalted, Body.modHart_modHart]
  rfl

theorem debugReset_ok (hbench : b.inBench = true) : b.debugReset tm h = (stOk, (b.debugReset tm h).2) := by
  refine Prod.ext ?_ rfl
  unfold Body.debugReset
  rw [hbench]
  cases b.live h <;> rfl

theorem debugStep_halted (hbench : b.inBench = true) (hhalted : (b.hart h).halted = true) : b.debugStep h =
    (stOk, b.setHart h { b.hart h with halted := false, stepping := true, ableSince := b.cycleOf h }) := by
  rw [Body.debugStep, hbench, unhalt_halted hhalted]
  rfl

theorem debugResume_halted (hhalted : (b.hart h).halted = true) : b.debugResume h =
    (stOk, b.setHart h { b.hart h with halted := false, stepping := false, ableSince := b.cycleOf h }) := by
  rw [Body.debugResume, unhalt_halted hhalted]

end

/-! The fields of DEBUG. -/

section
variable {h : Nat} (hh : h < 1024)
include hh

theorem fieldsOfInst_debug : fieldsOfInst clsDebug h = FDebug.all := if_pos hh

theorem fieldsOfWord_debug (off : Nat) : fieldsOfWord clsDebug h off =
    FDebug.all.filter (fun f => decide (f.lo < 32 * off + 32 ∧ 32 * off < f.lo + f.width)) := by
  unfold fieldsOfWord
  rw [fieldsOfInst_debug hh]
  rfl

theorem lastWord_debug : lastWord clsDebug h = 1 := by
  have hlast : lastWord clsDebug h = (fieldsOfInst clsDebug h).foldl (fun m f => max m ((f.lo + f.width - 1) / 32)) 0 := rfl
  rw [hlast, fieldsOfInst_debug hh]
  rfl

end

/-- The fields of word 0. -/
def debugFields : List Fld :=
  [FDebug.halt, FDebug.resume, FDebug.step, FDebug.reset, FDebug.breakHalt, FDebug.halted, FDebug.regSel]

theorem fieldsOfWord_debug_zero {h : Nat} (hh : h < 1024) : fieldsOfWord clsDebug h 0 = debugFields :=
  (fieldsOfWord_debug hh 0).trans rfl

theorem fieldsOfWord_debug_one {h : Nat} (hh : h < 1024) : fieldsOfWord clsDebug h 1 = [FDebug.regData] :=
  (fieldsOfWord_debug hh 1).trans rfl

/-! Commands in word 0. -/

/-- The mode admits a command of word 0: in Bench mode every one, in any mode one that neither halts, steps nor resets. -/
theorem judgeDebug_fine {w : Wr} (hoff : w.off = 0) (hmode : w.d.b.inBench = true ∨
    (w.bits FDebug.halt = 0 ∧ w.bits FDebug.step = 0 ∧ w.bits FDebug.reset = 0)) : w.judgeDebug = Verdict.fine := by
  have hword : decide (w.off = FDebug.regData.word) = false := by rw [hoff]; rfl
  unfold Wr.judgeDebug
  split
  · dsimp only
    rw [hword]
    rcases hmode with hbench | ⟨hhalt, hstep, hreset⟩
    · simp [hbench, Verdict.fine]
    · simp [hhalt, hstep, hreset, Verdict.fine]
  · rfl

/-- A word 0 does its commands in the order of their bits. -/
theorem actDebug_commands {w : Wr} (hh : w.inst < 1024)
    (hset : w.setFields (fun f => decide (f = FDebug.regData)) = w.d.b) (hhit : w.hit FDebug.regData = false) :
    w.actDebug = w.tries FDebug.reset (fun x => x.debugReset w.d.tm w.inst)
      (w.tries FDebug.step (fun x => x.debugStep w.inst) (w.tries FDebug.resume (fun x => x.debugResume w.inst)
        (w.tries FDebug.halt (fun x => x.debugHalt w.inst) (stOk, w.d.b)))) := by
  unfold Wr.actDebug
  dsimp only
  rw [if_pos hh, hset, hhit, if_neg Bool.false_ne_true]

/-- The commands of word 0. -/
def debugCommands : List Fld := [FDebug.halt, FDebug.resume, FDebug.step, FDebug.reset]

theorem debugCommands_place : ∀ f ∈ debugCommands, f.word = 0 ∧ f ∈ debugFields ∧ f.lo + f.width ≤ 32 * f.word + 32 ∧
    f.acc = .wo ∧ f.width = 1 := by decide

section
variable {s : State} {h : Nat} (hh : h < 1024) (hfits : s.Fits clsDebug h 0)
include hh hfits

theorem debug_writesAlone {f : Fld} (hf : f ∈ debugCommands) :
    (Dev.mk s.tm s.b).WritesAlone .biv clsDebug h f 1 debugFields := by
  obtain ⟨hword, hmem, hsingle, hacc, hwidth⟩ := debugCommands_place f hf
  refine writesAlone_of_fits (by rw [hword, fieldsOfWord_debug_zero hh]) ⟨hmem, hsingle, by decide⟩ ?_ ?_
    (fun hrw => absurd (hacc.symm.trans hrw) (by decide)) (by rw [hword]; exact hfits)
  · change f.acc.writable = true
    rw [hacc]
    rfl
  · rw [hwidth]
    decide

/-- A command does itself and no other. -/
theorem debug_does {f g : Fld} (hf : f ∈ debugCommands) (hg : g ∈ debugCommands) :
    ((Dev.mk s.tm s.b).wr .biv clsDebug h f 1).does g = decide (g = f) := by
  obtain ⟨-, hmem, -, hacc, -⟩ := debugCommands_place g hg
  have H := debug_writesAlone hh hfits hf
  by_cases hgf : g = f
  · subst hgf
    rw [H.does_self hacc rfl, decide_eq_true rfl]
  · rw [H.does_beside hgf (fun _ => hmem) (by rw [hacc]; decide), decide_eq_false hgf]

theorem debug_bits {f g : Fld} (hf : f ∈ debugCommands) (hg : g ∈ debugCommands) (hgf : g ≠ f) :
    ((Dev.mk s.tm s.b).wr .biv clsDebug h f 1).bits g = 0 := by
  obtain ⟨-, hmem, -, hacc, -⟩ := debugCommands_place g hg
  exact (debug_writesAlone hh hfits hf).bits_beside hgf (fun _ => hmem) (by rw [hacc]; decide)

/-- A command of word 0 that the mode admits: what the debugger does for it, in the order of the bits. -/
theorem debugCommand_done {f : Fld} {b : Body} (ha : Admits s .biv clsDebug h true) (hf : f ∈ debugCommands)
    (hmode : s.b.inBench = true ∨ f = FDebug.resume)
    (hdo : (if f = FDebug.halt then s.b.debugHalt h else if f = FDebug.resume then s.b.debugResume h
      else if f = FDebug.step then s.b.debugStep h else s.b.debugReset s.tm h) = (stOk, b)) :
    debugCommand .biv h f s = .next (s.answered b) := by
  obtain ⟨hword, hmem, hsingle, hacc, hwidth⟩ := debugCommands_place f hf
  have H := debug_writesAlone hh hfits hf
  have hdoes {g : Fld} (hg : g ∈ debugCommands) := debug_does hh hfits hf hg
  have hbits {g : Fld} (hg : g ∈ debugCommands) (hne : g ≠ f) := debug_bits hh hfits hf hg hne
  have hbelow : below 1024 h = h := if_pos hh
  unfold debugCommand
  rw [hbelow]
  refine fieldCommand_done ha H rfl (by rw [lastWord_debug hh, hword]; decide) (judgeDebug_fine hword (hmode.imp_right ?_)) ?_
  · rintro rfl
    exact ⟨hbits (by decide) (by decide), hbits (by decide) (by decide), hbits (by decide) (by decide)⟩
  · have hdata : FDebug.regData ≠ f := fun heq => absurd (heq ▸ hword) (by decide)
    refine (actDebug_commands hh (H.setFields_eq fun hrw => absurd (hacc.symm.trans hrw) (by decide))
      (H.hit_beside hdata fun hin => absurd (hword ▸ hin) (by decide))).trans ?_
    simp only [Wr.tries, Dev.wr_inst, Dev.wr_d, hdoes (g := FDebug.halt) (by decide),
      hdoes (g := FDebug.resume) (by decide), hdoes (g := FDebug.step) (by decide), hdoes (g := FDebug.reset) (by decide)]
    simp only [debugCommands, List.mem_cons, List.not_mem_nil, or_false] at hf
    rcases hf with rfl | rfl | rfl | rfl
    · have hdo : s.b.debugHalt h = (stOk, b) := hdo
      simp [FDebug.halt, FDebug.resume, FDebug.step, FDebug.reset, hdo]
    · have hdo : s.b.debugResume h = (stOk, b) := hdo
      simp [FDebug.halt, FDebug.resume, FDebug.step, FDebug.reset, hdo]
    · have hdo : s.b.debugStep h = (stOk, b) := hdo
      simp [FDebug.halt, FDebug.resume, FDebug.step, FDebug.reset, hdo]
    · have hdo : s.b.debugReset s.tm h = (stOk, b) := hdo
      simp [FDebug.halt, FDebug.resume, FDebug.step, FDebug.reset, hdo]

end

/-! REG_DATA, which is alone in word 1. -/

section
variable {s : State} {h : Nat} (hh : h < 1024)

/-- The register selected takes a value of 32 bits. -/
theorem setSelected_mod (x : Hart) (sel v : Nat) : x.setSelected sel (v % 2 ^ 32) = x.setSelected sel v := by
  unfold Hart.setSelected
  have hword : BitVec.ofNat 32 (v % 2 ^ 32) = BitVec.ofNat 32 v := by
    apply BitVec.eq_of_toNat_eq
    rw [BitVec.toNat_ofNat, BitVec.toNat_ofNat, Nat.mod_mod]
  have hpc : v % 2 ^ 32 % 2 ^ 16 = v % 2 ^ 16 := Nat.mod_mod_of_dvd v (by decide)
  have hbit (k : Nat) (hk : k < 32) : (v % 2 ^ 32).testBit k = v.testBit k := by
    rw [Nat.testBit_mod_two_pow, decide_eq_true hk, Bool.true_and]
  have hflags : Flags.ofNat (v % 2 ^ 32) = Flags.ofNat v := by
    rw [Flags.ofNat, hbit 0 (by decide), hbit 1 (by decide), hbit 2 (by decide), hbit 3 (by decide), hbit 4 (by decide),
      hbit 5 (by decide), hbit 6 (by decide)]
    rfl
  rw [hword, hpc, hflags]

/-- A word for REG_DATA, as the object write judges and does it. -/
def regDataWr (s : State) (h w : Nat) : Wr := ⟨⟨s.tm, s.b⟩, .biv, clsDebug, h, 1, w, []⟩

theorem regDataWr_next (w : Nat) : (regDataWr s h w).next FDebug.regData % 2 ^ 32 = w % 2 ^ 32 := by
  have hnext : (regDataWr s h w).next FDebug.regData = setBits ((regDataWr s h w).old FDebug.regData) 0 32 (w / 1) := rfl
  rw [hnext, Nat.div_one]
  generalize (regDataWr s h w).old FDebug.regData = old
  unfold setBits bitsAt
  omega

/-- The commands lie in word 0. -/
theorem regDataWr_bits (w : Nat) {g : Fld} (hg : g ∈ debugCommands) : (regDataWr s h w).bits g = 0 := by
  have hout : ∀ g ∈ debugCommands, g.inWordOf 1 = false := by decide
  exact if_neg fun hin => by simp [regDataWr, hout g hg] at hin

include hh

theorem regDataWr_fields (w : Nat) : (regDataWr s h w).fields = [FDebug.regData] := fieldsOfWord_debug_one hh

theorem regDataWr_hit (w : Nat) : (regDataWr s h w).hit FDebug.regData = true := by
  unfold Wr.hit Wr.hits
  rw [regDataWr_fields hh]
  rfl

theorem regDataWr_act (w : Nat) : (regDataWr s h w).act = (stOk, s.b.setHart h
    ((s.b.hart h).setSelected (s.b.fget clsDebug h FDebug.regSel) w)) := by
  have hset : (regDataWr s h w).setFields (fun f => decide (f = FDebug.regData)) = s.b := by
    unfold Wr.setFields
    rw [regDataWr_fields hh]
    simp [regDataWr]
  have hdoes {g : Fld} (hg : g ∈ debugCommands) : (regDataWr s h w).does g = false := by
    rw [Wr.does, regDataWr_bits w hg]
    exact Bool.and_false _
  have hselected : (s.b.hart h).setSelected (s.b.fget clsDebug h FDebug.regSel) ((regDataWr s h w).next FDebug.regData) =
      (s.b.hart h).setSelected (s.b.fget clsDebug h FDebug.regSel) w := by
    rw [← setSelected_mod, regDataWr_next, setSelected_mod]
  change Wr.actDebug _ = _
  unfold Wr.actDebug
  dsimp only
  rw [if_pos (show (regDataWr s h w).inst < 1024 from hh), hset, regDataWr_hit hh, if_pos rfl]
  simp only [Wr.tries, hdoes (g := FDebug.halt) (by decide), hdoes (g := FDebug.resume) (by decide),
    hdoes (g := FDebug.step) (by decide), hdoes (g := FDebug.reset) (by decide), Bool.false_eq_true, and_false, if_false]
  rw [← hselected]
  rfl

/-- Every bit of word 1 is one of REG_DATA. -/
theorem reservedOnes_regData (w : Nat) : reservedOnes clsDebug h 1 w = 0 := by
  refine List.countP_eq_zero.mpr fun k hk => ?_
  have hlt : k < 32 := List.mem_range.mp hk
  rw [fieldsOfWord_debug_one hh]
  simp [FDebug.regData]
  omega

/-- The word read is that of the register selected. -/
theorem readWord_regData : (Dev.mk s.tm s.b).readWord clsDebug h 1 =
    ((s.b.hart h).selected (s.b.fget clsDebug h FDebug.regSel) % 2 ^ 32, ⟨s.tm, s.b⟩) := by
  have hview : (Dev.mk s.tm s.b).view clsDebug h FDebug.regData =
      (s.b.hart h).selected (s.b.fget clsDebug h FDebug.regSel) :=
    (if_neg fun hboth => absurd hboth.2 (by decide)).trans (if_pos ⟨hh, rfl⟩)
  have hfield : (Dev.mk s.tm s.b).readField clsDebug h 1 FDebug.regData =
      ((s.b.hart h).selected (s.b.fget clsDebug h FDebug.regSel), ⟨s.tm, s.b⟩) := by
    rw [← hview]
    rfl
  unfold Dev.readWord
  rw [fieldsOfWord_debug_one hh]
  have hport : decide (clsDebug = clsPort) = false := rfl
  have hshown (v : Nat) : FDebug.regData.inWord 1 v = v % 2 ^ 32 := by simp [Fld.inWord, FDebug.regData]
  simp only [hport, Bool.false_and, Bool.false_eq_true, if_false, List.foldl_cons, List.foldl_nil, hfield, hshown,
    Nat.zero_add]

variable (ha : Admits s .biv clsDebug h true) (hbench : s.b.inBench = true) (hhalted : (s.b.hart h).halted = true)
include hbench hhalted

omit hh in
theorem regAccess_ok : s.b.regAccess h = stOk := by
  rw [Body.regAccess, hbench, hhalted]
  rfl

theorem regDataWr_check (w : Nat) : (regDataWr s h w).check = stOk := by
  have hrange : (regDataWr s h w).inRange = true := by
    unfold Wr.inRange
    rw [regDataWr_fields hh]
    simp [Fld.inRange, FDebug.regData, Nat.mod_one]
  have hjudge : (regDataWr s h w).judge = Verdict.fine := by
    change Wr.judgeDebug _ = _
    unfold Wr.judgeDebug
    rw [if_pos (show (regDataWr s h w).inst < 1024 from hh), regDataWr_bits w (by decide), regDataWr_bits w (by decide),
      regDataWr_bits w (by decide)]
    dsimp only
    rw [show (regDataWr s h w).d.b.regAccess (regDataWr s h w).inst = stOk from regAccess_ok hbench hhalted]
    simp [Verdict.fine, stOk, stNotInMode, stBusy]
  rw [Wr.check, hjudge, hrange]
  rfl

include ha

theorem objWrite_regData (w : Nat) : (Dev.mk s.tm s.b).objWrite .biv clsDebug h 1 [w] = (stOk, 0xFFFF, ⟨s.tm,
    s.b.setHart h ((s.b.hart h).setSelected (s.b.fget clsDebug h FDebug.regSel) w)⟩) := by
  have hcount : s.b.countReserved clsDebug h 1 [w] = s.b := by
    refine if_pos (.inr ?_)
    have hone : wordsAt 1 [w] = [(1, w)] := by simp [wordsAt]
    rw [hone, List.sum_eq_zero_iff]
    simp only [List.mem_map, List.mem_filter, List.mem_singleton]
    rintro _ ⟨_, ⟨rfl, -⟩, rfl⟩
    exact reservedOnes_regData hh w
  have hreadOnly : s.b.readOnly .biv clsDebug h 1 1 = false := by
    unfold Body.readOnly
    rw [List.range_one, List.all_cons, fieldsOfWord_debug_one hh]
    rfl
  have hwrite : (regDataWr s h w).write = (stOk, ⟨s.tm,
      s.b.setHart h ((s.b.hart h).setSelected (s.b.fget clsDebug h FDebug.regSel) w)⟩) := by
    unfold Wr.write
    rw [regDataWr_check hh hbench hhalted, regDataWr_act hh]
    rfl
  have hwr : Wr.mk ⟨s.tm, s.b⟩ .biv clsDebug h 1 w (wordsAt (1 + 1) []) = regDataWr s h w := rfl
  simp only [Dev.objWrite, hcount, ha.answered, ha.there, ha.reach, List.length_singleton, hreadOnly, Dev.writeWords,
    lastWord_debug hh, hwr, hwrite]
  simp

theorem objRead_regData : (Dev.mk s.tm s.b).objRead .biv clsDebug h 1 1 =
    (stOk, [(s.b.hart h).selected (s.b.fget clsDebug h FDebug.regSel) % 2 ^ 32], ⟨s.tm, s.b⟩) := by
  have hcheck : s.b.readCheck clsDebug h 1 = stOk := by
    have hport : clsDebug ≠ clsRunnel := by decide
    unfold Body.readCheck
    rw [if_neg (fun hboth => hport hboth.1), if_pos ⟨rfl, hh, rfl⟩, regAccess_ok hbench hhalted]
  have hreach : s.b.reaches .biv clsDebug h false = true := rfl
  simp [Dev.objRead, ha.answered, ha.there, hreach, lastWord_debug hh, hcheck, Dev.readWords, readWord_regData hh]

theorem execRegDataAccess_write (w : Word) : execRegDataAccess .biv h (some w) s = .next (s.answered
    (s.b.setHart h ((s.b.hart h).setSelected (s.b.fget clsDebug h FDebug.regSel) w.toNat))) := by
  have hbelow : below 1024 h = h := if_pos hh
  unfold execRegDataAccess onDev Dev.access
  rw [hbelow]
  dsimp only
  rw [accessIn_admitted ha, show FDebug.regData.word = 1 from rfl, objWrite_regData hh ha hbench hhalted]
  rfl

theorem execRegDataAccess_read : execRegDataAccess .biv h none s = .next (s.answeredRead s.b
    [(s.b.hart h).selected (s.b.fget clsDebug h FDebug.regSel)]) := by
  have hbelow : below 1024 h = h := if_pos hh
  have hword (v : Nat) : BitVec.ofNat 32 (v % 2 ^ 32) = BitVec.ofNat 32 v :=
    BitVec.eq_of_toNat_eq (by rw [BitVec.toNat_ofNat, BitVec.toNat_ofNat, Nat.mod_mod])
  unfold execRegDataAccess onDev Dev.access
  rw [hbelow]
  dsimp only
  rw [accessIn_admitted ha, show FDebug.regData.word = 1 from rfl, objRead_regData hh ha hbench hhalted]
  simp only [Dev.answerRead, List.map_cons, List.map_nil, hword]
  rfl

end

end Sys2Proof.Machine

namespace Sys2Proof
open Machine

/-- Settles O12: the commands of word 0, which hold the thread's state alone, and the register that REG_SEL selects. -/
theorem debugWrites : Obligations.DebugWrites := by
  unfold Obligations.DebugWrites
  intro s h hh ha hfits x go
  have hcommand {f : Fld} {b : Body} (hf : f ∈ debugCommands) := debugCommand_done (b := b) hh hfits ha hf
  refine ⟨fun hbench hlive => ⟨?halt, fun hhalted => ?step, ?reset⟩, fun hhalted => ?resume, fun hbench hhalted =>
    ⟨execRegDataAccess_read hh ha hbench hhalted, execRegDataAccess_write hh ha hbench hhalted⟩⟩
  case halt => exact hcommand (by decide) (.inl hbench) (debugHalt_live hbench hlive)
  case step => exact hcommand (f := FDebug.step) (by decide) (.inl hbench) (debugStep_halted hbench hhalted)
  case reset => exact hcommand (f := FDebug.reset) (by decide) (.inl hbench) (debugReset_ok hbench)
  case resume => exact hcommand (f := FDebug.resume) (by decide) (.inr rfl) (debugResume_halted hhalted)

end Sys2Proof
end
